-- ==== Sys2Proof/Word.lean ====
section
/-!
DEFINITION. The word types of the Cynte-4: bytes, halfwords, 32-bit and 64-bit words (00 R10).
-/

namespace Sys2Proof

/-- One byte. -/
abbrev Byte := BitVec 8
/-- A stream halfword (10 R227). -/
abbrev Half := BitVec 16
/-- A 32-bit word: one lane, one long stream word. -/
abbrev W32 := BitVec 32
/-- A 64-bit word: a scalar register, a CSR, a global address. -/
abbrev W64 := BitVec 64
/-- A 256-bit engine record or layout record (10 R251, 13 R339). -/
abbrev RecordBits := BitVec 256
/-- The 32 lanes of 32 bits of a vector register or queue entry, lane 0 first (10 R235). -/
abbrev Lanes := List W32

end Sys2Proof
end

