-- ==== Sys2Proof/Config.lean ====
section
/-!
DEFINITION. What the manual leaves to the part or leaves open: constants with no value here, so that no proof can lean
on one. A free value is one of these applied to the counter `State.fresh` (assumptions 1, 8, 9).
-/

namespace Sys2Proof.Config

/-- Which of several ready agents of the device moves next, by the count of such choices (assumption 1). -/
opaque schedule : Nat → Nat
/-- Whether the bank service of an emulated domain is late in a cycle of a tick (02 R49; assumption 8). -/
opaque bankLate : Nat → Bool
/-- Whether a packet type of a flit is reserved: the manual lists none (16 R395; assumption 68). -/
opaque typeReserved : BitVec 6 → Bool
/-- Bytes the manual gives no value: free banks after a wake, a failed collective's granules (05 R129; 16 R407;
assumption 9). -/
opaque freeByte : Nat → Byte
/-- A byte of an area of a slot image, by the area, what it holds and its place: 05 R108 gives no layout inside
(assumption 9). -/
opaque slotByte : Nat → List Nat → Nat → Byte
/-- Whether a granule of a failed collective was delivered (16 R407; assumption 9). -/
opaque delivered : Nat → Bool
/-- The boot ROM version (18 R428). Assumption 92. -/
opaque romVersion : BitVec 8
/-- The SHA-256 of the firmware key, held in fuses (18 R437). -/
opaque keyHash : BitVec 256
/-- The fused minimum version of the firmware (18 R437). -/
opaque minVersion : BitVec 32
/-- The size of the flash in bytes (18 R437). -/
opaque flashSize : Nat
/-- The hardware signature of an attestation report (18 R438), with the identity key no master can read (18 R436). -/
opaque attestSign : List Byte → BitVec 3072

/-- Bank conflicts that an engine record counts, by the record and its layouts: the manual gives no number of elements
a layout generator makes in a tick (04 R105, R106). -/
opaque recordConflicts : RecordBits → RecordBits → RecordBits → Nat
/-- What the boot stages of a warm reset find, when the reset comes from a register write (18 R428, R439). -/
opaque bootBits : Nat → BitVec 32

/-- How bits 15:4 of the detail of a block-validation fault hold the column and offset beside its check code
(09 R206). Assumption 50. -/
opaque blockPlace : Nat → Nat → BitVec 12

/-- The detail of a block-validation fault (09 R206; 15 R386): its check code, and where it failed. Assumption 50. -/
def blockDetail (code col ofs : Nat) : BitVec 16 := blockPlace col ofs ++ BitVec.ofNat 4 code

/-- What a soft error does at a moment of the run: 0 nothing, 1 corrected, 2 a granule's check code fails, 3 a granule
reads with an uncorrectable error; and the granule (18 R433, R435; assumption 34). -/
opaque softError : Nat → Nat × Nat

/-- The power estimate in milliwatts that the controller projects for a cluster on VL, and on VH, from its present
estimate (17 R414 gives no formula; assumption 18). -/
opaque estimateAtLow : Nat → Nat
opaque estimateAtHigh : Nat → Nat

end Sys2Proof.Config
end

