-- ==== Sys2Proof/Syntax.lean ====
section
/-!
DEFINITION. The instructions of the opcode table, whole: the words of the four columns (10 R240-R250), the
engine records (10 R252), and the events of the device (95). One constructor per row of spec/opcode_table.json.
-/

namespace Sys2Proof

/-- The four columns of a tile, in column order (09 R201). -/
inductive Column where | sq | vx | xc | ls
  deriving DecidableEq, Repr

/-- The four engines of a tile (00 R7). -/
inductive Engine where | me | gu | ce | ch
  deriving DecidableEq, Repr

/-- A scalar operand (10 R234): register s, SQ result age k, constant c. -/
inductive SSpec where
  | s (n : BitVec 5) | k (n : BitVec 4) | c (n : BitVec 4)
  deriving DecidableEq, Repr

/-- A vector operand (10 R235): register v; VX, XC and LS ages a, x, l; broadcast b of an SQ age; constant c. -/
inductive VSpec where
  | v (n : BitVec 4) | a (n : BitVec 4) | x (n : BitVec 3) | l (n : BitVec 3) | b (n : BitVec 3) | c (n : BitVec 3)
  deriving DecidableEq, Repr

/-- Whether a vector operand names a register v0-v15. -/
def VSpec.isNamed : VSpec → Bool
  | .v _ => true
  | .a _ => false
  | .x _ => false
  | .l _ => false
  | .b _ => false
  | .c _ => false

/-- The SQ destination (10 R238): a register and the queue, or the queue only. -/
inductive Dst where | reg (n : BitVec 5) | queue
  deriving DecidableEq, Repr

/-- The destination of a VX BIN word (10 R244): FORM 01 names a register, FORM 10 is queue-only. -/
inductive VDst where | reg (n : BitVec 4) | queue
  deriving DecidableEq, Repr

/-- Rounding modes (08 R180); codes 5 and 6 are reserved. -/
inductive Rm where | rne | rtz | rup | rdn | rna | dyn
  deriving DecidableEq, Repr

/-- Condition codes of CMP and CMPI (10 R242). -/
inductive Cond where
  | eq | ne | lt | le | gt | ge | ltu | leu | gtu | geu | bitset | bitclr | always | never
  deriving DecidableEq, Repr

/-- The reductions of VOTE (09 R218). -/
inductive VoteOp where | any | all | max | min | add
  deriving DecidableEq, Repr

/-- Whether a vote writes a predicate slot rather than the SQ queue. -/
def VoteOp.isPred : VoteOp → Bool
  | .any => true
  | .all => true
  | .max => false
  | .min => false
  | .add => false

/-- The operations of PLOG (10 R243). -/
inductive LogicOp where | and | or | xor | andn | nand | nor | xnor | not
  deriving DecidableEq, Repr

/-- Agent scopes (10 R242). -/
inductive Agent where | tile | cluster | domain | module | system
  deriving DecidableEq, Repr

/-- Element formats, FMT codes 0-10 (03 R66). -/
inductive Fmt where
  | raw | fp32 | fp64 | bf16 | fp16 | e4m3 | e5m2 | int8 | uint8 | int32 | tern5
  deriving DecidableEq, Repr

/-- Block geometry (03 R66). -/
inductive Blk where | none | b16 | b32 | b64
  deriving DecidableEq, Repr

/-- VREDF operations (12 R310). -/
inductive RedF where | add | max | min | maxabs
  deriving DecidableEq, Repr

/-- VREDI operations (12 R310). -/
inductive RedI where | add | max | min | and | or
  deriving DecidableEq, Repr

/-- VREDD operations (12 R310). -/
inductive RedD where | add | max | min
  deriving DecidableEq, Repr

/-- Atomic operations (10 R250). -/
inductive Aop where
  | add | sub | min | max | minu | maxu | and | or | xor | swap | cas | fadd32 | fmax32
  deriving DecidableEq, Repr

/-- Conditions of WAITW and WAITG (04 R103). -/
inductive WaitCond where | eq | geu
  deriving DecidableEq, Repr

/-- The word LDA reads (02 R53). -/
inductive AccWord where | sum | err | rn | i32
  deriving DecidableEq, Repr

/-- Router ports (16 R393): the torus ports, the local port, and the three bridges by rank (16 R397). -/
inductive Port where | e | w | n | s | loc | sup | bridge (rank : Nat)
  deriving DecidableEq, Repr

/-- One cluster's readings at a control interval (17 R412, R414): the thermal sensor above its trip point, and the
power estimate in milliwatts. -/
structure Sensor where
  cluster : Nat
  trip : Bool
  estimate : Nat
  deriving DecidableEq, Repr

/-- What a training of a Rentan link came to (18 R423): `stage` reached (4 is up), lanes, rate code, reversal. -/
structure Training where
  stage : BitVec 3
  width : BitVec 5
  rate : BitVec 3
  rev : Bool
  deriving DecidableEq, Repr

/-- A host or peer access over a link (18 R424). `cfg` is the configuration window, `mem` the device memory aperture
(bits 49:48 the die, 47:0 the virtual address), each with the bytes of a write or the length of a read. -/
inductive HostAccess where
  | cfgRead (offset : Nat)
  | cfgWrite (offset : Nat) (value : BitVec 64)
  | memRead (address : BitVec 50) (length : Nat)
  | memWrite (address : BitVec 50) (data : List (BitVec 8))
  | bufferWrite (offset : Nat) (data : List (BitVec 8))
  deriving DecidableEq, Repr

/-- What the world outside decides of a boot (18 R439): fuse CRC good, HBM stacks trained, the trainings of the two links, self-test passed. -/
structure BootInputs where
  fuseOk : Bool
  hbmOk : Bool
  link0 : Training
  link1 : Training
  selfTestOk : Bool
  deriving DecidableEq, Repr

/-- The instructions: one constructor per row of the opcode table. The words carry their issue gap `g` and their
fields; the records act on the entry their engine runs; the events carry only what comes from outside the device. -/
inductive Instr where
  /-- PREP (R210): Loads a target register with a block address computed from an offset to the current header, and starts fetching that block. -/
  | prep (g : BitVec 4) (t : BitVec 2) (o : BitVec 16)
  /-- PREP_S (R210): Loads a target register with a block address taken from an S-spec, and starts fetching that block. -/
  | prepS (g : BitVec 4) (t : BitVec 2) (s : SSpec)
  /-- PREP_RET (R210): Loads a target register with the top of the return stack and marks it as a return. -/
  | prepRet (g : BitVec 4) (t : BitVec 2)
  /-- LEAP (R211): Decides at LEN-16 whether the block boundary goes to the prepared target. -/
  | leap (g : BitVec 4) (t : BitVec 2) (p : BitVec 3) (s : Bool)
  /-- LEAPL (R211): Decision that, when taken, pushes the fall-through address on the return stack. -/
  | leapl (g : BitVec 4) (t : BitVec 2) (p : BitVec 3) (s : Bool)
  /-- LEAP_D (R219): Agreed decision whose continuation address is compared over group 0. -/
  | leapD (g : BitVec 4) (t : BitVec 2) (p : BitVec 3) (s : Bool)
  /-- VOTE (R218): Reduces one scalar over a group and delivers the result to every member after Lv ticks. -/
  | vote (g : BitVec 4) (d : BitVec 3) (w : Bool) (a : SSpec) (b : SSpec) (c : VoteOp)
  /-- HALT (R269): Ends the tile's issue, while its engines and in-flight results run on. -/
  | halt (g : BitVec 4)
  /-- TRAP (R270): Raises a recoverable software trap whose detail is the code. -/
  | trap (g : BitVec 4) (i : BitVec 8)
  /-- RTE (R271): Supervisor resumes a halted domain by re-injecting its latches and broadcasting the release. -/
  | rte (g : BitVec 4)
  /-- WAITRV (R277): Holds the domain until every named RDV field reaches the marker count. -/
  | waitrv (g : BitVec 4) (e : BitVec 4) (n : BitVec 16)
  /-- MARK (R277): Places a numbered marker behind the queued records of each named engine queue. -/
  | mark (g : BitVec 4) (e : BitVec 4) (n : BitVec 16)
  /-- SKIPL (R229): Long SQ filler that issues nothing for IMM20+1 ticks. -/
  | skipl (g : BitVec 4) (n : BitVec 20)
  /-- ADD (R258): Scalar 64-bit add. -/
  | add (g : BitVec 4) (d : Dst) (a : SSpec) (b : SSpec)
  /-- SUB (R258): Scalar 64-bit subtract. -/
  | sub (g : BitVec 4) (d : Dst) (a : SSpec) (b : SSpec)
  /-- MUL (R258): Low 64 bits of a scalar product. -/
  | mul (g : BitVec 4) (d : Dst) (a : SSpec) (b : SSpec)
  /-- MULH (R258): High 64 bits of a signed scalar product. -/
  | mulh (g : BitVec 4) (d : Dst) (a : SSpec) (b : SSpec)
  /-- MULHU (R258): High 64 bits of an unsigned scalar product. -/
  | mulhu (g : BitVec 4) (d : Dst) (a : SSpec) (b : SSpec)
  /-- DIV (R259): Signed scalar division truncated toward zero, with defined results for a zero divisor. -/
  | div (g : BitVec 4) (d : Dst) (a : SSpec) (b : SSpec)
  /-- DIVU (R259): Unsigned scalar division. -/
  | divu (g : BitVec 4) (d : Dst) (a : SSpec) (b : SSpec)
  /-- REM (R259): Signed scalar remainder. -/
  | rem (g : BitVec 4) (d : Dst) (a : SSpec) (b : SSpec)
  /-- REMU (R259): Unsigned scalar remainder. -/
  | remu (g : BitVec 4) (d : Dst) (a : SSpec) (b : SSpec)
  /-- AND (R258): Scalar bitwise AND. -/
  | and (g : BitVec 4) (d : Dst) (a : SSpec) (b : SSpec)
  /-- OR (R258): Scalar bitwise OR. -/
  | or (g : BitVec 4) (d : Dst) (a : SSpec) (b : SSpec)
  /-- XOR (R258): Scalar bitwise XOR. -/
  | xor (g : BitVec 4) (d : Dst) (a : SSpec) (b : SSpec)
  /-- ANDN (R258): Scalar a AND NOT b. -/
  | andn (g : BitVec 4) (d : Dst) (a : SSpec) (b : SSpec)
  /-- SHL (R258): Scalar shift left by b mod 64. -/
  | shl (g : BitVec 4) (d : Dst) (a : SSpec) (b : SSpec)
  /-- SHR (R258): Scalar logical shift right. -/
  | shr (g : BitVec 4) (d : Dst) (a : SSpec) (b : SSpec)
  /-- SAR (R258): Scalar arithmetic shift right. -/
  | sar (g : BitVec 4) (d : Dst) (a : SSpec) (b : SSpec)
  /-- ROL (R258): Scalar rotate left. -/
  | rol (g : BitVec 4) (d : Dst) (a : SSpec) (b : SSpec)
  /-- MIN (R258): Signed scalar minimum. -/
  | min (g : BitVec 4) (d : Dst) (a : SSpec) (b : SSpec)
  /-- MAX (R258): Signed scalar maximum. -/
  | max (g : BitVec 4) (d : Dst) (a : SSpec) (b : SSpec)
  /-- MINU (R258): Unsigned scalar minimum. -/
  | minu (g : BitVec 4) (d : Dst) (a : SSpec) (b : SSpec)
  /-- MAXU (R258): Unsigned scalar maximum. -/
  | maxu (g : BitVec 4) (d : Dst) (a : SSpec) (b : SSpec)
  /-- SEL (R258): Selects a or b by the value of predicate slot p0-p3. -/
  | sel (g : BitVec 4) (d : Dst) (a : SSpec) (b : SSpec) (p : BitVec 2)
  /-- CLZ (R258): Counts the leading zero bits. -/
  | clz (g : BitVec 4) (d : Dst) (a : SSpec)
  /-- CTZ (R258): Counts the trailing zero bits. -/
  | ctz (g : BitVec 4) (d : Dst) (a : SSpec)
  /-- POPC (R258): Counts the one bits. -/
  | popc (g : BitVec 4) (d : Dst) (a : SSpec)
  /-- BSWAP (R258): Reverses the byte order. -/
  | bswap (g : BitVec 4) (d : Dst) (a : SSpec)
  /-- ADDSH (R258): Computes a plus b shifted left by 1 to 4. -/
  | addsh (g : BitVec 4) (d : Dst) (a : SSpec) (b : SSpec) (n : BitVec 2)
  /-- EXTU (R260): Extracts an unsigned bit field. -/
  | extu (g : BitVec 4) (d : Dst) (a : SSpec) (b : SSpec)
  /-- EXTS (R260): Extracts a sign-extended bit field. -/
  | exts (g : BitVec 4) (d : Dst) (a : SSpec) (b : SSpec)
  /-- INS (R260): Inserts a bit field into the destination's old value. -/
  | ins (g : BitVec 4) (d : Dst) (a : SSpec) (b : SSpec)
  /-- MOV (R258): Scalar move. -/
  | mov (g : BitVec 4) (d : Dst) (a : SSpec)
  /-- ADDI (R261): Adds a sign-extended 8-bit immediate. -/
  | addi (g : BitVec 4) (d : Dst) (a : SSpec) (i : BitVec 8)
  /-- ANDI (R261): ANDs with a sign-extended immediate. -/
  | andi (g : BitVec 4) (d : Dst) (a : SSpec) (i : BitVec 8)
  /-- ORI (R261): ORs with a sign-extended immediate. -/
  | ori (g : BitVec 4) (d : Dst) (a : SSpec) (i : BitVec 8)
  /-- XORI (R261): XORs with a sign-extended immediate. -/
  | xori (g : BitVec 4) (d : Dst) (a : SSpec) (i : BitVec 8)
  /-- SHLI (R261): Shifts left by an immediate of 0 to 63. -/
  | shli (g : BitVec 4) (d : Dst) (a : SSpec) (i : BitVec 8)
  /-- SHRI (R261): Shifts right logically by an immediate. -/
  | shri (g : BitVec 4) (d : Dst) (a : SSpec) (i : BitVec 8)
  /-- SARI (R261): Shifts right arithmetically by an immediate. -/
  | sari (g : BitVec 4) (d : Dst) (a : SSpec) (i : BitVec 8)
  /-- MOVI (R262): Loads a sign-extended 14-bit immediate. -/
  | movi (g : BitVec 4) (d : Dst) (i : BitVec 14)
  /-- LDCP (R262): Loads an 8-byte constant from a record-store constant slot. -/
  | ldcp (g : BitVec 4) (d : Dst) (i : BitVec 14)
  /-- CMP (R263): Writes the comparison of two S-specs into a predicate slot. -/
  | cmp (g : BitVec 4) (d : BitVec 3) (w : Bool) (a : SSpec) (b : SSpec) (c : Cond)
  /-- CMPI (R263): Writes the comparison of an S-spec with a 6-bit immediate into a predicate slot. -/
  | cmpi (g : BitVec 4) (d : BitVec 3) (w : Bool) (a : SSpec) (i : BitVec 6) (c : Cond)
  /-- PLOG (R264): Combines two predicate slots by a logical operation. -/
  | plog (g : BitVec 4) (d : BitVec 3) (a : BitVec 3) (b : BitVec 3) (o : LogicOp)
  /-- PCLR (R265): Clears the value and written bit of the masked slots. -/
  | pclr (g : BitVec 4) (m : BitVec 8)
  /-- PMOV_TO_REGISTER (R266): Moves a slot's value and written bit into a scalar register. -/
  | pmovToRegister (g : BitVec 4) (d : Dst) (p : BitVec 3)
  /-- PMOV_TO_SLOT (R266): Sets a slot to whether a scalar is nonzero. -/
  | pmovToSlot (g : BitVec 4) (a : SSpec) (p : BitVec 3)
  /-- MQ (R272): Pushes a record into the ME queue, with an optional guard and k0 patch. -/
  | mq (g : BitVec 4) (r : BitVec 10) (p : BitVec 3) (e : Bool) (s : Bool) (o : Bool)
  /-- GQ (R272): Pushes a record into the GU queue. -/
  | gq (g : BitVec 4) (r : BitVec 10) (p : BitVec 3) (e : Bool) (s : Bool) (o : Bool)
  /-- CQ (R272): Pushes a record into the CE queue. -/
  | cq (g : BitVec 4) (r : BitVec 10) (p : BitVec 3) (e : Bool) (s : Bool) (o : Bool)
  /-- HQ (R272): Pushes a chorus record into the CH queue. -/
  | hq (g : BitVec 4) (r : BitVec 10) (p : BitVec 3) (e : Bool) (s : Bool) (o : Bool)
  /-- SEMSIG (R280): Adds an increment to one of the tile's own semaphores, in signal order. -/
  | semsig (g : BitVec 4) (s : BitVec 4) (i : BitVec 8)
  /-- SEMWAIT (R280): Holds the domain until the semaphore's satisfying point is applied. -/
  | semwait (g : BitVec 4) (s : BitVec 4) (c : BitVec 16)
  /-- GIVE (R96): Detaches a window's bank, draining its records, and schedules its attach to another window. -/
  | give (g : BitVec 4) (w : BitVec 3) (t : BitVec 2) (x : BitVec 3) (s : BitVec 4)
  /-- BMAP (R282): Supervisor attaches a zero-filled free bank to an empty window. -/
  | bmap (g : BitVec 4) (b : BitVec 4) (t : BitVec 2) (w : BitVec 3) (a : SSpec)
  /-- BFREE (R283): Supervisor drains a window's bank and returns it to the pool. -/
  | bfree (g : BitVec 4) (t : BitVec 2) (w : BitVec 3) (a : SSpec)
  /-- BFMT (R92): Sets the format tag of the bank in a window. -/
  | bfmt (g : BitVec 4) (w : BitVec 3) (f : Fmt) (b : Blk) (s : Bool)
  /-- PFENCE (R114): Starts a persist epoch by freezing the dirty lines in scope. -/
  | pfence (g : BitVec 4) (k : BitVec 4) (a : Agent) (s : BitVec 4)
  /-- CFENCE_LO (R142): Orders the accesses of classes 0-7 across the fence for an agent. -/
  | cfenceLo (g : BitVec 4) (m : BitVec 8) (a : Agent) (s : BitVec 5)
  /-- CFENCE_HI (R142): Orders the accesses of classes 8-15 across the fence for an agent. -/
  | cfenceHi (g : BitVec 4) (m : BitVec 8) (a : Agent) (s : BitVec 5)
  /-- CSRR (R284): Reads a CSR into the SQ queue and a register. -/
  | csrr (g : BitVec 4) (d : Dst) (c : BitVec 12)
  /-- CSRW (R284): Writes the RW fields of a CSR. -/
  | csrw (g : BitVec 4) (s : SSpec) (c : BitVec 12)
  /-- CSRS (R284): Sets bits in the RW fields of a CSR. -/
  | csrs (g : BitVec 4) (s : SSpec) (c : BitVec 12)
  /-- CSRC (R284): Clears bits in the RW fields of a CSR. -/
  | csrc (g : BitVec 4) (s : SSpec) (c : BitVec 12)
  /-- SEAL (R288): Supervisor starts the sealing epochs of a quiesced cluster. -/
  | seal (g : BitVec 4) (a : SSpec)
  /-- SLOT (R289): Supervisor parks the active context and activates the named slot's context. -/
  | slotw (g : BitVec 4) (a : SSpec) (t : BitVec 2) (s : Bool)
  /-- SAMPLE (R290): Writes a tagged sample record when sampling is enabled. -/
  | sample (g : BitVec 4) (i : BitVec 8)
  /-- SKIP (R229): Short filler in any column that issues nothing for n+1 ticks. -/
  | skip (g : BitVec 3) (n : BitVec 6)
  /-- KPUT (R240): Writes SQ age k0 into a scalar register. -/
  | kput (g : BitVec 3) (n : BitVec 5)
  /-- INC (R240): Increments a scalar register. -/
  | inc (g : BitVec 3) (n : BitVec 5)
  /-- DEC (R240): Decrements a scalar register. -/
  | dec (g : BitVec 3) (n : BitVec 5)
  /-- VPUT (R240): Writes VX age a0 into a vector register. -/
  | vput (g : BitVec 3) (n : BitVec 4)
  /-- VZERO (R240): Zeroes a vector register. -/
  | vzero (g : BitVec 3) (n : BitVec 4)
  /-- FFMA (R298): FP32 fused a*b+c, rounded once. -/
  | ffma (g : BitVec 4) (r : Rm) (a : VSpec) (b : VSpec) (c : VSpec) (w : Bool)
  /-- FFMS (R298): FP32 fused a*b-c. -/
  | ffms (g : BitVec 4) (r : Rm) (a : VSpec) (b : VSpec) (c : VSpec) (w : Bool)
  /-- FNFMA (R298): FP32 fused -a*b+c. -/
  | fnfma (g : BitVec 4) (r : Rm) (a : VSpec) (b : VSpec) (c : VSpec) (w : Bool)
  /-- FNFMS (R298): FP32 fused -a*b-c. -/
  | fnfms (g : BitVec 4) (r : Rm) (a : VSpec) (b : VSpec) (c : VSpec) (w : Bool)
  /-- DFMA (R298): FP64 fused a*b+c on lane pairs. -/
  | dfma (g : BitVec 4) (r : Rm) (a : VSpec) (b : VSpec) (c : VSpec) (w : Bool)
  /-- DFMS (R298): FP64 fused a*b-c on lane pairs. -/
  | dfms (g : BitVec 4) (r : Rm) (a : VSpec) (b : VSpec) (c : VSpec) (w : Bool)
  /-- IMAD (R299): Integer a*b+c modulo 2^32 per lane. -/
  | imad (g : BitVec 4) (a : VSpec) (b : VSpec) (c : VSpec) (w : Bool)
  /-- VX_SEL (R299): Per-lane select of a or b by whether c is nonzero. -/
  | vxSel (g : BitVec 4) (a : VSpec) (b : VSpec) (c : VSpec) (w : Bool)
  /-- FADD (R301): FP32 add. -/
  | fadd (g : BitVec 4) (r : Rm) (a : VSpec) (b : VSpec) (d : VDst)
  /-- FSUB (R301): FP32 subtract. -/
  | fsub (g : BitVec 4) (r : Rm) (a : VSpec) (b : VSpec) (d : VDst)
  /-- FMUL (R301): FP32 multiply. -/
  | fmul (g : BitVec 4) (r : Rm) (a : VSpec) (b : VSpec) (d : VDst)
  /-- FMIN (R302): FP32 IEEE minimum. -/
  | fmin (g : BitVec 4) (a : VSpec) (b : VSpec) (d : VDst)
  /-- FMAX (R302): FP32 IEEE maximum. -/
  | fmax (g : BitVec 4) (a : VSpec) (b : VSpec) (d : VDst)
  /-- FMINN (R302): FP32 minimumNumber. -/
  | fminn (g : BitVec 4) (a : VSpec) (b : VSpec) (d : VDst)
  /-- FMAXN (R302): FP32 maximumNumber. -/
  | fmaxn (g : BitVec 4) (a : VSpec) (b : VSpec) (d : VDst)
  /-- FCPYSGN (R303): Gives a with the sign of b. -/
  | fcpysgn (g : BitVec 4) (a : VSpec) (b : VSpec) (d : VDst)
  /-- FCEQ (R304): FP32 equality compare mask. -/
  | fceq (g : BitVec 4) (a : VSpec) (b : VSpec) (d : VDst)
  /-- FCLT (R304): FP32 less-than compare mask. -/
  | fclt (g : BitVec 4) (a : VSpec) (b : VSpec) (d : VDst)
  /-- FCLE (R304): FP32 less-or-equal compare mask. -/
  | fcle (g : BitVec 4) (a : VSpec) (b : VSpec) (d : VDst)
  /-- FCUN (R304): FP32 unordered compare mask. -/
  | fcun (g : BitVec 4) (a : VSpec) (b : VSpec) (d : VDst)
  /-- FABS (R303): Clears the FP32 sign bit. -/
  | fabs (g : BitVec 4) (a : VSpec) (d : VDst)
  /-- FNEG (R303): Inverts the FP32 sign bit. -/
  | fneg (g : BitVec 4) (a : VSpec) (d : VDst)
  /-- FRINT (R305): Rounds FP32 to an integral value. -/
  | frint (g : BitVec 4) (r : Rm) (a : VSpec) (d : VDst)
  /-- FSCALB (R306): Scales FP32 by 2^n, rounded once. -/
  | fscalb (g : BitVec 4) (r : Rm) (a : VSpec) (b : VSpec) (d : VDst)
  /-- DADD (R301): FP64 add on lane pairs. -/
  | dadd (g : BitVec 4) (r : Rm) (a : VSpec) (b : VSpec) (d : VDst)
  /-- DSUB (R301): FP64 subtract. -/
  | dsub (g : BitVec 4) (r : Rm) (a : VSpec) (b : VSpec) (d : VDst)
  /-- DMUL (R301): FP64 multiply. -/
  | dmul (g : BitVec 4) (r : Rm) (a : VSpec) (b : VSpec) (d : VDst)
  /-- DMIN (R302): FP64 IEEE minimum. -/
  | dmin (g : BitVec 4) (a : VSpec) (b : VSpec) (d : VDst)
  /-- DMAX (R302): FP64 IEEE maximum. -/
  | dmax (g : BitVec 4) (a : VSpec) (b : VSpec) (d : VDst)
  /-- DCEQ (R304): FP64 equality compare mask. -/
  | dceq (g : BitVec 4) (a : VSpec) (b : VSpec) (d : VDst)
  /-- DCLT (R304): FP64 less-than compare mask. -/
  | dclt (g : BitVec 4) (a : VSpec) (b : VSpec) (d : VDst)
  /-- DCLE (R304): FP64 less-or-equal compare mask. -/
  | dcle (g : BitVec 4) (a : VSpec) (b : VSpec) (d : VDst)
  /-- DABS (R303): Clears the FP64 sign bit. -/
  | dabs (g : BitVec 4) (a : VSpec) (d : VDst)
  /-- DNEG (R303): Inverts the FP64 sign bit. -/
  | dneg (g : BitVec 4) (a : VSpec) (d : VDst)
  /-- DRINT (R305): Rounds FP64 to an integral value. -/
  | drint (g : BitVec 4) (r : Rm) (a : VSpec) (d : VDst)
  /-- DCUN (R304): FP64 unordered compare mask. -/
  | dcun (g : BitVec 4) (a : VSpec) (b : VSpec) (d : VDst)
  /-- IADD (R307): Integer add per lane. -/
  | iadd (g : BitVec 4) (a : VSpec) (b : VSpec) (d : VDst)
  /-- ISUB (R307): Integer subtract per lane. -/
  | isub (g : BitVec 4) (a : VSpec) (b : VSpec) (d : VDst)
  /-- IMUL (R307): Low 32 bits of the integer product. -/
  | imul (g : BitVec 4) (a : VSpec) (b : VSpec) (d : VDst)
  /-- IMULH (R307): High 32 bits of the signed product. -/
  | imulh (g : BitVec 4) (a : VSpec) (b : VSpec) (d : VDst)
  /-- IMULHU (R307): High 32 bits of the unsigned product. -/
  | imulhu (g : BitVec 4) (a : VSpec) (b : VSpec) (d : VDst)
  /-- IMIN (R307): Signed integer minimum. -/
  | imin (g : BitVec 4) (a : VSpec) (b : VSpec) (d : VDst)
  /-- IMAX (R307): Signed integer maximum. -/
  | imax (g : BitVec 4) (a : VSpec) (b : VSpec) (d : VDst)
  /-- IMINU (R307): Unsigned integer minimum. -/
  | iminu (g : BitVec 4) (a : VSpec) (b : VSpec) (d : VDst)
  /-- IMAXU (R307): Unsigned integer maximum. -/
  | imaxu (g : BitVec 4) (a : VSpec) (b : VSpec) (d : VDst)
  /-- IAND (R307): Bitwise AND per lane. -/
  | iand (g : BitVec 4) (a : VSpec) (b : VSpec) (d : VDst)
  /-- IOR (R307): Bitwise OR per lane. -/
  | ior (g : BitVec 4) (a : VSpec) (b : VSpec) (d : VDst)
  /-- IXOR (R307): Bitwise XOR per lane. -/
  | ixor (g : BitVec 4) (a : VSpec) (b : VSpec) (d : VDst)
  /-- IANDN (R307): Bitwise a AND NOT b per lane. -/
  | iandn (g : BitVec 4) (a : VSpec) (b : VSpec) (d : VDst)
  /-- ISHL (R307): Shift left per lane. -/
  | ishl (g : BitVec 4) (a : VSpec) (b : VSpec) (d : VDst)
  /-- ISHR (R307): Logical shift right per lane. -/
  | ishr (g : BitVec 4) (a : VSpec) (b : VSpec) (d : VDst)
  /-- ISAR (R307): Arithmetic shift right per lane. -/
  | isar (g : BitVec 4) (a : VSpec) (b : VSpec) (d : VDst)
  /-- ICEQ (R304): Integer equality compare mask. -/
  | iceq (g : BitVec 4) (a : VSpec) (b : VSpec) (d : VDst)
  /-- ICLT (R304): Signed integer less-than compare mask. -/
  | iclt (g : BitVec 4) (a : VSpec) (b : VSpec) (d : VDst)
  /-- ICLTU (R304): Unsigned integer less-than compare mask. -/
  | icltu (g : BitVec 4) (a : VSpec) (b : VSpec) (d : VDst)
  /-- IADDS (R307): Saturating signed integer add. -/
  | iadds (g : BitVec 4) (a : VSpec) (b : VSpec) (d : VDst)
  /-- ISUBS (R307): Saturating signed integer subtract. -/
  | isubs (g : BitVec 4) (a : VSpec) (b : VSpec) (d : VDst)
  /-- IABS (R307): Integer absolute value. -/
  | iabs (g : BitVec 4) (a : VSpec) (d : VDst)
  /-- CVT_F32_I32 (R308): Converts a signed INT32 to FP32. -/
  | cvtF32I32 (g : BitVec 4) (r : Rm) (a : VSpec) (d : VDst)
  /-- CVT_I32_F32 (R309): Converts FP32 to saturated signed INT32. -/
  | cvtI32F32 (g : BitVec 4) (r : Rm) (a : VSpec) (d : VDst)
  /-- CVT_F64_F32 (R308): Widens FP32 lanes 0-15 to FP64 pairs. -/
  | cvtF64F32 (g : BitVec 4) (a : VSpec) (d : VDst)
  /-- CVT_F32_F64 (R308): Narrows FP64 pairs to FP32 lanes 0-15. -/
  | cvtF32F64 (g : BitVec 4) (r : Rm) (a : VSpec) (d : VDst)
  /-- CVT_BF16_F32 (R308): Packs two FP32 operands into BF16 halves. -/
  | cvtBf16F32 (g : BitVec 4) (r : Rm) (a : VSpec) (b : VSpec) (d : VDst)
  /-- CVT_F32_BF16 (R308): Widens one BF16 half to FP32. -/
  | cvtF32Bf16 (g : BitVec 4) (a : VSpec) (h : Bool) (d : VDst)
  /-- VEXT (R311): Moves one lane, zero-extended, into the SQ queue. -/
  | vext (g : BitVec 4) (a : VSpec) (n : BitVec 6)
  /-- VEXT_W64 (R311): Moves one 64-bit lane pair into the SQ queue. -/
  | vextW64 (g : BitVec 4) (a : VSpec) (n : BitVec 6)
  /-- VPERM (R312): Permutes lanes by an index vector. -/
  | vperm (g : BitVec 4) (a : VSpec) (b : VSpec)
  /-- VROT (R312): Rotates lanes toward lower indices. -/
  | vrot (g : BitVec 4) (a : VSpec) (n : BitVec 6)
  /-- VREDF (R313): FP32 fixed-tree reduction into every lane. -/
  | vredf (g : BitVec 4) (a : VSpec) (o : RedF)
  /-- VREDI (R313): Integer reduction into every lane. -/
  | vredi (g : BitVec 4) (a : VSpec) (o : RedI)
  /-- VREDD (R313): FP64 fixed-tree reduction into every pair. -/
  | vredd (g : BitVec 4) (a : VSpec) (o : RedD)
  /-- QNT8 (R314): Quantizes exact a*b to FP8 into one byte of each lane. -/
  | qnt8 (g : BitVec 4) (n : BitVec 2) (f : Bool) (s : Bool) (a : VSpec) (b : VSpec) (c : VSpec)
  /-- DQ8 (R315): Decodes one FP8 byte of each lane to FP32. -/
  | dq8 (g : BitVec 4) (f : Bool) (n : BitVec 2) (a : VSpec)
  /-- CVTH (R316): Packs two FP32 operands into FP16 halves. -/
  | cvth (g : BitVec 4) (a : VSpec) (b : VSpec)
  /-- CVTHU (R316): Widens one FP16 half to FP32. -/
  | cvthu (g : BitVec 4) (a : VSpec) (h : Bool)
  /-- VCLASS (R317): Classifies each FP32 lane into a one-hot word. -/
  | vclass (g : BitVec 4) (a : VSpec)
  /-- EXP (R319): Correctly rounded FP32 e^a. -/
  | exp (g : BitVec 4) (r : Rm) (a : VSpec)
  /-- EXP2 (R319): Correctly rounded FP32 2^a. -/
  | exp2 (g : BitVec 4) (r : Rm) (a : VSpec)
  /-- LOG (R319): Correctly rounded FP32 ln a. -/
  | log (g : BitVec 4) (r : Rm) (a : VSpec)
  /-- LOG2 (R319): Correctly rounded FP32 log2 a. -/
  | log2 (g : BitVec 4) (r : Rm) (a : VSpec)
  /-- ERF (R319): Correctly rounded FP32 erf. -/
  | erf (g : BitVec 4) (r : Rm) (a : VSpec)
  /-- ERFC (R319): Correctly rounded FP32 erfc. -/
  | erfc (g : BitVec 4) (r : Rm) (a : VSpec)
  /-- SQRT (R319): Correctly rounded FP32 square root. -/
  | sqrt (g : BitVec 4) (r : Rm) (a : VSpec)
  /-- RSQRT (R319): Correctly rounded FP32 reciprocal square root. -/
  | rsqrt (g : BitVec 4) (r : Rm) (a : VSpec)
  /-- RCP (R319): Correctly rounded FP32 reciprocal. -/
  | rcp (g : BitVec 4) (r : Rm) (a : VSpec)
  /-- TANH (R319): Correctly rounded FP32 tanh. -/
  | tanh (g : BitVec 4) (r : Rm) (a : VSpec)
  /-- SIGM (R319): Correctly rounded FP32 logistic sigmoid. -/
  | sigm (g : BitVec 4) (r : Rm) (a : VSpec)
  /-- EXPM1 (R319): Correctly rounded FP32 e^a-1. -/
  | expm1 (g : BitVec 4) (r : Rm) (a : VSpec)
  /-- LOG1P (R319): Correctly rounded FP32 ln(1+a). -/
  | log1p (g : BitVec 4) (r : Rm) (a : VSpec)
  /-- DIV_F32 (R319): Correctly rounded FP32 division. -/
  | divF32 (g : BitVec 4) (r : Rm) (a : VSpec) (b : VSpec)
  /-- EXP_F64 (R319): Correctly rounded FP64 e^a. -/
  | expF64 (g : BitVec 4) (r : Rm) (a : VSpec)
  /-- EXP2_F64 (R319): Correctly rounded FP64 2^a. -/
  | exp2F64 (g : BitVec 4) (r : Rm) (a : VSpec)
  /-- LOG_F64 (R319): Correctly rounded FP64 ln a. -/
  | logF64 (g : BitVec 4) (r : Rm) (a : VSpec)
  /-- LOG2_F64 (R319): Correctly rounded FP64 log2 a. -/
  | log2F64 (g : BitVec 4) (r : Rm) (a : VSpec)
  /-- ERF_F64 (R319): Correctly rounded FP64 erf. -/
  | erfF64 (g : BitVec 4) (r : Rm) (a : VSpec)
  /-- ERFC_F64 (R319): Correctly rounded FP64 erfc. -/
  | erfcF64 (g : BitVec 4) (r : Rm) (a : VSpec)
  /-- SQRT_F64 (R319): Correctly rounded FP64 square root. -/
  | sqrtF64 (g : BitVec 4) (r : Rm) (a : VSpec)
  /-- RSQRT_F64 (R319): Correctly rounded FP64 reciprocal square root. -/
  | rsqrtF64 (g : BitVec 4) (r : Rm) (a : VSpec)
  /-- RCP_F64 (R319): Correctly rounded FP64 reciprocal. -/
  | rcpF64 (g : BitVec 4) (r : Rm) (a : VSpec)
  /-- TANH_F64 (R319): Correctly rounded FP64 tanh. -/
  | tanhF64 (g : BitVec 4) (r : Rm) (a : VSpec)
  /-- SIGM_F64 (R319): Correctly rounded FP64 sigmoid. -/
  | sigmF64 (g : BitVec 4) (r : Rm) (a : VSpec)
  /-- EXPM1_F64 (R319): Correctly rounded FP64 e^a-1. -/
  | expm1F64 (g : BitVec 4) (r : Rm) (a : VSpec)
  /-- LOG1P_F64 (R319): Correctly rounded FP64 ln(1+a). -/
  | log1pF64 (g : BitVec 4) (r : Rm) (a : VSpec)
  /-- DIV_F64 (R319): Correctly rounded FP64 division. -/
  | divF64 (g : BitVec 4) (r : Rm) (a : VSpec) (b : VSpec)
  /-- LDS_V (R328): Loads 128 raw bytes of a bank into the LS queue. -/
  | ldsV (g : BitVec 4) (c : BitVec 4) (b : SSpec) (o : BitVec 5)
  /-- LDS_D (R330): Loads 32 elements of a bank, decoded by its tag. -/
  | ldsD (g : BitVec 4) (c : BitVec 4) (b : SSpec) (o : BitVec 5)
  /-- STS_V (R328): Stores 128 raw bytes into a bank. -/
  | stsV (g : BitVec 4) (c : BitVec 4) (d : VSpec) (b : SSpec) (o : BitVec 5)
  /-- STS_E (R331): Encodes 32 lanes into bank elements by its tag. -/
  | stsE (g : BitVec 4) (c : BitVec 4) (d : VSpec) (b : SSpec) (o : BitVec 5)
  /-- LDS_G (R332): Gathers 32 bank elements by an index vector. -/
  | ldsG (g : BitVec 4) (c : BitVec 4) (d : VSpec) (b : SSpec)
  /-- STS_S (R333): Scatters 32 words into a bank by an index register. -/
  | stsS (g : BitVec 4) (c : BitVec 4) (d : VSpec) (b : SSpec) (i : BitVec 4)
  /-- LDS_W32 (R328): Loads a 32-bit bank word, zero-extended, into the SQ queue. -/
  | ldsW32 (g : BitVec 4) (c : BitVec 4) (b : SSpec) (o : BitVec 5)
  /-- LDS_W64 (R328): Loads a 64-bit bank word into the SQ queue. -/
  | ldsW64 (g : BitVec 4) (c : BitVec 4) (b : SSpec) (o : BitVec 5)
  /-- STS_W32 (R328): Stores a 32-bit bank word. -/
  | stsW32 (g : BitVec 4) (c : BitVec 4) (d : SSpec) (b : SSpec) (o : BitVec 5)
  /-- STS_W64 (R328): Stores a 64-bit bank word. -/
  | stsW64 (g : BitVec 4) (c : BitVec 4) (d : SSpec) (b : SSpec) (o : BitVec 5)
  /-- AMOS (R334): Atomic read-modify-write on a bank word, returning the old value. -/
  | amos (g : BitVec 4) (c : BitVec 4) (d : SSpec) (b : SSpec) (o : Aop)
  /-- AMOG (R334): Atomic read-modify-write on a global word at its vault. -/
  | amog (g : BitVec 4) (c : BitVec 4) (d : SSpec) (b : SSpec) (o : Aop)
  /-- WAITW (R103): Holds the domain until a bank word meets EQ or GEU. -/
  | waitw (g : BitVec 4) (c : BitVec 4) (d : SSpec) (b : SSpec) (e : WaitCond)
  /-- WAITG (R336): Holds the domain until a global or host word meets EQ or GEU. -/
  | waitg (g : BitVec 4) (c : BitVec 4) (d : SSpec) (b : SSpec) (e : WaitCond)
  /-- LDG_W64 (R328): Loads a 64-bit global or host word into the SQ queue. -/
  | ldgW64 (g : BitVec 4) (c : BitVec 4) (b : SSpec) (o : BitVec 5)
  /-- STG_W64 (R328): Stores a 64-bit global or host word. -/
  | stgW64 (g : BitVec 4) (c : BitVec 4) (d : SSpec) (b : SSpec) (o : BitVec 5)
  /-- LDG_V (R328): Loads 128 raw global or host bytes into the LS queue. -/
  | ldgV (g : BitVec 4) (c : BitVec 4) (b : SSpec) (o : BitVec 5)
  /-- STG_V (R328): Stores 128 raw bytes to global or host space. -/
  | stgV (g : BitVec 4) (c : BitVec 4) (d : VSpec) (b : SSpec) (o : BitVec 5)
  /-- LDG_D (R330): Loads 32 global elements decoded by the page format. -/
  | ldgD (g : BitVec 4) (c : BitVec 4) (b : SSpec) (o : BitVec 5)
  /-- LDA (R337): Reads one accumulator half-row word set into the LS queue, interlocked against ME records. -/
  | lda (g : BitVec 4) (c : BitVec 4) (b : SSpec) (w : AccWord) (h : Bool)
  /-- STA (R337): Writes one accumulator half-row of sums with zero errors. -/
  | sta (g : BitVec 4) (c : BitVec 4) (d : VSpec) (b : SSpec) (h : Bool)
  /-- LAUNCH_POST (R362): A 128-byte packet posted to the launch port is accepted into the stream or dropped. -/
  | launchPost (port : Nat) (master : Nat) (offset : Nat) (data : List (BitVec 8))
  /-- WARM_RESET (R439): Writing RESETC.WARM reruns the boot stages. -/
  | warmReset (master : Nat) (stages : BootInputs)
  /-- RECOVERY_LOAD (R437): In RECOVERY, writing RESETC.LOAD verifies the aperture image and writes it to flash. -/
  | recoveryLoad (master : Nat)
  /-- FLIT_RECEIVE (R396): A router receives a flit and forwards it by its route or drops a reserved header. -/
  | flitReceive (die node : Nat) (port : Port) (header : BitVec 128) (payload : List (BitVec 8))
  /-- MMA (R349): Engine runs a scaled matrix multiply-accumulate under a summation shape. -/
  | mma
  /-- MMS (R350): Engine runs an INT8 by ternary sign-select accumulate. -/
  | mms
  /-- MZERO (R351): Engine zeroes an accumulator tile. -/
  | mzero
  /-- ACOPY (R352): Engine converts accumulator words into bank elements through a layout and tags the bank. -/
  | acopy
  /-- MLOAD (R353): Engine loads raw bank words into accumulator words. -/
  | mload
  /-- GATHER (R355): Engine expands a CSR sparse matrix into the B-store slices. -/
  | gather
  /-- COPY (R356): Engine copies rows between spaces and sets the destination tag. -/
  | copy
  /-- FILL (R357): Engine fills a range with an 8-byte pattern. -/
  | fill
  /-- COPYB (R358): Engine loads source rows into B-store slices with their tags. -/
  | copyb
  /-- AG (R403): Chorus all-gather joins a collective on its group. -/
  | ag
  /-- RS (R404): Chorus reduce-scatter joins a collective reduced in member order. -/
  | rs
  /-- A2A (R403): Chorus all-to-all joins a collective. -/
  | a2a
  /-- BAR (R403): Chorus barrier joins a collective with no payload. -/
  | bar
  /-- SEND (R403): Chorus send half of a two-member transfer. -/
  | send
  /-- RECV (R403): Chorus receive half of a two-member transfer. -/
  | recv
  /-- BCAST (R403): Chorus broadcast of member 0's source. -/
  | bcast
  /-- DEFERRED_FOOTPRINT_FAULT (R158): A race found at the vault is raised at its later tick, holding until the check completes. -/
  | deferredFootprintFault
  /-- RETURN_STACK_REFILL (R216): A spill-share read returns an entry into the bottom of the stack. -/
  | returnStackRefill
  /-- HOLD_RELEASE (R221): Once every watched condition holds, the release is broadcast. -/
  | holdRelease
  /-- HOLD_LEAD_EXPIRY (R221): After L_H cycles of release lead, every tile issues the held tick. -/
  | holdLeadExpiry
  /-- COLUMN_RESULT_COMPLETION (R32): A result reaches its completion tick and enters its queue, register or slot. -/
  | columnResultCompletion
  /-- VOTE_DELIVERY (R218): At t+Lv the vote result is delivered to every member. -/
  | voteDelivery
  /-- LEAP_D_CHECK (R219): At d+Lv the agreed-decision addresses are compared over group 0. -/
  | leapDCheck
  /-- BLOCK_BOUNDARY (R204): At the end of a repetition the tile continues to the next repetition, target or fall-through. -/
  | blockBoundary
  /-- BLOCK_FETCH_DONE (R205): A fetched block's streams arrive in the loader. -/
  | blockFetchDone
  /-- DEADLINE_FAULT_TICK (R225): Reaching the tick budget with a tile not halted raises a fatal deadline fault. -/
  | deadlineFaultTick
  /-- DEADLINE_FAULT_HOLD (R225): HOLDCNT exceeding the hold budget raises a fatal deadline fault at once. -/
  | deadlineFaultHold
  /-- TASK_RETIRE (R225): The task retires once every tile halted, every record retired and every epoch is durable. -/
  | taskRetire
  /-- GIVE_ATTACH (R96): At t+32 the given bank attaches to the target window and its semaphore rises. -/
  | giveAttach
  /-- BMAP_ATTACH (R282): The zero-filled bank of a BMAP attaches to its window. -/
  | bmapAttach
  /-- BFREE_COMPLETE (R283): After the drain and frozen lines end, the freed bank returns to the pool. -/
  | bfreeComplete
  /-- RECORD_COMPLETION (R344): A record's last write is visible; it applies its arrival word, signal and marker accounting. -/
  | recordCompletion
  /-- MARKER_RETIRE (R277): A marker retires once everything ahead of it retired and writes its number into RDV. -/
  | markerRetire
  /-- SEMAPHORE_INCREMENT_APPLY (R144): An arrived increment is applied once every increment before it in signal order is applied. -/
  | semaphoreIncrementApply
  /-- SEM_CSR_WRITE (R279): A CSR write of SEMn sets, ORs or clears its count at its place in signal order. -/
  | semCsrWrite
  /-- COLLECTIVE_COMMIT (R405): When every member's destination is written, every member's arrival word and signal are applied. -/
  | collectiveCommit
  /-- COLLECTIVE_FAILURE (R407): A failed collective abandons pending deliveries and writes failure arrival words. -/
  | collectiveFailure
  /-- GLOBAL_REQUEST_TRANSLATE (R62): A global request reaches its station and is translated by TLB or queued for a walk. -/
  | globalRequestTranslate
  /-- PAGE_WALK_COMPLETE (R70): A page walk finishes its checks and installs a translation or fails with a cause. -/
  | pageWalkComplete
  /-- GLOBAL_LOAD_DATA_ARRIVAL (R326): Data of a global or host load reaches the tile or its latch. -/
  | globalLoadDataArrival
  /-- GLOBAL_STORE_PERFORMED (R151): A global or host write performs for DOMAIN at its vault or egress. -/
  | globalStorePerformed
  /-- TLBINV_GO (R72): Writing GO starts an invalidation of matching translations on the die. -/
  | tlbinvGo (die : Nat) (value : BitVec 64)
  /-- TLBINV_DONE (R72): Every station has dropped the matching entries and GO reads 0. -/
  | tlbinvDone
  /-- LEASE_BUILD_PAGE (R74): The lease build walks and checks one page, finishing RESIDENT or FAULTED. -/
  | leaseBuildPage
  /-- LEASE_RECORD_DEFERRED_WRITE (R78): A waiting lease-build record is written once the ring has room and is enabled. -/
  | leaseRecordDeferredWrite
  /-- LEASECMD_RETRY (R75): Resumes a FAULTED lease build at the failed page. -/
  | leasecmdRetry (part handle : Nat)
  /-- LEASECMD_RELEASE (R75): Releases a handle to EMPTY or ENDING and refuses waiting launches. -/
  | leasecmdRelease (part handle : Nat)
  /-- FRTAIL_WRITE (R81): Writing FRTAIL frees ring slots and makes stalled engine records walk again. -/
  | frtailWrite (part : Nat) (value : BitVec 64)
  /-- EPOCH_JOURNAL (R124): The journal engine writes an epoch's line records and commits its seals. -/
  | epochJournal
  /-- EPOCH_CONFIRM (R124): Commit messages from every cluster confirm a domain epoch, making it durable. -/
  | epochConfirm
  /-- EPOCH_APPLY_DONE (R124): The line records are copied home and the seals reach STATE 2. -/
  | epochApplyDone
  /-- CPCTL_QREQ_SET (R129): Quiesce request halts every domain on the cluster. -/
  | cpctlQreqSet (cluster : Nat)
  /-- QUIESCE_ACK (R129): Once every domain is halted and engines stopped, QACK rises. -/
  | quiesceAck
  /-- CPCTL_CLKGATE_SET (R129): Starts retention capture and stops the cluster clock. -/
  | cpctlClkgateSet (cluster : Nat)
  /-- RETENTION_CAPTURE_DONE (R129): Retention capture ends and CLKOFF rises. -/
  | retentionCaptureDone
  /-- CPCTL_CLKGATE_CLEAR (R129): Withdraws the gate and restarts the clock from the retained state. -/
  | cpctlClkgateClear (cluster : Nat)
  /-- CPCTL_RAIL_OFF (R129): Switches a clock-stopped sealed cluster to OFF, entering brumation. -/
  | cpctlRailOff (cluster : Nat)
  /-- CPCTL_RAIL_SELECT (R412): Chooses VH or VL as the cluster's uncontrolled rail. -/
  | cpctlRailSelect (cluster : Nat) (vl : Bool)
  /-- RAIL_SWITCH_DONE (R410): The power multiplexer completes a rail switch. -/
  | railSwitchDone
  /-- CPWAKE (R129): Wakes a cluster in brumation when WAKEEN is set. -/
  | cpwake (cluster : Nat)
  /-- WAKE_RESTORE_DONE (R129): Retention and bank images are restored and the wake completes. -/
  | wakeRestoreDone
  /-- CPCTL_QREQ_CLEAR (R129): Releases the quiesce so each domain resumes on its halt tick. -/
  | cpctlQreqClear (cluster : Nat)
  /-- DOMAIN_HALT (R379): At the halt tick every tile of the domain stops and its frame is captured. -/
  | domainHalt
  /-- PREEMPTION_REQUEST (R390): A pre-emption request is latched by every tile on one tick. -/
  | preemptionRequest (launch : Nat)
  /-- QUANTUM_END (R375): At a quantum tick the distributor may pre-empt the domain for a higher-rank task. -/
  | quantumEnd
  /-- FATAL_TASK_END (R389): After a fatal halt and engine stop, the task ends and its completion record is written. -/
  | fatalTaskEnd
  /-- SVHALT_READ (R388): Reading SVHALT returns and removes the oldest halt notice. -/
  | svhaltRead (die : Nat)
  /-- LATHDR_OWED_CLEAR (R387): Writing 1 to OWED declares an owed latch's data complete. -/
  | lathdrOwedClear (die : Nat)
  /-- LATDATA_WRITE (R386): Writes a data word of an owed latch; ignored otherwise. -/
  | latdataWrite (die : Nat) (value : BitVec 64)
  /-- FEND (R386): Ends the halted task as fatal with the primary cause. -/
  | fend (die : Nat)
  /-- PACKET_APPLY (R367): A distributor applies a packet from the stream, checking it and queueing or refusing it. -/
  | packetApply
  /-- TASK_END_EVENT (R364): A task-end event is applied from the stream and frees its clusters. -/
  | taskEndEvent
  /-- TASK_BIND (R373): Each die binds its share of a placed task's banks, images and state. -/
  | taskBind
  /-- DOMAIN_START (R373): After every die binds, the start lead expires and every tile issues tick 0. -/
  | domainStart
  /-- SUP_LAUNCH_BIND (R377): A supervisor launch parks the firmware context and binds on the supervisor tile. -/
  | supLaunchBind
  /-- BANK_CLEAR_DONE (R373): A returned bank finishes its background clear and counts as free. -/
  | bankClearDone
  /-- MCTDAT_WRITE (R400): Writes the selected multicast entry unless its MCID is bound. -/
  | mctdatWrite (die : Nat) (value : BitVec 64)
  /-- CONTROL_INTERVAL (R412): Every 1 us the power controller sets each cluster's rail and pacing requests. -/
  | controlInterval (die : Nat) (readings : List Sensor) (overCurrent : Bool)
  /-- PCAP_WRITE (R416): A new power cap is accepted or refused below floor or guarantee. -/
  | pcapWrite (value : BitVec 64)
  /-- PFLOOR_WRITE (R416): Sets a partition floor unless it would break the cap in force. -/
  | pfloorWrite (part : Nat) (value : BitVec 64)
  /-- BOOST_WRITE (R416): Grants a cluster boost for COUNT intervals. -/
  | boostWrite (value : BitVec 64)
  /-- PWRLOG_READ (R417): Reading PWRLOG returns and removes the oldest entry. -/
  | pwrlogRead (die : Nat)
  /-- PERIODIC_SAMPLE (R420): At each multiple of PERIOD the tile writes a sample record. -/
  | periodicSample
  /-- LINK_TRAINING (R423): A Rentan link trains through electrical, negotiation and identity stages. -/
  | linkTraining (link : Nat) (result : Training)
  /-- APERTURE_ACCESS (R424): A host or peer access to the configuration window or memory aperture is checked and served. -/
  | apertureAccess (master : Nat) (access : HostAccess)
  /-- ATTEST (R438): Mailbox opcode 1 returns a hardware-signed attestation report. -/
  | attest (nonce : List (BitVec 8))
  /-- MAILBOX_FIRMWARE_COMMAND (R425): A mailbox command with a firmware opcode is taken by the supervisor. -/
  | mailboxFirmwareCommand (response : List (BitVec 8)) (rejected : Bool)
  /-- MRDAT_WRITE (R427): Writes the configuration-window register selected by MRSEL. -/
  | mrdatWrite (die : Nat) (value : BitVec 64)
  /-- COLD_RESET (R439): Power-on runs the boot stages up to supervisor ready. -/
  | coldReset (stages : BootInputs)
  /-- LINK_RETRY_TIMER (R439): With both links down, link training is retried every 100 ms. -/
  | linkRetryTimer (first second : Training)
  /-- UNPLANNED_POWER_LOSS (R5): A loss of power discards live state, leaving the shadow plane. -/
  | unplannedPowerLoss (clusters : List Nat)
  /-- REGISTER_WRITE (R11): A write to a register with no row of its own updates its writable fields. -/
  | registerWrite (master : Nat) (offset : Nat) (value : BitVec 64)
  /-- RENTAN_LINK_DOWN (R423): An up Rentan link loses its training and falls back to the down stage; the event counts in ERRS and forces retraining. -/
  | rentanLinkDown (link : Nat)
  deriving DecidableEq, Repr

end Sys2Proof
end

