-- ==== Sys2Proof/WellFormed.lean ====
section
/-!
DEFINITION. Well-formed instructions: the field rules of 10 R239-R250 that the types of Syntax do not already carry.
A word that breaks one is rejected at block validation with check code 10 (10 R253).
-/

namespace Sys2Proof

/-- The CSR map (11 R285): the numbers a CSR word may name. 0x05E and 0x05F are not in it. -/
def csrListed (c : BitVec 12) : Bool :=
  let n := c.toNat
  decide (n ≤ 0x007) || (decide (0x010 ≤ n) && decide (n ≤ 0x032)) || n == 0x040 || n == 0x041 ||
    (decide (0x050 ≤ n) && decide (n ≤ 0x05D)) || n == 0x060 || (decide (0x070 ≤ n) && decide (n ≤ 0x07A))

/-- The CSRs that only a supervisor launch may name (11 R285). -/
def csrSupervisor (c : BitVec 12) : Bool :=
  let n := c.toNat
  (decide (0x050 ≤ n) && decide (n ≤ 0x05D)) || (decide (0x070 ≤ n) && decide (n ≤ 0x07A))

/-- The field rules of each word (10 R239-R250). Records and events carry no encoding and are well-formed. -/
def Instr.wf : Instr → Bool
  | .prep _ _ _ => true
  | .prepS _ _ _ => true
  | .prepRet _ _ => true
  | .leap _ _ _ _ => true
  | .leapl _ _ _ _ => true
  | .leapD _ _ _ _ => true
  | .vote _ d w _ _ c => c.isPred || (d == 0 && !w)
  | .halt _ => true
  | .trap _ _ => true
  | .rte _ => true
  | .waitrv _ e _ => e != 0
  | .mark _ e _ => e != 0
  | .skipl _ _ => true
  | .add _ _ _ _ => true
  | .sub _ _ _ _ => true
  | .mul _ _ _ _ => true
  | .mulh _ _ _ _ => true
  | .mulhu _ _ _ _ => true
  | .div _ _ _ _ => true
  | .divu _ _ _ _ => true
  | .rem _ _ _ _ => true
  | .remu _ _ _ _ => true
  | .and _ _ _ _ => true
  | .or _ _ _ _ => true
  | .xor _ _ _ _ => true
  | .andn _ _ _ _ => true
  | .shl _ _ _ _ => true
  | .shr _ _ _ _ => true
  | .sar _ _ _ _ => true
  | .rol _ _ _ _ => true
  | .min _ _ _ _ => true
  | .max _ _ _ _ => true
  | .minu _ _ _ _ => true
  | .maxu _ _ _ _ => true
  | .sel _ _ _ _ _ => true
  | .clz _ _ _ => true
  | .ctz _ _ _ => true
  | .popc _ _ _ => true
  | .bswap _ _ _ => true
  | .addsh _ _ _ _ _ => true
  | .extu _ _ _ _ => true
  | .exts _ _ _ _ => true
  | .ins _ _ _ _ => true
  | .mov _ _ _ => true
  | .addi _ _ _ _ => true
  | .andi _ _ _ _ => true
  | .ori _ _ _ _ => true
  | .xori _ _ _ _ => true
  | .shli _ _ _ i => decide (i.toNat < 64)
  | .shri _ _ _ i => decide (i.toNat < 64)
  | .sari _ _ _ i => decide (i.toNat < 64)
  | .movi _ _ _ => true
  | .ldcp _ _ i => decide (i.toNat < 4096)
  | .cmp _ _ _ _ _ _ => true
  | .cmpi _ _ _ _ _ _ => true
  | .plog _ _ _ b o => o != .not || b == 0
  | .pclr _ m => m != 0
  | .pmovToRegister _ _ _ => true
  | .pmovToSlot _ _ _ => true
  | .mq _ _ p e s _ => e || (p == 0 && !s)
  | .gq _ _ p e s _ => e || (p == 0 && !s)
  | .cq _ _ p e s _ => e || (p == 0 && !s)
  | .hq _ _ p e s _ => e || (p == 0 && !s)
  | .semsig _ _ i => i != 0
  | .semwait _ _ _ => true
  | .give _ _ _ _ _ => true
  | .bmap _ _ _ _ _ => true
  | .bfree _ _ _ _ => true
  | .bfmt _ _ _ _ _ => true
  | .pfence _ k a _ => k != 0 && (a == .tile || a == .domain)
  | .cfenceLo _ m _ s => m != 0 && s != 0
  | .cfenceHi _ m _ s => m != 0 && s != 0
  | .csrr _ _ c => csrListed c
  | .csrw _ _ c => csrListed c
  | .csrs _ _ c => csrListed c
  | .csrc _ _ c => csrListed c
  | .seal _ _ => true
  | .slotw _ _ _ _ => true
  | .sample _ _ => true
  | .skip _ _ => true
  | .kput _ _ => true
  | .inc _ _ => true
  | .dec _ _ => true
  | .vput _ _ => true
  | .vzero _ _ => true
  | .ffma _ _ _ _ c w => !w || c.isNamed
  | .ffms _ _ _ _ c w => !w || c.isNamed
  | .fnfma _ _ _ _ c w => !w || c.isNamed
  | .fnfms _ _ _ _ c w => !w || c.isNamed
  | .dfma _ _ _ _ c w => !w || c.isNamed
  | .dfms _ _ _ _ c w => !w || c.isNamed
  | .imad _ _ _ c w => !w || c.isNamed
  | .vxSel _ _ _ c w => !w || c.isNamed
  | .fadd _ _ _ _ _ => true
  | .fsub _ _ _ _ _ => true
  | .fmul _ _ _ _ _ => true
  | .fmin _ _ _ _ => true
  | .fmax _ _ _ _ => true
  | .fminn _ _ _ _ => true
  | .fmaxn _ _ _ _ => true
  | .fcpysgn _ _ _ _ => true
  | .fceq _ _ _ _ => true
  | .fclt _ _ _ _ => true
  | .fcle _ _ _ _ => true
  | .fcun _ _ _ _ => true
  | .fabs _ _ _ => true
  | .fneg _ _ _ => true
  | .frint _ _ _ _ => true
  | .fscalb _ _ _ _ _ => true
  | .dadd _ _ _ _ _ => true
  | .dsub _ _ _ _ _ => true
  | .dmul _ _ _ _ _ => true
  | .dmin _ _ _ _ => true
  | .dmax _ _ _ _ => true
  | .dceq _ _ _ _ => true
  | .dclt _ _ _ _ => true
  | .dcle _ _ _ _ => true
  | .dabs _ _ _ => true
  | .dneg _ _ _ => true
  | .drint _ _ _ _ => true
  | .dcun _ _ _ _ => true
  | .iadd _ _ _ _ => true
  | .isub _ _ _ _ => true
  | .imul _ _ _ _ => true
  | .imulh _ _ _ _ => true
  | .imulhu _ _ _ _ => true
  | .imin _ _ _ _ => true
  | .imax _ _ _ _ => true
  | .iminu _ _ _ _ => true
  | .imaxu _ _ _ _ => true
  | .iand _ _ _ _ => true
  | .ior _ _ _ _ => true
  | .ixor _ _ _ _ => true
  | .iandn _ _ _ _ => true
  | .ishl _ _ _ _ => true
  | .ishr _ _ _ _ => true
  | .isar _ _ _ _ => true
  | .iceq _ _ _ _ => true
  | .iclt _ _ _ _ => true
  | .icltu _ _ _ _ => true
  | .iadds _ _ _ _ => true
  | .isubs _ _ _ _ => true
  | .iabs _ _ _ => true
  | .cvtF32I32 _ _ _ _ => true
  | .cvtI32F32 _ _ _ _ => true
  | .cvtF64F32 _ _ _ => true
  | .cvtF32F64 _ _ _ _ => true
  | .cvtBf16F32 _ _ _ _ _ => true
  | .cvtF32Bf16 _ _ _ _ => true
  | .vext _ _ n => decide (n.toNat < 32)
  | .vextW64 _ _ n => decide (n.toNat < 16)
  | .vperm _ _ _ => true
  | .vrot _ _ n => decide (n.toNat < 32)
  | .vredf _ _ _ => true
  | .vredi _ _ _ => true
  | .vredd _ _ _ => true
  | .qnt8 _ _ _ _ _ _ _ => true
  | .dq8 _ _ _ _ => true
  | .cvth _ _ _ => true
  | .cvthu _ _ _ => true
  | .vclass _ _ => true
  | .exp _ _ _ => true
  | .exp2 _ _ _ => true
  | .log _ _ _ => true
  | .log2 _ _ _ => true
  | .erf _ _ _ => true
  | .erfc _ _ _ => true
  | .sqrt _ _ _ => true
  | .rsqrt _ _ _ => true
  | .rcp _ _ _ => true
  | .tanh _ _ _ => true
  | .sigm _ _ _ => true
  | .expm1 _ _ _ => true
  | .log1p _ _ _ => true
  | .divF32 _ _ _ _ => true
  | .expF64 _ _ _ => true
  | .exp2F64 _ _ _ => true
  | .logF64 _ _ _ => true
  | .log2F64 _ _ _ => true
  | .erfF64 _ _ _ => true
  | .erfcF64 _ _ _ => true
  | .sqrtF64 _ _ _ => true
  | .rsqrtF64 _ _ _ => true
  | .rcpF64 _ _ _ => true
  | .tanhF64 _ _ _ => true
  | .sigmF64 _ _ _ => true
  | .expm1F64 _ _ _ => true
  | .log1pF64 _ _ _ => true
  | .divF64 _ _ _ _ => true
  | .ldsV _ _ _ _ => true
  | .ldsD _ _ _ _ => true
  | .stsV _ _ _ _ _ => true
  | .stsE _ _ _ _ _ => true
  | .ldsG _ _ _ _ => true
  | .stsS _ _ _ _ _ => true
  | .ldsW32 _ _ _ _ => true
  | .ldsW64 _ _ _ _ => true
  | .stsW32 _ _ _ _ _ => true
  | .stsW64 _ _ _ _ _ => true
  | .amos _ _ _ _ _ => true
  | .amog _ _ _ _ _ => true
  | .waitw _ _ _ _ _ => true
  | .waitg _ _ _ _ _ => true
  | .ldgW64 _ _ _ _ => true
  | .stgW64 _ _ _ _ _ => true
  | .ldgV _ _ _ _ => true
  | .stgV _ _ _ _ _ => true
  | .ldgD _ _ _ _ => true
  | .lda _ _ _ _ _ => true
  | .sta _ _ _ _ _ => true
  | .mma => true
  | .mms => true
  | .mzero => true
  | .acopy => true
  | .mload => true
  | .gather => true
  | .copy => true
  | .fill => true
  | .copyb => true
  | .ag => true
  | .rs => true
  | .a2a => true
  | .bar => true
  | .send => true
  | .recv => true
  | .bcast => true
  | .deferredFootprintFault => true
  | .returnStackRefill => true
  | .holdRelease => true
  | .holdLeadExpiry => true
  | .columnResultCompletion => true
  | .voteDelivery => true
  | .leapDCheck => true
  | .blockBoundary => true
  | .blockFetchDone => true
  | .deadlineFaultTick => true
  | .deadlineFaultHold => true
  | .taskRetire => true
  | .giveAttach => true
  | .bmapAttach => true
  | .bfreeComplete => true
  | .recordCompletion => true
  | .markerRetire => true
  | .semaphoreIncrementApply => true
  | .semCsrWrite => true
  | .collectiveCommit => true
  | .collectiveFailure => true
  | .globalRequestTranslate => true
  | .pageWalkComplete => true
  | .globalLoadDataArrival => true
  | .globalStorePerformed => true
  | .tlbinvGo .. => true
  | .tlbinvDone => true
  | .leaseBuildPage => true
  | .leaseRecordDeferredWrite => true
  | .leasecmdRetry .. => true
  | .leasecmdRelease .. => true
  | .frtailWrite .. => true
  | .epochJournal => true
  | .epochConfirm => true
  | .epochApplyDone => true
  | .cpctlQreqSet .. => true
  | .quiesceAck => true
  | .cpctlClkgateSet .. => true
  | .retentionCaptureDone => true
  | .cpctlClkgateClear .. => true
  | .cpctlRailOff .. => true
  | .cpctlRailSelect .. => true
  | .railSwitchDone => true
  | .cpwake .. => true
  | .wakeRestoreDone => true
  | .cpctlQreqClear .. => true
  | .domainHalt => true
  | .preemptionRequest .. => true
  | .quantumEnd => true
  | .fatalTaskEnd => true
  | .svhaltRead .. => true
  | .lathdrOwedClear .. => true
  | .latdataWrite .. => true
  | .fend .. => true
  | .launchPost .. => true
  | .packetApply => true
  | .taskEndEvent => true
  | .taskBind => true
  | .domainStart => true
  | .supLaunchBind => true
  | .bankClearDone => true
  | .flitReceive .. => true
  | .mctdatWrite .. => true
  | .controlInterval .. => true
  | .pcapWrite .. => true
  | .pfloorWrite .. => true
  | .boostWrite .. => true
  | .pwrlogRead .. => true
  | .periodicSample => true
  | .linkTraining .. => true
  | .apertureAccess .. => true
  | .attest .. => true
  | .mailboxFirmwareCommand .. => true
  | .mrdatWrite .. => true
  | .coldReset .. => true
  | .warmReset .. => true
  | .recoveryLoad .. => true
  | .linkRetryTimer .. => true
  | .unplannedPowerLoss .. => true
  | .registerWrite .. => true
  | .rentanLinkDown .. => true

/-- The supervisor words (10 R243): rejected in a user launch. -/
def Instr.supervisorWord : Instr → Bool
  | .rte .. => true
  | .bmap .. => true
  | .bfree .. => true
  | .seal .. => true
  | .slotw .. => true
  | .csrr _ _ c => csrSupervisor c
  | .csrw _ _ c => csrSupervisor c
  | .csrs _ _ c => csrSupervisor c
  | .csrc _ _ c => csrSupervisor c
  | _ => false

end Sys2Proof
end

