-- ==== Sys2Proof/Decode.lean ====
section
/-!
DEFINITION. Decoding and encoding of stream words (10 R227-R250). Decoding is total: it answers an instruction or a
named reason (10 R253). A word's meaning depends on the column its stream belongs to. Records are decoded in
Machine/Push.lean.
-/

namespace Sys2Proof

/-- Why a stream does not decode (10 R253): the block loader's check code 10, or 5 for a cut long word (10 R227). -/
inductive DecodeErr where
  | reservedOpcode | reservedShort | reservedField | reservedRounding | reservedDst | unusedField | ruleBroken
  | endOfStream | cutLongWord
  deriving DecidableEq, Repr

/-- The check code of 09 R206 that a decoding error is rejected with (10 R227, R253). -/
def DecodeErr.checkCode : DecodeErr → Nat
  | .cutLongWord => 5
  | .endOfStream => 5
  | _ => 10

/-- A field `x` placed at bit `lo` of an `n`-bit word. -/
def place (n lo : Nat) {k : Nat} (x : BitVec k) : BitVec n := x.setWidth n <<< lo

/-- Bit `lo` of a word, as a truth value. -/
def bitAt {n : Nat} (w : BitVec n) (lo : Nat) : Bool := w.extractLsb' lo 1 == 1#1


/-- 10 R234: the S-spec codes. -/
def SSpec.ofBits (x : BitVec 6) : SSpec :=
  if x.extractLsb' 5 1 = 0#1 then .s (x.extractLsb' 0 5)
  else if x.extractLsb' 4 1 = 0#1 then .k (x.extractLsb' 0 4) else .c (x.extractLsb' 0 4)

def SSpec.toBits : SSpec → BitVec 6
  | .s n => place 6 0 n
  | .k n => place 6 5 1#1 ||| place 6 0 n
  | .c n => place 6 5 1#1 ||| place 6 4 1#1 ||| place 6 0 n

/-- 10 R235: the V-spec codes. -/
def VSpec.ofBits (x : BitVec 6) : VSpec :=
  if x.extractLsb' 5 1 = 0#1 then
    if x.extractLsb' 4 1 = 0#1 then .v (x.extractLsb' 0 4) else .a (x.extractLsb' 0 4)
  else if x.extractLsb' 4 1 = 0#1 then
    if x.extractLsb' 3 1 = 0#1 then .x (x.extractLsb' 0 3) else .l (x.extractLsb' 0 3)
  else if x.extractLsb' 3 1 = 0#1 then .b (x.extractLsb' 0 3) else .c (x.extractLsb' 0 3)

def VSpec.toBits : VSpec → BitVec 6
  | .v n => place 6 0 n
  | .a n => place 6 4 1#1 ||| place 6 0 n
  | .x n => place 6 5 1#1 ||| place 6 0 n
  | .l n => place 6 5 1#1 ||| place 6 3 1#1 ||| place 6 0 n
  | .b n => place 6 5 1#1 ||| place 6 4 1#1 ||| place 6 0 n
  | .c n => place 6 5 1#1 ||| place 6 4 1#1 ||| place 6 3 1#1 ||| place 6 0 n

/-- 10 R238: the SQ destination specifier. -/
def Dst.ofBits (x : BitVec 6) : Option Dst :=
  if x.extractLsb' 5 1 = 0#1 then some (.reg (x.extractLsb' 0 5))
  else if x.extractLsb' 0 5 = 0#5 then some .queue else none

def Dst.toBits : Dst → BitVec 6
  | .reg n => place 6 0 n
  | .queue => place 6 5 1#1

/-- 10 R244: FORM 01 names D, FORM 10 is queue-only with D = 0. -/
def VDst.ofBits (form : BitVec 2) (d : BitVec 4) : Option VDst :=
  if form = 1#2 then some (.reg d) else if form = 2#2 ∧ d = 0#4 then some .queue else none

def VDst.formBits : VDst → BitVec 2
  | .reg _ => 1#2
  | .queue => 2#2

def VDst.lowBits : VDst → BitVec 4
  | .reg n => n
  | .queue => 0#4

/-- The codes of VoteOp (09 R218). -/
def VoteOp.toBits : VoteOp → BitVec 4
  | .any => 0#4
  | .all => 1#4
  | .max => 2#4
  | .min => 3#4
  | .add => 4#4

def VoteOp.ofBits (x : BitVec 4) : Option VoteOp :=
  match x.toNat with
  | 0 => some .any
  | 1 => some .all
  | 2 => some .max
  | 3 => some .min
  | 4 => some .add
  | _ => none

/-- The codes of Cond (10 R242). -/
def Cond.toBits : Cond → BitVec 4
  | .eq => 0#4
  | .ne => 1#4
  | .lt => 2#4
  | .le => 3#4
  | .gt => 4#4
  | .ge => 5#4
  | .ltu => 6#4
  | .leu => 7#4
  | .gtu => 8#4
  | .geu => 9#4
  | .bitset => 10#4
  | .bitclr => 11#4
  | .always => 12#4
  | .never => 13#4

def Cond.ofBits (x : BitVec 4) : Option Cond :=
  match x.toNat with
  | 0 => some .eq
  | 1 => some .ne
  | 2 => some .lt
  | 3 => some .le
  | 4 => some .gt
  | 5 => some .ge
  | 6 => some .ltu
  | 7 => some .leu
  | 8 => some .gtu
  | 9 => some .geu
  | 10 => some .bitset
  | 11 => some .bitclr
  | 12 => some .always
  | 13 => some .never
  | _ => none

/-- The codes of LogicOp (10 R243). -/
def LogicOp.toBits : LogicOp → BitVec 3
  | .and => 0#3
  | .or => 1#3
  | .xor => 2#3
  | .andn => 3#3
  | .nand => 4#3
  | .nor => 5#3
  | .xnor => 6#3
  | .not => 7#3

def LogicOp.ofBits (x : BitVec 3) : Option LogicOp :=
  match x.toNat with
  | 0 => some .and
  | 1 => some .or
  | 2 => some .xor
  | 3 => some .andn
  | 4 => some .nand
  | 5 => some .nor
  | 6 => some .xnor
  | 7 => some .not
  | _ => none

/-- The codes of Fmt (03 R66). -/
def Fmt.toBits : Fmt → BitVec 4
  | .raw => 0#4
  | .fp32 => 1#4
  | .fp64 => 2#4
  | .bf16 => 3#4
  | .fp16 => 4#4
  | .e4m3 => 5#4
  | .e5m2 => 6#4
  | .int8 => 7#4
  | .uint8 => 8#4
  | .int32 => 9#4
  | .tern5 => 10#4

def Fmt.ofBits (x : BitVec 4) : Option Fmt :=
  match x.toNat with
  | 0 => some .raw
  | 1 => some .fp32
  | 2 => some .fp64
  | 3 => some .bf16
  | 4 => some .fp16
  | 5 => some .e4m3
  | 6 => some .e5m2
  | 7 => some .int8
  | 8 => some .uint8
  | 9 => some .int32
  | 10 => some .tern5
  | _ => none

/-- The codes of Blk (03 R66). -/
def Blk.toBits : Blk → BitVec 2
  | .none => 0#2
  | .b16 => 1#2
  | .b32 => 2#2
  | .b64 => 3#2

def Blk.ofBits (x : BitVec 2) : Option Blk :=
  match x.toNat with
  | 0 => some .none
  | 1 => some .b16
  | 2 => some .b32
  | 3 => some .b64
  | _ => none

/-- The codes of Agent (10 R242). -/
def Agent.toBits : Agent → BitVec 3
  | .tile => 0#3
  | .cluster => 1#3
  | .domain => 2#3
  | .module => 3#3
  | .system => 4#3

def Agent.ofBits (x : BitVec 3) : Option Agent :=
  match x.toNat with
  | 0 => some .tile
  | 1 => some .cluster
  | 2 => some .domain
  | 3 => some .module
  | 4 => some .system
  | _ => none

/-- The codes of RedF (10 R247). -/
def RedF.toBits : RedF → BitVec 6
  | .add => 0#6
  | .max => 1#6
  | .min => 2#6
  | .maxabs => 3#6

def RedF.ofBits (x : BitVec 6) : Option RedF :=
  match x.toNat with
  | 0 => some .add
  | 1 => some .max
  | 2 => some .min
  | 3 => some .maxabs
  | _ => none

/-- The codes of RedI (10 R247). -/
def RedI.toBits : RedI → BitVec 6
  | .add => 0#6
  | .max => 1#6
  | .min => 2#6
  | .and => 3#6
  | .or => 4#6

def RedI.ofBits (x : BitVec 6) : Option RedI :=
  match x.toNat with
  | 0 => some .add
  | 1 => some .max
  | 2 => some .min
  | 3 => some .and
  | 4 => some .or
  | _ => none

/-- The codes of RedD (10 R247). -/
def RedD.toBits : RedD → BitVec 6
  | .add => 0#6
  | .max => 1#6
  | .min => 2#6

def RedD.ofBits (x : BitVec 6) : Option RedD :=
  match x.toNat with
  | 0 => some .add
  | 1 => some .max
  | 2 => some .min
  | _ => none

/-- The codes of Aop (10 R250). -/
def Aop.toBits : Aop → BitVec 5
  | .add => 0#5
  | .sub => 1#5
  | .min => 2#5
  | .max => 3#5
  | .minu => 4#5
  | .maxu => 5#5
  | .and => 6#5
  | .or => 7#5
  | .xor => 8#5
  | .swap => 9#5
  | .cas => 10#5
  | .fadd32 => 11#5
  | .fmax32 => 12#5

def Aop.ofBits (x : BitVec 5) : Option Aop :=
  match x.toNat with
  | 0 => some .add
  | 1 => some .sub
  | 2 => some .min
  | 3 => some .max
  | 4 => some .minu
  | 5 => some .maxu
  | 6 => some .and
  | 7 => some .or
  | 8 => some .xor
  | 9 => some .swap
  | 10 => some .cas
  | 11 => some .fadd32
  | 12 => some .fmax32
  | _ => none

/-- The codes of WaitCond (10 R249). -/
def WaitCond.toBits : WaitCond → BitVec 1
  | .eq => 0#1
  | .geu => 1#1

def WaitCond.ofBits (x : BitVec 1) : Option WaitCond :=
  match x.toNat with
  | 0 => some .eq
  | 1 => some .geu
  | _ => none

/-- The codes of AccWord (13 R337). -/
def AccWord.toBits : AccWord → BitVec 2
  | .sum => 0#2
  | .err => 1#2
  | .rn => 2#2
  | .i32 => 3#2

def AccWord.ofBits (x : BitVec 2) : Option AccWord :=
  match x.toNat with
  | 0 => some .sum
  | 1 => some .err
  | 2 => some .rn
  | 3 => some .i32
  | _ => none

/-- The codes of Rm (08 R180). -/
def Rm.toBits : Rm → BitVec 3
  | .rne => 0#3
  | .rtz => 1#3
  | .rup => 2#3
  | .rdn => 3#3
  | .rna => 4#3
  | .dyn => 7#3

def Rm.ofBits (x : BitVec 3) : Option Rm :=
  match x.toNat with
  | 0 => some .rne
  | 1 => some .rtz
  | 2 => some .rup
  | 3 => some .rdn
  | 4 => some .rna
  | 7 => some .dyn
  | _ => none


/-- A stream word or its reason. -/
abbrev Decoded := Except DecodeErr Instr

/-- A field the operation does not use must hold 0 (10 R239). -/
def unused {n : Nat} (w : BitVec n) (lo k : Nat) (r : Decoded) : Decoded :=
  if w.extractLsb' lo k = 0#k then r else .error .unusedField

/-- The S-spec at bit `lo`. -/
def sAt (w : W32) (lo : Nat) : SSpec := SSpec.ofBits (w.extractLsb' lo 6)
/-- The V-spec at bit `lo`. -/
def vAt (w : W32) (lo : Nat) : VSpec := VSpec.ofBits (w.extractLsb' lo 6)

/-- Continue with a decoded field, or reject the word. -/
def need {α : Type} (o : Option α) (e : DecodeErr) (f : α → Decoded) : Decoded :=
  match o with
  | some x => f x
  | none => .error e

def needVDst (w : W32) (f : VDst → Decoded) : Decoded :=
  need (VDst.ofBits (w.extractLsb' 25 2) (w.extractLsb' 0 4)) .reservedField f

def needVoteOp (w : W32) (lo : Nat) (f : VoteOp → Decoded) : Decoded :=
  need (VoteOp.ofBits (w.extractLsb' lo 4)) .reservedField f

def needCond (w : W32) (lo : Nat) (f : Cond → Decoded) : Decoded :=
  need (Cond.ofBits (w.extractLsb' lo 4)) .reservedField f

def needLogicOp (w : W32) (lo : Nat) (f : LogicOp → Decoded) : Decoded :=
  need (LogicOp.ofBits (w.extractLsb' lo 3)) .reservedField f

def needFmt (w : W32) (lo : Nat) (f : Fmt → Decoded) : Decoded :=
  need (Fmt.ofBits (w.extractLsb' lo 4)) .reservedField f

def needBlk (w : W32) (lo : Nat) (f : Blk → Decoded) : Decoded :=
  need (Blk.ofBits (w.extractLsb' lo 2)) .reservedField f

def needAgent (w : W32) (lo : Nat) (f : Agent → Decoded) : Decoded :=
  need (Agent.ofBits (w.extractLsb' lo 3)) .reservedField f

def needRedF (w : W32) (lo : Nat) (f : RedF → Decoded) : Decoded :=
  need (RedF.ofBits (w.extractLsb' lo 6)) .reservedField f

def needRedI (w : W32) (lo : Nat) (f : RedI → Decoded) : Decoded :=
  need (RedI.ofBits (w.extractLsb' lo 6)) .reservedField f

def needRedD (w : W32) (lo : Nat) (f : RedD → Decoded) : Decoded :=
  need (RedD.ofBits (w.extractLsb' lo 6)) .reservedField f

def needAop (w : W32) (lo : Nat) (f : Aop → Decoded) : Decoded :=
  need (Aop.ofBits (w.extractLsb' lo 5)) .reservedField f

def needWaitCond (w : W32) (lo : Nat) (f : WaitCond → Decoded) : Decoded :=
  need (WaitCond.ofBits (w.extractLsb' lo 1)) .reservedField f

def needAccWord (w : W32) (lo : Nat) (f : AccWord → Decoded) : Decoded :=
  need (AccWord.ofBits (w.extractLsb' lo 2)) .reservedField f

def needRm (w : W32) (lo : Nat) (f : Rm → Decoded) : Decoded :=
  need (Rm.ofBits (w.extractLsb' lo 3)) .reservedRounding f

def needDst (w : W32) (f : Dst → Decoded) : Decoded :=
  need (Dst.ofBits (w.extractLsb' 14 6)) .reservedDst f

/-- The SQ long words (10 R241-R243). -/
def rawSq (w : W32) : Decoded :=
  match (w.extractLsb' 20 7).toNat with
  | 0 => if w.extractLsb' 16 2 = 0#2 then .ok (.prep (w.extractLsb' 27 4) (w.extractLsb' 18 2) (w.extractLsb' 0 16)) else .error .reservedField
  | 1 => if w.extractLsb' 16 2 = 1#2 then unused w 0 10 (.ok (.prepS (w.extractLsb' 27 4) (w.extractLsb' 18 2) (sAt w 10))) else .error .reservedField
  | 2 => if w.extractLsb' 16 2 = 2#2 then unused w 0 16 (.ok (.prepRet (w.extractLsb' 27 4) (w.extractLsb' 18 2))) else .error .reservedField
  | 3 =>
    if w.extractLsb' 13 1 = 0#1 ∧ w.extractLsb' 12 1 = 0#1 then unused w 0 12 (.ok (.leap (w.extractLsb' 27 4) (w.extractLsb' 18 2) (w.extractLsb' 15 3) (bitAt w 14))) else
    if w.extractLsb' 13 1 = 1#1 ∧ w.extractLsb' 12 1 = 0#1 then unused w 0 12 (.ok (.leapl (w.extractLsb' 27 4) (w.extractLsb' 18 2) (w.extractLsb' 15 3) (bitAt w 14))) else
    if w.extractLsb' 13 1 = 0#1 ∧ w.extractLsb' 12 1 = 1#1 then unused w 0 12 (.ok (.leapD (w.extractLsb' 27 4) (w.extractLsb' 18 2) (w.extractLsb' 15 3) (bitAt w 14))) else
    .error .reservedField
  | 4 => needVoteOp w 0 fun c => .ok (.vote (w.extractLsb' 27 4) (w.extractLsb' 17 3) (bitAt w 16) (sAt w 10) (sAt w 4) c)
  | 5 => unused w 0 20 (.ok (.halt (w.extractLsb' 27 4)))
  | 6 => unused w 8 12 (.ok (.trap (w.extractLsb' 27 4) (w.extractLsb' 0 8)))
  | 7 => unused w 0 20 (.ok (.rte (w.extractLsb' 27 4)))
  | 8 => .ok (.waitrv (w.extractLsb' 27 4) (w.extractLsb' 16 4) (w.extractLsb' 0 16))
  | 9 => .ok (.mark (w.extractLsb' 27 4) (w.extractLsb' 16 4) (w.extractLsb' 0 16))
  | 10 => .ok (.skipl (w.extractLsb' 27 4) (w.extractLsb' 0 20))
  | 16 => unused w 0 2 (needDst w fun d => .ok (.add (w.extractLsb' 27 4) d (sAt w 8) (sAt w 2)))
  | 17 => unused w 0 2 (needDst w fun d => .ok (.sub (w.extractLsb' 27 4) d (sAt w 8) (sAt w 2)))
  | 18 => unused w 0 2 (needDst w fun d => .ok (.mul (w.extractLsb' 27 4) d (sAt w 8) (sAt w 2)))
  | 19 => unused w 0 2 (needDst w fun d => .ok (.mulh (w.extractLsb' 27 4) d (sAt w 8) (sAt w 2)))
  | 20 => unused w 0 2 (needDst w fun d => .ok (.mulhu (w.extractLsb' 27 4) d (sAt w 8) (sAt w 2)))
  | 21 => unused w 0 2 (needDst w fun d => .ok (.div (w.extractLsb' 27 4) d (sAt w 8) (sAt w 2)))
  | 22 => unused w 0 2 (needDst w fun d => .ok (.divu (w.extractLsb' 27 4) d (sAt w 8) (sAt w 2)))
  | 23 => unused w 0 2 (needDst w fun d => .ok (.rem (w.extractLsb' 27 4) d (sAt w 8) (sAt w 2)))
  | 24 => unused w 0 2 (needDst w fun d => .ok (.remu (w.extractLsb' 27 4) d (sAt w 8) (sAt w 2)))
  | 25 => unused w 0 2 (needDst w fun d => .ok (.and (w.extractLsb' 27 4) d (sAt w 8) (sAt w 2)))
  | 26 => unused w 0 2 (needDst w fun d => .ok (.or (w.extractLsb' 27 4) d (sAt w 8) (sAt w 2)))
  | 27 => unused w 0 2 (needDst w fun d => .ok (.xor (w.extractLsb' 27 4) d (sAt w 8) (sAt w 2)))
  | 28 => unused w 0 2 (needDst w fun d => .ok (.andn (w.extractLsb' 27 4) d (sAt w 8) (sAt w 2)))
  | 29 => unused w 0 2 (needDst w fun d => .ok (.shl (w.extractLsb' 27 4) d (sAt w 8) (sAt w 2)))
  | 30 => unused w 0 2 (needDst w fun d => .ok (.shr (w.extractLsb' 27 4) d (sAt w 8) (sAt w 2)))
  | 31 => unused w 0 2 (needDst w fun d => .ok (.sar (w.extractLsb' 27 4) d (sAt w 8) (sAt w 2)))
  | 32 => unused w 0 2 (needDst w fun d => .ok (.rol (w.extractLsb' 27 4) d (sAt w 8) (sAt w 2)))
  | 33 => unused w 0 2 (needDst w fun d => .ok (.min (w.extractLsb' 27 4) d (sAt w 8) (sAt w 2)))
  | 34 => unused w 0 2 (needDst w fun d => .ok (.max (w.extractLsb' 27 4) d (sAt w 8) (sAt w 2)))
  | 35 => unused w 0 2 (needDst w fun d => .ok (.minu (w.extractLsb' 27 4) d (sAt w 8) (sAt w 2)))
  | 36 => unused w 0 2 (needDst w fun d => .ok (.maxu (w.extractLsb' 27 4) d (sAt w 8) (sAt w 2)))
  | 37 => needDst w fun d => .ok (.sel (w.extractLsb' 27 4) d (sAt w 8) (sAt w 2) (w.extractLsb' 0 2))
  | 38 => unused w 0 8 (needDst w fun d => .ok (.clz (w.extractLsb' 27 4) d (sAt w 8)))
  | 39 => unused w 0 8 (needDst w fun d => .ok (.ctz (w.extractLsb' 27 4) d (sAt w 8)))
  | 40 => unused w 0 8 (needDst w fun d => .ok (.popc (w.extractLsb' 27 4) d (sAt w 8)))
  | 41 => unused w 0 8 (needDst w fun d => .ok (.bswap (w.extractLsb' 27 4) d (sAt w 8)))
  | 42 => needDst w fun d => .ok (.addsh (w.extractLsb' 27 4) d (sAt w 8) (sAt w 2) (w.extractLsb' 0 2))
  | 43 => unused w 0 2 (needDst w fun d => .ok (.extu (w.extractLsb' 27 4) d (sAt w 8) (sAt w 2)))
  | 44 => unused w 0 2 (needDst w fun d => .ok (.exts (w.extractLsb' 27 4) d (sAt w 8) (sAt w 2)))
  | 45 => unused w 0 2 (needDst w fun d => .ok (.ins (w.extractLsb' 27 4) d (sAt w 8) (sAt w 2)))
  | 46 => unused w 0 8 (needDst w fun d => .ok (.mov (w.extractLsb' 27 4) d (sAt w 8)))
  | 48 => needDst w fun d => .ok (.addi (w.extractLsb' 27 4) d (sAt w 8) (w.extractLsb' 0 8))
  | 49 => needDst w fun d => .ok (.andi (w.extractLsb' 27 4) d (sAt w 8) (w.extractLsb' 0 8))
  | 50 => needDst w fun d => .ok (.ori (w.extractLsb' 27 4) d (sAt w 8) (w.extractLsb' 0 8))
  | 51 => needDst w fun d => .ok (.xori (w.extractLsb' 27 4) d (sAt w 8) (w.extractLsb' 0 8))
  | 52 => needDst w fun d => .ok (.shli (w.extractLsb' 27 4) d (sAt w 8) (w.extractLsb' 0 8))
  | 53 => needDst w fun d => .ok (.shri (w.extractLsb' 27 4) d (sAt w 8) (w.extractLsb' 0 8))
  | 54 => needDst w fun d => .ok (.sari (w.extractLsb' 27 4) d (sAt w 8) (w.extractLsb' 0 8))
  | 55 => needDst w fun d => .ok (.movi (w.extractLsb' 27 4) d (w.extractLsb' 0 14))
  | 56 => needDst w fun d => .ok (.ldcp (w.extractLsb' 27 4) d (w.extractLsb' 0 14))
  | 64 => needCond w 0 fun c => .ok (.cmp (w.extractLsb' 27 4) (w.extractLsb' 17 3) (bitAt w 16) (sAt w 10) (sAt w 4) c)
  | 65 => needCond w 0 fun c => .ok (.cmpi (w.extractLsb' 27 4) (w.extractLsb' 17 3) (bitAt w 16) (sAt w 10) (w.extractLsb' 4 6) c)
  | 66 => unused w 3 8 (needLogicOp w 0 fun o => .ok (.plog (w.extractLsb' 27 4) (w.extractLsb' 17 3) (w.extractLsb' 14 3) (w.extractLsb' 11 3) o))
  | 67 => unused w 8 12 (.ok (.pclr (w.extractLsb' 27 4) (w.extractLsb' 0 8)))
  | 68 =>
    if w.extractLsb' 4 1 = 0#1 then unused w 0 4 (unused w 8 6 (needDst w fun d => .ok (.pmovToRegister (w.extractLsb' 27 4) d (w.extractLsb' 5 3)))) else
    if w.extractLsb' 4 1 = 1#1 then unused w 0 4 (unused w 14 6 (.ok (.pmovToSlot (w.extractLsb' 27 4) (sAt w 8) (w.extractLsb' 5 3)))) else
    .error .reservedField
  | 72 => unused w 0 2 (unused w 18 2 (.ok (.mq (w.extractLsb' 27 4) (w.extractLsb' 8 10) (w.extractLsb' 5 3) (bitAt w 4) (bitAt w 3) (bitAt w 2))))
  | 73 => unused w 0 2 (unused w 18 2 (.ok (.gq (w.extractLsb' 27 4) (w.extractLsb' 8 10) (w.extractLsb' 5 3) (bitAt w 4) (bitAt w 3) (bitAt w 2))))
  | 74 => unused w 0 2 (unused w 18 2 (.ok (.cq (w.extractLsb' 27 4) (w.extractLsb' 8 10) (w.extractLsb' 5 3) (bitAt w 4) (bitAt w 3) (bitAt w 2))))
  | 75 => unused w 0 2 (unused w 18 2 (.ok (.hq (w.extractLsb' 27 4) (w.extractLsb' 8 10) (w.extractLsb' 5 3) (bitAt w 4) (bitAt w 3) (bitAt w 2))))
  | 76 => unused w 8 8 (.ok (.semsig (w.extractLsb' 27 4) (w.extractLsb' 16 4) (w.extractLsb' 0 8)))
  | 77 => .ok (.semwait (w.extractLsb' 27 4) (w.extractLsb' 16 4) (w.extractLsb' 0 16))
  | 80 => unused w 0 8 (.ok (.give (w.extractLsb' 27 4) (w.extractLsb' 17 3) (w.extractLsb' 15 2) (w.extractLsb' 12 3) (w.extractLsb' 8 4)))
  | 81 => unused w 0 5 (.ok (.bmap (w.extractLsb' 27 4) (w.extractLsb' 16 4) (w.extractLsb' 14 2) (w.extractLsb' 11 3) (sAt w 5)))
  | 82 => unused w 0 5 (unused w 16 4 (.ok (.bfree (w.extractLsb' 27 4) (w.extractLsb' 14 2) (w.extractLsb' 11 3) (sAt w 5))))
  | 83 => unused w 0 8 (unused w 15 2 (needFmt w 11 fun f => needBlk w 9 fun b => .ok (.bfmt (w.extractLsb' 27 4) (w.extractLsb' 17 3) f b (bitAt w 8))))
  | 84 => unused w 0 9 (needAgent w 13 fun a => .ok (.pfence (w.extractLsb' 27 4) (w.extractLsb' 16 4) a (w.extractLsb' 9 4)))
  | 85 => unused w 0 4 (needAgent w 9 fun a => .ok (.cfenceLo (w.extractLsb' 27 4) (w.extractLsb' 12 8) a (w.extractLsb' 4 5)))
  | 86 => unused w 0 4 (needAgent w 9 fun a => .ok (.cfenceHi (w.extractLsb' 27 4) (w.extractLsb' 12 8) a (w.extractLsb' 4 5)))
  | 96 => unused w 12 2 (needDst w fun d => .ok (.csrr (w.extractLsb' 27 4) d (w.extractLsb' 0 12)))
  | 97 => unused w 12 2 (.ok (.csrw (w.extractLsb' 27 4) (sAt w 14) (w.extractLsb' 0 12)))
  | 98 => unused w 12 2 (.ok (.csrs (w.extractLsb' 27 4) (sAt w 14) (w.extractLsb' 0 12)))
  | 99 => unused w 12 2 (.ok (.csrc (w.extractLsb' 27 4) (sAt w 14) (w.extractLsb' 0 12)))
  | 100 => unused w 0 10 (unused w 16 4 (.ok (.seal (w.extractLsb' 27 4) (sAt w 10))))
  | 101 => unused w 0 7 (unused w 16 4 (.ok (.slotw (w.extractLsb' 27 4) (sAt w 10) (w.extractLsb' 8 2) (bitAt w 7))))
  | 102 => unused w 8 12 (.ok (.sample (w.extractLsb' 27 4) (w.extractLsb' 0 8)))
  | _ => .error .reservedOpcode

/-- The VX TRI words (10 R245). -/
def rawTri (w : W32) : Decoded :=
  match (w.extractLsb' 22 3).toNat with
  | 0 => needRm w 19 fun r => .ok (.ffma (w.extractLsb' 27 4) r (vAt w 13) (vAt w 7) (vAt w 1) (bitAt w 0))
  | 1 => needRm w 19 fun r => .ok (.ffms (w.extractLsb' 27 4) r (vAt w 13) (vAt w 7) (vAt w 1) (bitAt w 0))
  | 2 => needRm w 19 fun r => .ok (.fnfma (w.extractLsb' 27 4) r (vAt w 13) (vAt w 7) (vAt w 1) (bitAt w 0))
  | 3 => needRm w 19 fun r => .ok (.fnfms (w.extractLsb' 27 4) r (vAt w 13) (vAt w 7) (vAt w 1) (bitAt w 0))
  | 4 => needRm w 19 fun r => .ok (.dfma (w.extractLsb' 27 4) r (vAt w 13) (vAt w 7) (vAt w 1) (bitAt w 0))
  | 5 => needRm w 19 fun r => .ok (.dfms (w.extractLsb' 27 4) r (vAt w 13) (vAt w 7) (vAt w 1) (bitAt w 0))
  | 6 => unused w 19 3 (.ok (.imad (w.extractLsb' 27 4) (vAt w 13) (vAt w 7) (vAt w 1) (bitAt w 0)))
  | 7 => unused w 19 3 (.ok (.vxSel (w.extractLsb' 27 4) (vAt w 13) (vAt w 7) (vAt w 1) (bitAt w 0)))
  | _ => .error .reservedOpcode

/-- The VX BIN words (10 R246). -/
def rawBin (w : W32) : Decoded :=
  match (w.extractLsb' 19 6).toNat with
  | 0 => needRm w 16 fun r => needVDst w fun d => .ok (.fadd (w.extractLsb' 27 4) r (vAt w 10) (vAt w 4) d)
  | 1 => needRm w 16 fun r => needVDst w fun d => .ok (.fsub (w.extractLsb' 27 4) r (vAt w 10) (vAt w 4) d)
  | 2 => needRm w 16 fun r => needVDst w fun d => .ok (.fmul (w.extractLsb' 27 4) r (vAt w 10) (vAt w 4) d)
  | 3 => unused w 16 3 (needVDst w fun d => .ok (.fmin (w.extractLsb' 27 4) (vAt w 10) (vAt w 4) d))
  | 4 => unused w 16 3 (needVDst w fun d => .ok (.fmax (w.extractLsb' 27 4) (vAt w 10) (vAt w 4) d))
  | 5 => unused w 16 3 (needVDst w fun d => .ok (.fminn (w.extractLsb' 27 4) (vAt w 10) (vAt w 4) d))
  | 6 => unused w 16 3 (needVDst w fun d => .ok (.fmaxn (w.extractLsb' 27 4) (vAt w 10) (vAt w 4) d))
  | 7 => unused w 16 3 (needVDst w fun d => .ok (.fcpysgn (w.extractLsb' 27 4) (vAt w 10) (vAt w 4) d))
  | 8 => unused w 16 3 (needVDst w fun d => .ok (.fceq (w.extractLsb' 27 4) (vAt w 10) (vAt w 4) d))
  | 9 => unused w 16 3 (needVDst w fun d => .ok (.fclt (w.extractLsb' 27 4) (vAt w 10) (vAt w 4) d))
  | 10 => unused w 16 3 (needVDst w fun d => .ok (.fcle (w.extractLsb' 27 4) (vAt w 10) (vAt w 4) d))
  | 11 => unused w 16 3 (needVDst w fun d => .ok (.fcun (w.extractLsb' 27 4) (vAt w 10) (vAt w 4) d))
  | 12 => unused w 4 6 (unused w 16 3 (needVDst w fun d => .ok (.fabs (w.extractLsb' 27 4) (vAt w 10) d)))
  | 13 => unused w 4 6 (unused w 16 3 (needVDst w fun d => .ok (.fneg (w.extractLsb' 27 4) (vAt w 10) d)))
  | 14 => unused w 4 6 (needRm w 16 fun r => needVDst w fun d => .ok (.frint (w.extractLsb' 27 4) r (vAt w 10) d))
  | 15 => needRm w 16 fun r => needVDst w fun d => .ok (.fscalb (w.extractLsb' 27 4) r (vAt w 10) (vAt w 4) d)
  | 16 => needRm w 16 fun r => needVDst w fun d => .ok (.dadd (w.extractLsb' 27 4) r (vAt w 10) (vAt w 4) d)
  | 17 => needRm w 16 fun r => needVDst w fun d => .ok (.dsub (w.extractLsb' 27 4) r (vAt w 10) (vAt w 4) d)
  | 18 => needRm w 16 fun r => needVDst w fun d => .ok (.dmul (w.extractLsb' 27 4) r (vAt w 10) (vAt w 4) d)
  | 19 => unused w 16 3 (needVDst w fun d => .ok (.dmin (w.extractLsb' 27 4) (vAt w 10) (vAt w 4) d))
  | 20 => unused w 16 3 (needVDst w fun d => .ok (.dmax (w.extractLsb' 27 4) (vAt w 10) (vAt w 4) d))
  | 21 => unused w 16 3 (needVDst w fun d => .ok (.dceq (w.extractLsb' 27 4) (vAt w 10) (vAt w 4) d))
  | 22 => unused w 16 3 (needVDst w fun d => .ok (.dclt (w.extractLsb' 27 4) (vAt w 10) (vAt w 4) d))
  | 23 => unused w 16 3 (needVDst w fun d => .ok (.dcle (w.extractLsb' 27 4) (vAt w 10) (vAt w 4) d))
  | 24 => unused w 4 6 (unused w 16 3 (needVDst w fun d => .ok (.dabs (w.extractLsb' 27 4) (vAt w 10) d)))
  | 25 => unused w 4 6 (unused w 16 3 (needVDst w fun d => .ok (.dneg (w.extractLsb' 27 4) (vAt w 10) d)))
  | 26 => unused w 4 6 (needRm w 16 fun r => needVDst w fun d => .ok (.drint (w.extractLsb' 27 4) r (vAt w 10) d))
  | 27 => unused w 16 3 (needVDst w fun d => .ok (.dcun (w.extractLsb' 27 4) (vAt w 10) (vAt w 4) d))
  | 32 => unused w 16 3 (needVDst w fun d => .ok (.iadd (w.extractLsb' 27 4) (vAt w 10) (vAt w 4) d))
  | 33 => unused w 16 3 (needVDst w fun d => .ok (.isub (w.extractLsb' 27 4) (vAt w 10) (vAt w 4) d))
  | 34 => unused w 16 3 (needVDst w fun d => .ok (.imul (w.extractLsb' 27 4) (vAt w 10) (vAt w 4) d))
  | 35 => unused w 16 3 (needVDst w fun d => .ok (.imulh (w.extractLsb' 27 4) (vAt w 10) (vAt w 4) d))
  | 36 => unused w 16 3 (needVDst w fun d => .ok (.imulhu (w.extractLsb' 27 4) (vAt w 10) (vAt w 4) d))
  | 37 => unused w 16 3 (needVDst w fun d => .ok (.imin (w.extractLsb' 27 4) (vAt w 10) (vAt w 4) d))
  | 38 => unused w 16 3 (needVDst w fun d => .ok (.imax (w.extractLsb' 27 4) (vAt w 10) (vAt w 4) d))
  | 39 => unused w 16 3 (needVDst w fun d => .ok (.iminu (w.extractLsb' 27 4) (vAt w 10) (vAt w 4) d))
  | 40 => unused w 16 3 (needVDst w fun d => .ok (.imaxu (w.extractLsb' 27 4) (vAt w 10) (vAt w 4) d))
  | 41 => unused w 16 3 (needVDst w fun d => .ok (.iand (w.extractLsb' 27 4) (vAt w 10) (vAt w 4) d))
  | 42 => unused w 16 3 (needVDst w fun d => .ok (.ior (w.extractLsb' 27 4) (vAt w 10) (vAt w 4) d))
  | 43 => unused w 16 3 (needVDst w fun d => .ok (.ixor (w.extractLsb' 27 4) (vAt w 10) (vAt w 4) d))
  | 44 => unused w 16 3 (needVDst w fun d => .ok (.iandn (w.extractLsb' 27 4) (vAt w 10) (vAt w 4) d))
  | 45 => unused w 16 3 (needVDst w fun d => .ok (.ishl (w.extractLsb' 27 4) (vAt w 10) (vAt w 4) d))
  | 46 => unused w 16 3 (needVDst w fun d => .ok (.ishr (w.extractLsb' 27 4) (vAt w 10) (vAt w 4) d))
  | 47 => unused w 16 3 (needVDst w fun d => .ok (.isar (w.extractLsb' 27 4) (vAt w 10) (vAt w 4) d))
  | 48 => unused w 16 3 (needVDst w fun d => .ok (.iceq (w.extractLsb' 27 4) (vAt w 10) (vAt w 4) d))
  | 49 => unused w 16 3 (needVDst w fun d => .ok (.iclt (w.extractLsb' 27 4) (vAt w 10) (vAt w 4) d))
  | 50 => unused w 16 3 (needVDst w fun d => .ok (.icltu (w.extractLsb' 27 4) (vAt w 10) (vAt w 4) d))
  | 51 => unused w 16 3 (needVDst w fun d => .ok (.iadds (w.extractLsb' 27 4) (vAt w 10) (vAt w 4) d))
  | 52 => unused w 16 3 (needVDst w fun d => .ok (.isubs (w.extractLsb' 27 4) (vAt w 10) (vAt w 4) d))
  | 53 => unused w 4 6 (unused w 16 3 (needVDst w fun d => .ok (.iabs (w.extractLsb' 27 4) (vAt w 10) d)))
  | 56 => unused w 4 6 (needRm w 16 fun r => needVDst w fun d => .ok (.cvtF32I32 (w.extractLsb' 27 4) r (vAt w 10) d))
  | 57 => unused w 4 6 (needRm w 16 fun r => needVDst w fun d => .ok (.cvtI32F32 (w.extractLsb' 27 4) r (vAt w 10) d))
  | 58 => unused w 4 6 (unused w 16 3 (needVDst w fun d => .ok (.cvtF64F32 (w.extractLsb' 27 4) (vAt w 10) d)))
  | 59 => unused w 4 6 (needRm w 16 fun r => needVDst w fun d => .ok (.cvtF32F64 (w.extractLsb' 27 4) r (vAt w 10) d))
  | 60 => needRm w 16 fun r => needVDst w fun d => .ok (.cvtBf16F32 (w.extractLsb' 27 4) r (vAt w 10) (vAt w 4) d)
  | 61 => unused w 5 5 (unused w 16 3 (needVDst w fun d => .ok (.cvtF32Bf16 (w.extractLsb' 27 4) (vAt w 10) (bitAt w 4) d)))
  | _ => .error .reservedOpcode

/-- The VX MISC words (10 R247). -/
def rawMisc (w : W32) : Decoded :=
  if w.extractLsb' 23 2 = 1#2 then unused w 0 1 (.ok (.qnt8 (w.extractLsb' 27 4) (w.extractLsb' 21 2) (bitAt w 20) (bitAt w 19) (vAt w 13) (vAt w 7) (vAt w 1)))
  else if w.extractLsb' 22 3 = 4#3 then unused w 0 13 (.ok (.dq8 (w.extractLsb' 27 4) (bitAt w 21) (w.extractLsb' 19 2) (vAt w 13)))
  else match (w.extractLsb' 19 6).toNat with
  | 1 =>
    if w.extractLsb' 0 1 = 0#1 then unused w 7 6 (.ok (.vext (w.extractLsb' 27 4) (vAt w 13) (w.extractLsb' 1 6))) else
    if w.extractLsb' 0 1 = 1#1 then unused w 7 6 (.ok (.vextW64 (w.extractLsb' 27 4) (vAt w 13) (w.extractLsb' 1 6))) else
    .error .reservedField
  | 2 => unused w 0 7 (.ok (.vperm (w.extractLsb' 27 4) (vAt w 13) (vAt w 7)))
  | 3 => unused w 0 1 (unused w 7 6 (.ok (.vrot (w.extractLsb' 27 4) (vAt w 13) (w.extractLsb' 1 6))))
  | 4 => unused w 0 1 (unused w 7 6 (needRedF w 1 fun o => .ok (.vredf (w.extractLsb' 27 4) (vAt w 13) o)))
  | 5 => unused w 0 1 (unused w 7 6 (needRedI w 1 fun o => .ok (.vredi (w.extractLsb' 27 4) (vAt w 13) o)))
  | 6 => unused w 0 1 (unused w 7 6 (needRedD w 1 fun o => .ok (.vredd (w.extractLsb' 27 4) (vAt w 13) o)))
  | 40 => unused w 0 7 (.ok (.cvth (w.extractLsb' 27 4) (vAt w 13) (vAt w 7)))
  | 41 => unused w 0 7 (unused w 8 5 (.ok (.cvthu (w.extractLsb' 27 4) (vAt w 13) (bitAt w 7))))
  | 42 => unused w 0 13 (.ok (.vclass (w.extractLsb' 27 4) (vAt w 13)))
  | _ => .error .reservedOpcode

/-- The VX long words by FORM (10 R244). -/
def rawVx (w : W32) : Decoded :=
  if w.extractLsb' 25 2 = 0#2 then rawTri w
  else if w.extractLsb' 25 2 = 3#2 then rawMisc w
  else rawBin w

/-- The XC long words (10 R248). -/
def rawXc (w : W32) : Decoded :=
  match (w.extractLsb' 21 6).toNat with
  | 0 => unused w 0 12 (needRm w 18 fun r => .ok (.exp (w.extractLsb' 27 4) r (vAt w 12)))
  | 1 => unused w 0 12 (needRm w 18 fun r => .ok (.exp2 (w.extractLsb' 27 4) r (vAt w 12)))
  | 2 => unused w 0 12 (needRm w 18 fun r => .ok (.log (w.extractLsb' 27 4) r (vAt w 12)))
  | 3 => unused w 0 12 (needRm w 18 fun r => .ok (.log2 (w.extractLsb' 27 4) r (vAt w 12)))
  | 4 => unused w 0 12 (needRm w 18 fun r => .ok (.erf (w.extractLsb' 27 4) r (vAt w 12)))
  | 5 => unused w 0 12 (needRm w 18 fun r => .ok (.erfc (w.extractLsb' 27 4) r (vAt w 12)))
  | 6 => unused w 0 12 (needRm w 18 fun r => .ok (.sqrt (w.extractLsb' 27 4) r (vAt w 12)))
  | 7 => unused w 0 12 (needRm w 18 fun r => .ok (.rsqrt (w.extractLsb' 27 4) r (vAt w 12)))
  | 8 => unused w 0 12 (needRm w 18 fun r => .ok (.rcp (w.extractLsb' 27 4) r (vAt w 12)))
  | 9 => unused w 0 12 (needRm w 18 fun r => .ok (.tanh (w.extractLsb' 27 4) r (vAt w 12)))
  | 10 => unused w 0 12 (needRm w 18 fun r => .ok (.sigm (w.extractLsb' 27 4) r (vAt w 12)))
  | 11 => unused w 0 12 (needRm w 18 fun r => .ok (.expm1 (w.extractLsb' 27 4) r (vAt w 12)))
  | 12 => unused w 0 12 (needRm w 18 fun r => .ok (.log1p (w.extractLsb' 27 4) r (vAt w 12)))
  | 15 => unused w 0 6 (needRm w 18 fun r => .ok (.divF32 (w.extractLsb' 27 4) r (vAt w 12) (vAt w 6)))
  | 16 => unused w 0 12 (needRm w 18 fun r => .ok (.expF64 (w.extractLsb' 27 4) r (vAt w 12)))
  | 17 => unused w 0 12 (needRm w 18 fun r => .ok (.exp2F64 (w.extractLsb' 27 4) r (vAt w 12)))
  | 18 => unused w 0 12 (needRm w 18 fun r => .ok (.logF64 (w.extractLsb' 27 4) r (vAt w 12)))
  | 19 => unused w 0 12 (needRm w 18 fun r => .ok (.log2F64 (w.extractLsb' 27 4) r (vAt w 12)))
  | 20 => unused w 0 12 (needRm w 18 fun r => .ok (.erfF64 (w.extractLsb' 27 4) r (vAt w 12)))
  | 21 => unused w 0 12 (needRm w 18 fun r => .ok (.erfcF64 (w.extractLsb' 27 4) r (vAt w 12)))
  | 22 => unused w 0 12 (needRm w 18 fun r => .ok (.sqrtF64 (w.extractLsb' 27 4) r (vAt w 12)))
  | 23 => unused w 0 12 (needRm w 18 fun r => .ok (.rsqrtF64 (w.extractLsb' 27 4) r (vAt w 12)))
  | 24 => unused w 0 12 (needRm w 18 fun r => .ok (.rcpF64 (w.extractLsb' 27 4) r (vAt w 12)))
  | 25 => unused w 0 12 (needRm w 18 fun r => .ok (.tanhF64 (w.extractLsb' 27 4) r (vAt w 12)))
  | 26 => unused w 0 12 (needRm w 18 fun r => .ok (.sigmF64 (w.extractLsb' 27 4) r (vAt w 12)))
  | 27 => unused w 0 12 (needRm w 18 fun r => .ok (.expm1F64 (w.extractLsb' 27 4) r (vAt w 12)))
  | 28 => unused w 0 12 (needRm w 18 fun r => .ok (.log1pF64 (w.extractLsb' 27 4) r (vAt w 12)))
  | 31 => unused w 0 6 (needRm w 18 fun r => .ok (.divF64 (w.extractLsb' 27 4) r (vAt w 12) (vAt w 6)))
  | _ => .error .reservedOpcode

/-- The LS long words (10 R249). -/
def rawLs (w : W32) : Decoded :=
  match (w.extractLsb' 21 6).toNat with
  | 0 => unused w 11 6 (.ok (.ldsV (w.extractLsb' 27 4) (w.extractLsb' 17 4) (sAt w 5) (w.extractLsb' 0 5)))
  | 1 => unused w 11 6 (.ok (.ldsD (w.extractLsb' 27 4) (w.extractLsb' 17 4) (sAt w 5) (w.extractLsb' 0 5)))
  | 2 => .ok (.stsV (w.extractLsb' 27 4) (w.extractLsb' 17 4) (vAt w 11) (sAt w 5) (w.extractLsb' 0 5))
  | 3 => .ok (.stsE (w.extractLsb' 27 4) (w.extractLsb' 17 4) (vAt w 11) (sAt w 5) (w.extractLsb' 0 5))
  | 4 => unused w 0 5 (.ok (.ldsG (w.extractLsb' 27 4) (w.extractLsb' 17 4) (vAt w 11) (sAt w 5)))
  | 5 => unused w 4 1 (.ok (.stsS (w.extractLsb' 27 4) (w.extractLsb' 17 4) (vAt w 11) (sAt w 5) (w.extractLsb' 0 4)))
  | 8 => unused w 11 6 (.ok (.ldsW32 (w.extractLsb' 27 4) (w.extractLsb' 17 4) (sAt w 5) (w.extractLsb' 0 5)))
  | 9 => unused w 11 6 (.ok (.ldsW64 (w.extractLsb' 27 4) (w.extractLsb' 17 4) (sAt w 5) (w.extractLsb' 0 5)))
  | 10 => .ok (.stsW32 (w.extractLsb' 27 4) (w.extractLsb' 17 4) (sAt w 11) (sAt w 5) (w.extractLsb' 0 5))
  | 11 => .ok (.stsW64 (w.extractLsb' 27 4) (w.extractLsb' 17 4) (sAt w 11) (sAt w 5) (w.extractLsb' 0 5))
  | 16 => needAop w 0 fun o => .ok (.amos (w.extractLsb' 27 4) (w.extractLsb' 17 4) (sAt w 11) (sAt w 5) o)
  | 17 => needAop w 0 fun o => .ok (.amog (w.extractLsb' 27 4) (w.extractLsb' 17 4) (sAt w 11) (sAt w 5) o)
  | 18 => unused w 1 4 (needWaitCond w 0 fun e => .ok (.waitw (w.extractLsb' 27 4) (w.extractLsb' 17 4) (sAt w 11) (sAt w 5) e))
  | 19 => unused w 1 4 (needWaitCond w 0 fun e => .ok (.waitg (w.extractLsb' 27 4) (w.extractLsb' 17 4) (sAt w 11) (sAt w 5) e))
  | 24 => unused w 11 6 (.ok (.ldgW64 (w.extractLsb' 27 4) (w.extractLsb' 17 4) (sAt w 5) (w.extractLsb' 0 5)))
  | 25 => .ok (.stgW64 (w.extractLsb' 27 4) (w.extractLsb' 17 4) (sAt w 11) (sAt w 5) (w.extractLsb' 0 5))
  | 26 => unused w 11 6 (.ok (.ldgV (w.extractLsb' 27 4) (w.extractLsb' 17 4) (sAt w 5) (w.extractLsb' 0 5)))
  | 27 => .ok (.stgV (w.extractLsb' 27 4) (w.extractLsb' 17 4) (vAt w 11) (sAt w 5) (w.extractLsb' 0 5))
  | 28 => unused w 11 6 (.ok (.ldgD (w.extractLsb' 27 4) (w.extractLsb' 17 4) (sAt w 5) (w.extractLsb' 0 5)))
  | 32 => unused w 3 2 (unused w 11 6 (needAccWord w 1 fun aw => .ok (.lda (w.extractLsb' 27 4) (w.extractLsb' 17 4) (sAt w 5) aw (bitAt w 0))))
  | 33 => unused w 1 4 (.ok (.sta (w.extractLsb' 27 4) (w.extractLsb' 17 4) (vAt w 11) (sAt w 5) (bitAt w 0)))
  | _ => .error .reservedOpcode

/-- The rules that the fields keep among themselves (10 R243, R245). -/
def checked (r : Decoded) : Decoded :=
  match r with
  | .ok i => if i.wf then .ok i else .error .ruleBroken
  | .error e => .error e

/-- A long word in a column. -/
def decodeLong (c : Column) (w : W32) : Decoded :=
  checked (match c with
    | .sq => rawSq w
    | .vx => rawVx w
    | .xc => rawXc w
    | .ls => rawLs w)

/-- The short words (10 R240). -/
def decodeShort (c : Column) (h : Half) : Decoded :=
  match (h.extractLsb' 6 6).toNat, c with
  | 0, _ => .ok (.skip (h.extractLsb' 12 3) (h.extractLsb' 0 6))
  | 1, .sq => unused h 5 1 (.ok (.kput (h.extractLsb' 12 3) (h.extractLsb' 0 5)))
  | 2, .sq => unused h 5 1 (.ok (.inc (h.extractLsb' 12 3) (h.extractLsb' 0 5)))
  | 3, .sq => unused h 5 1 (.ok (.dec (h.extractLsb' 12 3) (h.extractLsb' 0 5)))
  | 1, .vx => unused h 4 2 (.ok (.vput (h.extractLsb' 12 3) (h.extractLsb' 0 4)))
  | 2, .vx => unused h 4 2 (.ok (.vzero (h.extractLsb' 12 3) (h.extractLsb' 0 4)))
  | _, _ => .error .reservedShort

/-- The next word of a column's stream and the rest of the stream (10 R227). -/
def decodeWord (c : Column) : List Half → Except DecodeErr (Instr × List Half)
  | [] => .error .endOfStream
  | h :: rest =>
    if h.extractLsb' 15 1 = 0#1 then
      match decodeShort c h with
      | .ok i => .ok (i, rest)
      | .error e => .error e
    else
      match rest with
      | [] => .error .cutLongWord
      | l :: rest' =>
        match decodeLong c (place 32 16 h ||| place 32 0 l) with
        | .ok i => .ok (i, rest')
        | .error e => .error e

/-- The long word of an instruction (10 R241-R250); 0 where it is not a long word. -/
def encodeLong : Instr → W32
  | .prep g t o =>
    place 32 31 1#1 ||| place 32 27 g ||| place 32 18 t ||| place 32 0 o
  | .prepS g t s =>
    place 32 31 1#1 ||| place 32 27 g ||| place 32 18 t ||| place 32 10 s.toBits ||| place 32 20 1#7 ||| place 32 16 1#2
  | .prepRet g t =>
    place 32 31 1#1 ||| place 32 27 g ||| place 32 18 t ||| place 32 20 2#7 ||| place 32 16 2#2
  | .leap g t p s =>
    place 32 31 1#1 ||| place 32 27 g ||| place 32 18 t ||| place 32 15 p ||| place 32 14 (BitVec.ofBool s) ||| place 32 20 3#7
  | .leapl g t p s =>
    place 32 31 1#1 ||| place 32 27 g ||| place 32 18 t ||| place 32 15 p ||| place 32 14 (BitVec.ofBool s) ||| place 32 20 3#7 ||| place 32 13 1#1
  | .leapD g t p s =>
    place 32 31 1#1 ||| place 32 27 g ||| place 32 18 t ||| place 32 15 p ||| place 32 14 (BitVec.ofBool s) ||| place 32 20 3#7 ||| place 32 12 1#1
  | .vote g d w a b c =>
    place 32 31 1#1 ||| place 32 27 g ||| place 32 17 d ||| place 32 16 (BitVec.ofBool w) ||| place 32 10 a.toBits ||| place 32 4 b.toBits ||| place 32 0 c.toBits ||| place 32 20 4#7
  | .halt g =>
    place 32 31 1#1 ||| place 32 27 g ||| place 32 20 5#7
  | .trap g i =>
    place 32 31 1#1 ||| place 32 27 g ||| place 32 0 i ||| place 32 20 6#7
  | .rte g =>
    place 32 31 1#1 ||| place 32 27 g ||| place 32 20 7#7
  | .waitrv g e n =>
    place 32 31 1#1 ||| place 32 27 g ||| place 32 16 e ||| place 32 0 n ||| place 32 20 8#7
  | .mark g e n =>
    place 32 31 1#1 ||| place 32 27 g ||| place 32 16 e ||| place 32 0 n ||| place 32 20 9#7
  | .skipl g n =>
    place 32 31 1#1 ||| place 32 27 g ||| place 32 0 n ||| place 32 20 10#7
  | .add g d a b =>
    place 32 31 1#1 ||| place 32 27 g ||| place 32 14 d.toBits ||| place 32 8 a.toBits ||| place 32 2 b.toBits ||| place 32 20 16#7
  | .sub g d a b =>
    place 32 31 1#1 ||| place 32 27 g ||| place 32 14 d.toBits ||| place 32 8 a.toBits ||| place 32 2 b.toBits ||| place 32 20 17#7
  | .mul g d a b =>
    place 32 31 1#1 ||| place 32 27 g ||| place 32 14 d.toBits ||| place 32 8 a.toBits ||| place 32 2 b.toBits ||| place 32 20 18#7
  | .mulh g d a b =>
    place 32 31 1#1 ||| place 32 27 g ||| place 32 14 d.toBits ||| place 32 8 a.toBits ||| place 32 2 b.toBits ||| place 32 20 19#7
  | .mulhu g d a b =>
    place 32 31 1#1 ||| place 32 27 g ||| place 32 14 d.toBits ||| place 32 8 a.toBits ||| place 32 2 b.toBits ||| place 32 20 20#7
  | .div g d a b =>
    place 32 31 1#1 ||| place 32 27 g ||| place 32 14 d.toBits ||| place 32 8 a.toBits ||| place 32 2 b.toBits ||| place 32 20 21#7
  | .divu g d a b =>
    place 32 31 1#1 ||| place 32 27 g ||| place 32 14 d.toBits ||| place 32 8 a.toBits ||| place 32 2 b.toBits ||| place 32 20 22#7
  | .rem g d a b =>
    place 32 31 1#1 ||| place 32 27 g ||| place 32 14 d.toBits ||| place 32 8 a.toBits ||| place 32 2 b.toBits ||| place 32 20 23#7
  | .remu g d a b =>
    place 32 31 1#1 ||| place 32 27 g ||| place 32 14 d.toBits ||| place 32 8 a.toBits ||| place 32 2 b.toBits ||| place 32 20 24#7
  | .and g d a b =>
    place 32 31 1#1 ||| place 32 27 g ||| place 32 14 d.toBits ||| place 32 8 a.toBits ||| place 32 2 b.toBits ||| place 32 20 25#7
  | .or g d a b =>
    place 32 31 1#1 ||| place 32 27 g ||| place 32 14 d.toBits ||| place 32 8 a.toBits ||| place 32 2 b.toBits ||| place 32 20 26#7
  | .xor g d a b =>
    place 32 31 1#1 ||| place 32 27 g ||| place 32 14 d.toBits ||| place 32 8 a.toBits ||| place 32 2 b.toBits ||| place 32 20 27#7
  | .andn g d a b =>
    place 32 31 1#1 ||| place 32 27 g ||| place 32 14 d.toBits ||| place 32 8 a.toBits ||| place 32 2 b.toBits ||| place 32 20 28#7
  | .shl g d a b =>
    place 32 31 1#1 ||| place 32 27 g ||| place 32 14 d.toBits ||| place 32 8 a.toBits ||| place 32 2 b.toBits ||| place 32 20 29#7
  | .shr g d a b =>
    place 32 31 1#1 ||| place 32 27 g ||| place 32 14 d.toBits ||| place 32 8 a.toBits ||| place 32 2 b.toBits ||| place 32 20 30#7
  | .sar g d a b =>
    place 32 31 1#1 ||| place 32 27 g ||| place 32 14 d.toBits ||| place 32 8 a.toBits ||| place 32 2 b.toBits ||| place 32 20 31#7
  | .rol g d a b =>
    place 32 31 1#1 ||| place 32 27 g ||| place 32 14 d.toBits ||| place 32 8 a.toBits ||| place 32 2 b.toBits ||| place 32 20 32#7
  | .min g d a b =>
    place 32 31 1#1 ||| place 32 27 g ||| place 32 14 d.toBits ||| place 32 8 a.toBits ||| place 32 2 b.toBits ||| place 32 20 33#7
  | .max g d a b =>
    place 32 31 1#1 ||| place 32 27 g ||| place 32 14 d.toBits ||| place 32 8 a.toBits ||| place 32 2 b.toBits ||| place 32 20 34#7
  | .minu g d a b =>
    place 32 31 1#1 ||| place 32 27 g ||| place 32 14 d.toBits ||| place 32 8 a.toBits ||| place 32 2 b.toBits ||| place 32 20 35#7
  | .maxu g d a b =>
    place 32 31 1#1 ||| place 32 27 g ||| place 32 14 d.toBits ||| place 32 8 a.toBits ||| place 32 2 b.toBits ||| place 32 20 36#7
  | .sel g d a b p =>
    place 32 31 1#1 ||| place 32 27 g ||| place 32 14 d.toBits ||| place 32 8 a.toBits ||| place 32 2 b.toBits ||| place 32 0 p ||| place 32 20 37#7
  | .clz g d a =>
    place 32 31 1#1 ||| place 32 27 g ||| place 32 14 d.toBits ||| place 32 8 a.toBits ||| place 32 20 38#7
  | .ctz g d a =>
    place 32 31 1#1 ||| place 32 27 g ||| place 32 14 d.toBits ||| place 32 8 a.toBits ||| place 32 20 39#7
  | .popc g d a =>
    place 32 31 1#1 ||| place 32 27 g ||| place 32 14 d.toBits ||| place 32 8 a.toBits ||| place 32 20 40#7
  | .bswap g d a =>
    place 32 31 1#1 ||| place 32 27 g ||| place 32 14 d.toBits ||| place 32 8 a.toBits ||| place 32 20 41#7
  | .addsh g d a b n =>
    place 32 31 1#1 ||| place 32 27 g ||| place 32 14 d.toBits ||| place 32 8 a.toBits ||| place 32 2 b.toBits ||| place 32 0 n ||| place 32 20 42#7
  | .extu g d a b =>
    place 32 31 1#1 ||| place 32 27 g ||| place 32 14 d.toBits ||| place 32 8 a.toBits ||| place 32 2 b.toBits ||| place 32 20 43#7
  | .exts g d a b =>
    place 32 31 1#1 ||| place 32 27 g ||| place 32 14 d.toBits ||| place 32 8 a.toBits ||| place 32 2 b.toBits ||| place 32 20 44#7
  | .ins g d a b =>
    place 32 31 1#1 ||| place 32 27 g ||| place 32 14 d.toBits ||| place 32 8 a.toBits ||| place 32 2 b.toBits ||| place 32 20 45#7
  | .mov g d a =>
    place 32 31 1#1 ||| place 32 27 g ||| place 32 14 d.toBits ||| place 32 8 a.toBits ||| place 32 20 46#7
  | .addi g d a i =>
    place 32 31 1#1 ||| place 32 27 g ||| place 32 14 d.toBits ||| place 32 8 a.toBits ||| place 32 0 i ||| place 32 20 48#7
  | .andi g d a i =>
    place 32 31 1#1 ||| place 32 27 g ||| place 32 14 d.toBits ||| place 32 8 a.toBits ||| place 32 0 i ||| place 32 20 49#7
  | .ori g d a i =>
    place 32 31 1#1 ||| place 32 27 g ||| place 32 14 d.toBits ||| place 32 8 a.toBits ||| place 32 0 i ||| place 32 20 50#7
  | .xori g d a i =>
    place 32 31 1#1 ||| place 32 27 g ||| place 32 14 d.toBits ||| place 32 8 a.toBits ||| place 32 0 i ||| place 32 20 51#7
  | .shli g d a i =>
    place 32 31 1#1 ||| place 32 27 g ||| place 32 14 d.toBits ||| place 32 8 a.toBits ||| place 32 0 i ||| place 32 20 52#7
  | .shri g d a i =>
    place 32 31 1#1 ||| place 32 27 g ||| place 32 14 d.toBits ||| place 32 8 a.toBits ||| place 32 0 i ||| place 32 20 53#7
  | .sari g d a i =>
    place 32 31 1#1 ||| place 32 27 g ||| place 32 14 d.toBits ||| place 32 8 a.toBits ||| place 32 0 i ||| place 32 20 54#7
  | .movi g d i =>
    place 32 31 1#1 ||| place 32 27 g ||| place 32 14 d.toBits ||| place 32 0 i ||| place 32 20 55#7
  | .ldcp g d i =>
    place 32 31 1#1 ||| place 32 27 g ||| place 32 14 d.toBits ||| place 32 0 i ||| place 32 20 56#7
  | .cmp g d w a b c =>
    place 32 31 1#1 ||| place 32 27 g ||| place 32 17 d ||| place 32 16 (BitVec.ofBool w) ||| place 32 10 a.toBits ||| place 32 4 b.toBits ||| place 32 0 c.toBits ||| place 32 20 64#7
  | .cmpi g d w a i c =>
    place 32 31 1#1 ||| place 32 27 g ||| place 32 17 d ||| place 32 16 (BitVec.ofBool w) ||| place 32 10 a.toBits ||| place 32 4 i ||| place 32 0 c.toBits ||| place 32 20 65#7
  | .plog g d a b o =>
    place 32 31 1#1 ||| place 32 27 g ||| place 32 17 d ||| place 32 14 a ||| place 32 11 b ||| place 32 0 o.toBits ||| place 32 20 66#7
  | .pclr g m =>
    place 32 31 1#1 ||| place 32 27 g ||| place 32 0 m ||| place 32 20 67#7
  | .pmovToRegister g d p =>
    place 32 31 1#1 ||| place 32 27 g ||| place 32 14 d.toBits ||| place 32 5 p ||| place 32 20 68#7
  | .pmovToSlot g a p =>
    place 32 31 1#1 ||| place 32 27 g ||| place 32 8 a.toBits ||| place 32 5 p ||| place 32 20 68#7 ||| place 32 4 1#1
  | .mq g r p e s o =>
    place 32 31 1#1 ||| place 32 27 g ||| place 32 8 r ||| place 32 5 p ||| place 32 4 (BitVec.ofBool e) ||| place 32 3 (BitVec.ofBool s) ||| place 32 2 (BitVec.ofBool o) ||| place 32 20 72#7
  | .gq g r p e s o =>
    place 32 31 1#1 ||| place 32 27 g ||| place 32 8 r ||| place 32 5 p ||| place 32 4 (BitVec.ofBool e) ||| place 32 3 (BitVec.ofBool s) ||| place 32 2 (BitVec.ofBool o) ||| place 32 20 73#7
  | .cq g r p e s o =>
    place 32 31 1#1 ||| place 32 27 g ||| place 32 8 r ||| place 32 5 p ||| place 32 4 (BitVec.ofBool e) ||| place 32 3 (BitVec.ofBool s) ||| place 32 2 (BitVec.ofBool o) ||| place 32 20 74#7
  | .hq g r p e s o =>
    place 32 31 1#1 ||| place 32 27 g ||| place 32 8 r ||| place 32 5 p ||| place 32 4 (BitVec.ofBool e) ||| place 32 3 (BitVec.ofBool s) ||| place 32 2 (BitVec.ofBool o) ||| place 32 20 75#7
  | .semsig g s i =>
    place 32 31 1#1 ||| place 32 27 g ||| place 32 16 s ||| place 32 0 i ||| place 32 20 76#7
  | .semwait g s c =>
    place 32 31 1#1 ||| place 32 27 g ||| place 32 16 s ||| place 32 0 c ||| place 32 20 77#7
  | .give g w t x s =>
    place 32 31 1#1 ||| place 32 27 g ||| place 32 17 w ||| place 32 15 t ||| place 32 12 x ||| place 32 8 s ||| place 32 20 80#7
  | .bmap g b t w a =>
    place 32 31 1#1 ||| place 32 27 g ||| place 32 16 b ||| place 32 14 t ||| place 32 11 w ||| place 32 5 a.toBits ||| place 32 20 81#7
  | .bfree g t w a =>
    place 32 31 1#1 ||| place 32 27 g ||| place 32 14 t ||| place 32 11 w ||| place 32 5 a.toBits ||| place 32 20 82#7
  | .bfmt g w f b s =>
    place 32 31 1#1 ||| place 32 27 g ||| place 32 17 w ||| place 32 11 f.toBits ||| place 32 9 b.toBits ||| place 32 8 (BitVec.ofBool s) ||| place 32 20 83#7
  | .pfence g k a s =>
    place 32 31 1#1 ||| place 32 27 g ||| place 32 16 k ||| place 32 13 a.toBits ||| place 32 9 s ||| place 32 20 84#7
  | .cfenceLo g m a s =>
    place 32 31 1#1 ||| place 32 27 g ||| place 32 12 m ||| place 32 9 a.toBits ||| place 32 4 s ||| place 32 20 85#7
  | .cfenceHi g m a s =>
    place 32 31 1#1 ||| place 32 27 g ||| place 32 12 m ||| place 32 9 a.toBits ||| place 32 4 s ||| place 32 20 86#7
  | .csrr g d c =>
    place 32 31 1#1 ||| place 32 27 g ||| place 32 14 d.toBits ||| place 32 0 c ||| place 32 20 96#7
  | .csrw g s c =>
    place 32 31 1#1 ||| place 32 27 g ||| place 32 14 s.toBits ||| place 32 0 c ||| place 32 20 97#7
  | .csrs g s c =>
    place 32 31 1#1 ||| place 32 27 g ||| place 32 14 s.toBits ||| place 32 0 c ||| place 32 20 98#7
  | .csrc g s c =>
    place 32 31 1#1 ||| place 32 27 g ||| place 32 14 s.toBits ||| place 32 0 c ||| place 32 20 99#7
  | .seal g a =>
    place 32 31 1#1 ||| place 32 27 g ||| place 32 10 a.toBits ||| place 32 20 100#7
  | .slotw g a t s =>
    place 32 31 1#1 ||| place 32 27 g ||| place 32 10 a.toBits ||| place 32 8 t ||| place 32 7 (BitVec.ofBool s) ||| place 32 20 101#7
  | .sample g i =>
    place 32 31 1#1 ||| place 32 27 g ||| place 32 0 i ||| place 32 20 102#7
  | .ffma g r a b c w =>
    place 32 31 1#1 ||| place 32 27 g ||| place 32 19 r.toBits ||| place 32 13 a.toBits ||| place 32 7 b.toBits ||| place 32 1 c.toBits ||| place 32 0 (BitVec.ofBool w)
  | .ffms g r a b c w =>
    place 32 31 1#1 ||| place 32 27 g ||| place 32 19 r.toBits ||| place 32 13 a.toBits ||| place 32 7 b.toBits ||| place 32 1 c.toBits ||| place 32 0 (BitVec.ofBool w) ||| place 32 22 1#3
  | .fnfma g r a b c w =>
    place 32 31 1#1 ||| place 32 27 g ||| place 32 19 r.toBits ||| place 32 13 a.toBits ||| place 32 7 b.toBits ||| place 32 1 c.toBits ||| place 32 0 (BitVec.ofBool w) ||| place 32 22 2#3
  | .fnfms g r a b c w =>
    place 32 31 1#1 ||| place 32 27 g ||| place 32 19 r.toBits ||| place 32 13 a.toBits ||| place 32 7 b.toBits ||| place 32 1 c.toBits ||| place 32 0 (BitVec.ofBool w) ||| place 32 22 3#3
  | .dfma g r a b c w =>
    place 32 31 1#1 ||| place 32 27 g ||| place 32 19 r.toBits ||| place 32 13 a.toBits ||| place 32 7 b.toBits ||| place 32 1 c.toBits ||| place 32 0 (BitVec.ofBool w) ||| place 32 22 4#3
  | .dfms g r a b c w =>
    place 32 31 1#1 ||| place 32 27 g ||| place 32 19 r.toBits ||| place 32 13 a.toBits ||| place 32 7 b.toBits ||| place 32 1 c.toBits ||| place 32 0 (BitVec.ofBool w) ||| place 32 22 5#3
  | .imad g a b c w =>
    place 32 31 1#1 ||| place 32 27 g ||| place 32 13 a.toBits ||| place 32 7 b.toBits ||| place 32 1 c.toBits ||| place 32 0 (BitVec.ofBool w) ||| place 32 22 6#3
  | .vxSel g a b c w =>
    place 32 31 1#1 ||| place 32 27 g ||| place 32 13 a.toBits ||| place 32 7 b.toBits ||| place 32 1 c.toBits ||| place 32 0 (BitVec.ofBool w) ||| place 32 22 7#3
  | .fadd g r a b d =>
    place 32 31 1#1 ||| place 32 27 g ||| place 32 16 r.toBits ||| place 32 10 a.toBits ||| place 32 4 b.toBits ||| place 32 25 d.formBits ||| place 32 0 d.lowBits
  | .fsub g r a b d =>
    place 32 31 1#1 ||| place 32 27 g ||| place 32 16 r.toBits ||| place 32 10 a.toBits ||| place 32 4 b.toBits ||| place 32 25 d.formBits ||| place 32 0 d.lowBits ||| place 32 19 1#6
  | .fmul g r a b d =>
    place 32 31 1#1 ||| place 32 27 g ||| place 32 16 r.toBits ||| place 32 10 a.toBits ||| place 32 4 b.toBits ||| place 32 25 d.formBits ||| place 32 0 d.lowBits ||| place 32 19 2#6
  | .fmin g a b d =>
    place 32 31 1#1 ||| place 32 27 g ||| place 32 10 a.toBits ||| place 32 4 b.toBits ||| place 32 25 d.formBits ||| place 32 0 d.lowBits ||| place 32 19 3#6
  | .fmax g a b d =>
    place 32 31 1#1 ||| place 32 27 g ||| place 32 10 a.toBits ||| place 32 4 b.toBits ||| place 32 25 d.formBits ||| place 32 0 d.lowBits ||| place 32 19 4#6
  | .fminn g a b d =>
    place 32 31 1#1 ||| place 32 27 g ||| place 32 10 a.toBits ||| place 32 4 b.toBits ||| place 32 25 d.formBits ||| place 32 0 d.lowBits ||| place 32 19 5#6
  | .fmaxn g a b d =>
    place 32 31 1#1 ||| place 32 27 g ||| place 32 10 a.toBits ||| place 32 4 b.toBits ||| place 32 25 d.formBits ||| place 32 0 d.lowBits ||| place 32 19 6#6
  | .fcpysgn g a b d =>
    place 32 31 1#1 ||| place 32 27 g ||| place 32 10 a.toBits ||| place 32 4 b.toBits ||| place 32 25 d.formBits ||| place 32 0 d.lowBits ||| place 32 19 7#6
  | .fceq g a b d =>
    place 32 31 1#1 ||| place 32 27 g ||| place 32 10 a.toBits ||| place 32 4 b.toBits ||| place 32 25 d.formBits ||| place 32 0 d.lowBits ||| place 32 19 8#6
  | .fclt g a b d =>
    place 32 31 1#1 ||| place 32 27 g ||| place 32 10 a.toBits ||| place 32 4 b.toBits ||| place 32 25 d.formBits ||| place 32 0 d.lowBits ||| place 32 19 9#6
  | .fcle g a b d =>
    place 32 31 1#1 ||| place 32 27 g ||| place 32 10 a.toBits ||| place 32 4 b.toBits ||| place 32 25 d.formBits ||| place 32 0 d.lowBits ||| place 32 19 10#6
  | .fcun g a b d =>
    place 32 31 1#1 ||| place 32 27 g ||| place 32 10 a.toBits ||| place 32 4 b.toBits ||| place 32 25 d.formBits ||| place 32 0 d.lowBits ||| place 32 19 11#6
  | .fabs g a d =>
    place 32 31 1#1 ||| place 32 27 g ||| place 32 10 a.toBits ||| place 32 25 d.formBits ||| place 32 0 d.lowBits ||| place 32 19 12#6
  | .fneg g a d =>
    place 32 31 1#1 ||| place 32 27 g ||| place 32 10 a.toBits ||| place 32 25 d.formBits ||| place 32 0 d.lowBits ||| place 32 19 13#6
  | .frint g r a d =>
    place 32 31 1#1 ||| place 32 27 g ||| place 32 16 r.toBits ||| place 32 10 a.toBits ||| place 32 25 d.formBits ||| place 32 0 d.lowBits ||| place 32 19 14#6
  | .fscalb g r a b d =>
    place 32 31 1#1 ||| place 32 27 g ||| place 32 16 r.toBits ||| place 32 10 a.toBits ||| place 32 4 b.toBits ||| place 32 25 d.formBits ||| place 32 0 d.lowBits ||| place 32 19 15#6
  | .dadd g r a b d =>
    place 32 31 1#1 ||| place 32 27 g ||| place 32 16 r.toBits ||| place 32 10 a.toBits ||| place 32 4 b.toBits ||| place 32 25 d.formBits ||| place 32 0 d.lowBits ||| place 32 19 16#6
  | .dsub g r a b d =>
    place 32 31 1#1 ||| place 32 27 g ||| place 32 16 r.toBits ||| place 32 10 a.toBits ||| place 32 4 b.toBits ||| place 32 25 d.formBits ||| place 32 0 d.lowBits ||| place 32 19 17#6
  | .dmul g r a b d =>
    place 32 31 1#1 ||| place 32 27 g ||| place 32 16 r.toBits ||| place 32 10 a.toBits ||| place 32 4 b.toBits ||| place 32 25 d.formBits ||| place 32 0 d.lowBits ||| place 32 19 18#6
  | .dmin g a b d =>
    place 32 31 1#1 ||| place 32 27 g ||| place 32 10 a.toBits ||| place 32 4 b.toBits ||| place 32 25 d.formBits ||| place 32 0 d.lowBits ||| place 32 19 19#6
  | .dmax g a b d =>
    place 32 31 1#1 ||| place 32 27 g ||| place 32 10 a.toBits ||| place 32 4 b.toBits ||| place 32 25 d.formBits ||| place 32 0 d.lowBits ||| place 32 19 20#6
  | .dceq g a b d =>
    place 32 31 1#1 ||| place 32 27 g ||| place 32 10 a.toBits ||| place 32 4 b.toBits ||| place 32 25 d.formBits ||| place 32 0 d.lowBits ||| place 32 19 21#6
  | .dclt g a b d =>
    place 32 31 1#1 ||| place 32 27 g ||| place 32 10 a.toBits ||| place 32 4 b.toBits ||| place 32 25 d.formBits ||| place 32 0 d.lowBits ||| place 32 19 22#6
  | .dcle g a b d =>
    place 32 31 1#1 ||| place 32 27 g ||| place 32 10 a.toBits ||| place 32 4 b.toBits ||| place 32 25 d.formBits ||| place 32 0 d.lowBits ||| place 32 19 23#6
  | .dabs g a d =>
    place 32 31 1#1 ||| place 32 27 g ||| place 32 10 a.toBits ||| place 32 25 d.formBits ||| place 32 0 d.lowBits ||| place 32 19 24#6
  | .dneg g a d =>
    place 32 31 1#1 ||| place 32 27 g ||| place 32 10 a.toBits ||| place 32 25 d.formBits ||| place 32 0 d.lowBits ||| place 32 19 25#6
  | .drint g r a d =>
    place 32 31 1#1 ||| place 32 27 g ||| place 32 16 r.toBits ||| place 32 10 a.toBits ||| place 32 25 d.formBits ||| place 32 0 d.lowBits ||| place 32 19 26#6
  | .dcun g a b d =>
    place 32 31 1#1 ||| place 32 27 g ||| place 32 10 a.toBits ||| place 32 4 b.toBits ||| place 32 25 d.formBits ||| place 32 0 d.lowBits ||| place 32 19 27#6
  | .iadd g a b d =>
    place 32 31 1#1 ||| place 32 27 g ||| place 32 10 a.toBits ||| place 32 4 b.toBits ||| place 32 25 d.formBits ||| place 32 0 d.lowBits ||| place 32 19 32#6
  | .isub g a b d =>
    place 32 31 1#1 ||| place 32 27 g ||| place 32 10 a.toBits ||| place 32 4 b.toBits ||| place 32 25 d.formBits ||| place 32 0 d.lowBits ||| place 32 19 33#6
  | .imul g a b d =>
    place 32 31 1#1 ||| place 32 27 g ||| place 32 10 a.toBits ||| place 32 4 b.toBits ||| place 32 25 d.formBits ||| place 32 0 d.lowBits ||| place 32 19 34#6
  | .imulh g a b d =>
    place 32 31 1#1 ||| place 32 27 g ||| place 32 10 a.toBits ||| place 32 4 b.toBits ||| place 32 25 d.formBits ||| place 32 0 d.lowBits ||| place 32 19 35#6
  | .imulhu g a b d =>
    place 32 31 1#1 ||| place 32 27 g ||| place 32 10 a.toBits ||| place 32 4 b.toBits ||| place 32 25 d.formBits ||| place 32 0 d.lowBits ||| place 32 19 36#6
  | .imin g a b d =>
    place 32 31 1#1 ||| place 32 27 g ||| place 32 10 a.toBits ||| place 32 4 b.toBits ||| place 32 25 d.formBits ||| place 32 0 d.lowBits ||| place 32 19 37#6
  | .imax g a b d =>
    place 32 31 1#1 ||| place 32 27 g ||| place 32 10 a.toBits ||| place 32 4 b.toBits ||| place 32 25 d.formBits ||| place 32 0 d.lowBits ||| place 32 19 38#6
  | .iminu g a b d =>
    place 32 31 1#1 ||| place 32 27 g ||| place 32 10 a.toBits ||| place 32 4 b.toBits ||| place 32 25 d.formBits ||| place 32 0 d.lowBits ||| place 32 19 39#6
  | .imaxu g a b d =>
    place 32 31 1#1 ||| place 32 27 g ||| place 32 10 a.toBits ||| place 32 4 b.toBits ||| place 32 25 d.formBits ||| place 32 0 d.lowBits ||| place 32 19 40#6
  | .iand g a b d =>
    place 32 31 1#1 ||| place 32 27 g ||| place 32 10 a.toBits ||| place 32 4 b.toBits ||| place 32 25 d.formBits ||| place 32 0 d.lowBits ||| place 32 19 41#6
  | .ior g a b d =>
    place 32 31 1#1 ||| place 32 27 g ||| place 32 10 a.toBits ||| place 32 4 b.toBits ||| place 32 25 d.formBits ||| place 32 0 d.lowBits ||| place 32 19 42#6
  | .ixor g a b d =>
    place 32 31 1#1 ||| place 32 27 g ||| place 32 10 a.toBits ||| place 32 4 b.toBits ||| place 32 25 d.formBits ||| place 32 0 d.lowBits ||| place 32 19 43#6
  | .iandn g a b d =>
    place 32 31 1#1 ||| place 32 27 g ||| place 32 10 a.toBits ||| place 32 4 b.toBits ||| place 32 25 d.formBits ||| place 32 0 d.lowBits ||| place 32 19 44#6
  | .ishl g a b d =>
    place 32 31 1#1 ||| place 32 27 g ||| place 32 10 a.toBits ||| place 32 4 b.toBits ||| place 32 25 d.formBits ||| place 32 0 d.lowBits ||| place 32 19 45#6
  | .ishr g a b d =>
    place 32 31 1#1 ||| place 32 27 g ||| place 32 10 a.toBits ||| place 32 4 b.toBits ||| place 32 25 d.formBits ||| place 32 0 d.lowBits ||| place 32 19 46#6
  | .isar g a b d =>
    place 32 31 1#1 ||| place 32 27 g ||| place 32 10 a.toBits ||| place 32 4 b.toBits ||| place 32 25 d.formBits ||| place 32 0 d.lowBits ||| place 32 19 47#6
  | .iceq g a b d =>
    place 32 31 1#1 ||| place 32 27 g ||| place 32 10 a.toBits ||| place 32 4 b.toBits ||| place 32 25 d.formBits ||| place 32 0 d.lowBits ||| place 32 19 48#6
  | .iclt g a b d =>
    place 32 31 1#1 ||| place 32 27 g ||| place 32 10 a.toBits ||| place 32 4 b.toBits ||| place 32 25 d.formBits ||| place 32 0 d.lowBits ||| place 32 19 49#6
  | .icltu g a b d =>
    place 32 31 1#1 ||| place 32 27 g ||| place 32 10 a.toBits ||| place 32 4 b.toBits ||| place 32 25 d.formBits ||| place 32 0 d.lowBits ||| place 32 19 50#6
  | .iadds g a b d =>
    place 32 31 1#1 ||| place 32 27 g ||| place 32 10 a.toBits ||| place 32 4 b.toBits ||| place 32 25 d.formBits ||| place 32 0 d.lowBits ||| place 32 19 51#6
  | .isubs g a b d =>
    place 32 31 1#1 ||| place 32 27 g ||| place 32 10 a.toBits ||| place 32 4 b.toBits ||| place 32 25 d.formBits ||| place 32 0 d.lowBits ||| place 32 19 52#6
  | .iabs g a d =>
    place 32 31 1#1 ||| place 32 27 g ||| place 32 10 a.toBits ||| place 32 25 d.formBits ||| place 32 0 d.lowBits ||| place 32 19 53#6
  | .cvtF32I32 g r a d =>
    place 32 31 1#1 ||| place 32 27 g ||| place 32 16 r.toBits ||| place 32 10 a.toBits ||| place 32 25 d.formBits ||| place 32 0 d.lowBits ||| place 32 19 56#6
  | .cvtI32F32 g r a d =>
    place 32 31 1#1 ||| place 32 27 g ||| place 32 16 r.toBits ||| place 32 10 a.toBits ||| place 32 25 d.formBits ||| place 32 0 d.lowBits ||| place 32 19 57#6
  | .cvtF64F32 g a d =>
    place 32 31 1#1 ||| place 32 27 g ||| place 32 10 a.toBits ||| place 32 25 d.formBits ||| place 32 0 d.lowBits ||| place 32 19 58#6
  | .cvtF32F64 g r a d =>
    place 32 31 1#1 ||| place 32 27 g ||| place 32 16 r.toBits ||| place 32 10 a.toBits ||| place 32 25 d.formBits ||| place 32 0 d.lowBits ||| place 32 19 59#6
  | .cvtBf16F32 g r a b d =>
    place 32 31 1#1 ||| place 32 27 g ||| place 32 16 r.toBits ||| place 32 10 a.toBits ||| place 32 4 b.toBits ||| place 32 25 d.formBits ||| place 32 0 d.lowBits ||| place 32 19 60#6
  | .cvtF32Bf16 g a h d =>
    place 32 31 1#1 ||| place 32 27 g ||| place 32 10 a.toBits ||| place 32 4 (BitVec.ofBool h) ||| place 32 25 d.formBits ||| place 32 0 d.lowBits ||| place 32 19 61#6
  | .vext g a n =>
    place 32 31 1#1 ||| place 32 27 g ||| place 32 13 a.toBits ||| place 32 1 n ||| place 32 25 3#2 ||| place 32 19 1#6
  | .vextW64 g a n =>
    place 32 31 1#1 ||| place 32 27 g ||| place 32 13 a.toBits ||| place 32 1 n ||| place 32 25 3#2 ||| place 32 19 1#6 ||| place 32 0 1#1
  | .vperm g a b =>
    place 32 31 1#1 ||| place 32 27 g ||| place 32 13 a.toBits ||| place 32 7 b.toBits ||| place 32 25 3#2 ||| place 32 19 2#6
  | .vrot g a n =>
    place 32 31 1#1 ||| place 32 27 g ||| place 32 13 a.toBits ||| place 32 1 n ||| place 32 25 3#2 ||| place 32 19 3#6
  | .vredf g a o =>
    place 32 31 1#1 ||| place 32 27 g ||| place 32 13 a.toBits ||| place 32 1 o.toBits ||| place 32 25 3#2 ||| place 32 19 4#6
  | .vredi g a o =>
    place 32 31 1#1 ||| place 32 27 g ||| place 32 13 a.toBits ||| place 32 1 o.toBits ||| place 32 25 3#2 ||| place 32 19 5#6
  | .vredd g a o =>
    place 32 31 1#1 ||| place 32 27 g ||| place 32 13 a.toBits ||| place 32 1 o.toBits ||| place 32 25 3#2 ||| place 32 19 6#6
  | .qnt8 g n f s a b c =>
    place 32 31 1#1 ||| place 32 27 g ||| place 32 21 n ||| place 32 20 (BitVec.ofBool f) ||| place 32 19 (BitVec.ofBool s) ||| place 32 13 a.toBits ||| place 32 7 b.toBits ||| place 32 1 c.toBits ||| place 32 25 3#2 ||| place 32 23 1#2
  | .dq8 g f n a =>
    place 32 31 1#1 ||| place 32 27 g ||| place 32 21 (BitVec.ofBool f) ||| place 32 19 n ||| place 32 13 a.toBits ||| place 32 25 3#2 ||| place 32 22 4#3
  | .cvth g a b =>
    place 32 31 1#1 ||| place 32 27 g ||| place 32 13 a.toBits ||| place 32 7 b.toBits ||| place 32 25 3#2 ||| place 32 19 40#6
  | .cvthu g a h =>
    place 32 31 1#1 ||| place 32 27 g ||| place 32 13 a.toBits ||| place 32 7 (BitVec.ofBool h) ||| place 32 25 3#2 ||| place 32 19 41#6
  | .vclass g a =>
    place 32 31 1#1 ||| place 32 27 g ||| place 32 13 a.toBits ||| place 32 25 3#2 ||| place 32 19 42#6
  | .exp g r a =>
    place 32 31 1#1 ||| place 32 27 g ||| place 32 18 r.toBits ||| place 32 12 a.toBits
  | .exp2 g r a =>
    place 32 31 1#1 ||| place 32 27 g ||| place 32 18 r.toBits ||| place 32 12 a.toBits ||| place 32 21 1#6
  | .log g r a =>
    place 32 31 1#1 ||| place 32 27 g ||| place 32 18 r.toBits ||| place 32 12 a.toBits ||| place 32 21 2#6
  | .log2 g r a =>
    place 32 31 1#1 ||| place 32 27 g ||| place 32 18 r.toBits ||| place 32 12 a.toBits ||| place 32 21 3#6
  | .erf g r a =>
    place 32 31 1#1 ||| place 32 27 g ||| place 32 18 r.toBits ||| place 32 12 a.toBits ||| place 32 21 4#6
  | .erfc g r a =>
    place 32 31 1#1 ||| place 32 27 g ||| place 32 18 r.toBits ||| place 32 12 a.toBits ||| place 32 21 5#6
  | .sqrt g r a =>
    place 32 31 1#1 ||| place 32 27 g ||| place 32 18 r.toBits ||| place 32 12 a.toBits ||| place 32 21 6#6
  | .rsqrt g r a =>
    place 32 31 1#1 ||| place 32 27 g ||| place 32 18 r.toBits ||| place 32 12 a.toBits ||| place 32 21 7#6
  | .rcp g r a =>
    place 32 31 1#1 ||| place 32 27 g ||| place 32 18 r.toBits ||| place 32 12 a.toBits ||| place 32 21 8#6
  | .tanh g r a =>
    place 32 31 1#1 ||| place 32 27 g ||| place 32 18 r.toBits ||| place 32 12 a.toBits ||| place 32 21 9#6
  | .sigm g r a =>
    place 32 31 1#1 ||| place 32 27 g ||| place 32 18 r.toBits ||| place 32 12 a.toBits ||| place 32 21 10#6
  | .expm1 g r a =>
    place 32 31 1#1 ||| place 32 27 g ||| place 32 18 r.toBits ||| place 32 12 a.toBits ||| place 32 21 11#6
  | .log1p g r a =>
    place 32 31 1#1 ||| place 32 27 g ||| place 32 18 r.toBits ||| place 32 12 a.toBits ||| place 32 21 12#6
  | .divF32 g r a b =>
    place 32 31 1#1 ||| place 32 27 g ||| place 32 18 r.toBits ||| place 32 12 a.toBits ||| place 32 6 b.toBits ||| place 32 21 15#6
  | .expF64 g r a =>
    place 32 31 1#1 ||| place 32 27 g ||| place 32 18 r.toBits ||| place 32 12 a.toBits ||| place 32 21 16#6
  | .exp2F64 g r a =>
    place 32 31 1#1 ||| place 32 27 g ||| place 32 18 r.toBits ||| place 32 12 a.toBits ||| place 32 21 17#6
  | .logF64 g r a =>
    place 32 31 1#1 ||| place 32 27 g ||| place 32 18 r.toBits ||| place 32 12 a.toBits ||| place 32 21 18#6
  | .log2F64 g r a =>
    place 32 31 1#1 ||| place 32 27 g ||| place 32 18 r.toBits ||| place 32 12 a.toBits ||| place 32 21 19#6
  | .erfF64 g r a =>
    place 32 31 1#1 ||| place 32 27 g ||| place 32 18 r.toBits ||| place 32 12 a.toBits ||| place 32 21 20#6
  | .erfcF64 g r a =>
    place 32 31 1#1 ||| place 32 27 g ||| place 32 18 r.toBits ||| place 32 12 a.toBits ||| place 32 21 21#6
  | .sqrtF64 g r a =>
    place 32 31 1#1 ||| place 32 27 g ||| place 32 18 r.toBits ||| place 32 12 a.toBits ||| place 32 21 22#6
  | .rsqrtF64 g r a =>
    place 32 31 1#1 ||| place 32 27 g ||| place 32 18 r.toBits ||| place 32 12 a.toBits ||| place 32 21 23#6
  | .rcpF64 g r a =>
    place 32 31 1#1 ||| place 32 27 g ||| place 32 18 r.toBits ||| place 32 12 a.toBits ||| place 32 21 24#6
  | .tanhF64 g r a =>
    place 32 31 1#1 ||| place 32 27 g ||| place 32 18 r.toBits ||| place 32 12 a.toBits ||| place 32 21 25#6
  | .sigmF64 g r a =>
    place 32 31 1#1 ||| place 32 27 g ||| place 32 18 r.toBits ||| place 32 12 a.toBits ||| place 32 21 26#6
  | .expm1F64 g r a =>
    place 32 31 1#1 ||| place 32 27 g ||| place 32 18 r.toBits ||| place 32 12 a.toBits ||| place 32 21 27#6
  | .log1pF64 g r a =>
    place 32 31 1#1 ||| place 32 27 g ||| place 32 18 r.toBits ||| place 32 12 a.toBits ||| place 32 21 28#6
  | .divF64 g r a b =>
    place 32 31 1#1 ||| place 32 27 g ||| place 32 18 r.toBits ||| place 32 12 a.toBits ||| place 32 6 b.toBits ||| place 32 21 31#6
  | .ldsV g c b o =>
    place 32 31 1#1 ||| place 32 27 g ||| place 32 17 c ||| place 32 5 b.toBits ||| place 32 0 o
  | .ldsD g c b o =>
    place 32 31 1#1 ||| place 32 27 g ||| place 32 17 c ||| place 32 5 b.toBits ||| place 32 0 o ||| place 32 21 1#6
  | .stsV g c d b o =>
    place 32 31 1#1 ||| place 32 27 g ||| place 32 17 c ||| place 32 11 d.toBits ||| place 32 5 b.toBits ||| place 32 0 o ||| place 32 21 2#6
  | .stsE g c d b o =>
    place 32 31 1#1 ||| place 32 27 g ||| place 32 17 c ||| place 32 11 d.toBits ||| place 32 5 b.toBits ||| place 32 0 o ||| place 32 21 3#6
  | .ldsG g c d b =>
    place 32 31 1#1 ||| place 32 27 g ||| place 32 17 c ||| place 32 11 d.toBits ||| place 32 5 b.toBits ||| place 32 21 4#6
  | .stsS g c d b i =>
    place 32 31 1#1 ||| place 32 27 g ||| place 32 17 c ||| place 32 11 d.toBits ||| place 32 5 b.toBits ||| place 32 0 i ||| place 32 21 5#6
  | .ldsW32 g c b o =>
    place 32 31 1#1 ||| place 32 27 g ||| place 32 17 c ||| place 32 5 b.toBits ||| place 32 0 o ||| place 32 21 8#6
  | .ldsW64 g c b o =>
    place 32 31 1#1 ||| place 32 27 g ||| place 32 17 c ||| place 32 5 b.toBits ||| place 32 0 o ||| place 32 21 9#6
  | .stsW32 g c d b o =>
    place 32 31 1#1 ||| place 32 27 g ||| place 32 17 c ||| place 32 11 d.toBits ||| place 32 5 b.toBits ||| place 32 0 o ||| place 32 21 10#6
  | .stsW64 g c d b o =>
    place 32 31 1#1 ||| place 32 27 g ||| place 32 17 c ||| place 32 11 d.toBits ||| place 32 5 b.toBits ||| place 32 0 o ||| place 32 21 11#6
  | .amos g c d b o =>
    place 32 31 1#1 ||| place 32 27 g ||| place 32 17 c ||| place 32 11 d.toBits ||| place 32 5 b.toBits ||| place 32 0 o.toBits ||| place 32 21 16#6
  | .amog g c d b o =>
    place 32 31 1#1 ||| place 32 27 g ||| place 32 17 c ||| place 32 11 d.toBits ||| place 32 5 b.toBits ||| place 32 0 o.toBits ||| place 32 21 17#6
  | .waitw g c d b e =>
    place 32 31 1#1 ||| place 32 27 g ||| place 32 17 c ||| place 32 11 d.toBits ||| place 32 5 b.toBits ||| place 32 0 e.toBits ||| place 32 21 18#6
  | .waitg g c d b e =>
    place 32 31 1#1 ||| place 32 27 g ||| place 32 17 c ||| place 32 11 d.toBits ||| place 32 5 b.toBits ||| place 32 0 e.toBits ||| place 32 21 19#6
  | .ldgW64 g c b o =>
    place 32 31 1#1 ||| place 32 27 g ||| place 32 17 c ||| place 32 5 b.toBits ||| place 32 0 o ||| place 32 21 24#6
  | .stgW64 g c d b o =>
    place 32 31 1#1 ||| place 32 27 g ||| place 32 17 c ||| place 32 11 d.toBits ||| place 32 5 b.toBits ||| place 32 0 o ||| place 32 21 25#6
  | .ldgV g c b o =>
    place 32 31 1#1 ||| place 32 27 g ||| place 32 17 c ||| place 32 5 b.toBits ||| place 32 0 o ||| place 32 21 26#6
  | .stgV g c d b o =>
    place 32 31 1#1 ||| place 32 27 g ||| place 32 17 c ||| place 32 11 d.toBits ||| place 32 5 b.toBits ||| place 32 0 o ||| place 32 21 27#6
  | .ldgD g c b o =>
    place 32 31 1#1 ||| place 32 27 g ||| place 32 17 c ||| place 32 5 b.toBits ||| place 32 0 o ||| place 32 21 28#6
  | .lda g c b w h =>
    place 32 31 1#1 ||| place 32 27 g ||| place 32 17 c ||| place 32 5 b.toBits ||| place 32 1 w.toBits ||| place 32 0 (BitVec.ofBool h) ||| place 32 21 32#6
  | .sta g c d b h =>
    place 32 31 1#1 ||| place 32 27 g ||| place 32 17 c ||| place 32 11 d.toBits ||| place 32 5 b.toBits ||| place 32 0 (BitVec.ofBool h) ||| place 32 21 33#6
  | _ => 0#32

/-- The halfword of a short word (10 R240). -/
def encodeShort : Instr → Option Half
  | .skip g n => some (place 16 12 g ||| place 16 0 n)
  | .kput g n => some (place 16 12 g ||| place 16 6 1#6 ||| place 16 0 n)
  | .inc g n => some (place 16 12 g ||| place 16 6 2#6 ||| place 16 0 n)
  | .dec g n => some (place 16 12 g ||| place 16 6 3#6 ||| place 16 0 n)
  | .vput g n => some (place 16 12 g ||| place 16 6 1#6 ||| place 16 0 n)
  | .vzero g n => some (place 16 12 g ||| place 16 6 2#6 ||| place 16 0 n)
  | _ => none

/-- The halfwords of a stream word, first halfword first; none for records and events (10 R227). -/
def encode (i : Instr) : List Half :=
  match encodeShort i with
  | some h => [h]
  | none => if encodeLong i = 0#32 then [] else [(encodeLong i).extractLsb' 16 16, (encodeLong i).extractLsb' 0 16]

/-- The column whose stream an instruction's word belongs to (10 R241-R250); SKIP, a word of every column, is
given with SQ here. None for records and events. -/
def Instr.column : Instr → Option Column
  | .prep .. => some .sq
  | .prepS .. => some .sq
  | .prepRet .. => some .sq
  | .leap .. => some .sq
  | .leapl .. => some .sq
  | .leapD .. => some .sq
  | .vote .. => some .sq
  | .halt .. => some .sq
  | .trap .. => some .sq
  | .rte .. => some .sq
  | .waitrv .. => some .sq
  | .mark .. => some .sq
  | .skipl .. => some .sq
  | .add .. => some .sq
  | .sub .. => some .sq
  | .mul .. => some .sq
  | .mulh .. => some .sq
  | .mulhu .. => some .sq
  | .div .. => some .sq
  | .divu .. => some .sq
  | .rem .. => some .sq
  | .remu .. => some .sq
  | .and .. => some .sq
  | .or .. => some .sq
  | .xor .. => some .sq
  | .andn .. => some .sq
  | .shl .. => some .sq
  | .shr .. => some .sq
  | .sar .. => some .sq
  | .rol .. => some .sq
  | .min .. => some .sq
  | .max .. => some .sq
  | .minu .. => some .sq
  | .maxu .. => some .sq
  | .sel .. => some .sq
  | .clz .. => some .sq
  | .ctz .. => some .sq
  | .popc .. => some .sq
  | .bswap .. => some .sq
  | .addsh .. => some .sq
  | .extu .. => some .sq
  | .exts .. => some .sq
  | .ins .. => some .sq
  | .mov .. => some .sq
  | .addi .. => some .sq
  | .andi .. => some .sq
  | .ori .. => some .sq
  | .xori .. => some .sq
  | .shli .. => some .sq
  | .shri .. => some .sq
  | .sari .. => some .sq
  | .movi .. => some .sq
  | .ldcp .. => some .sq
  | .cmp .. => some .sq
  | .cmpi .. => some .sq
  | .plog .. => some .sq
  | .pclr .. => some .sq
  | .pmovToRegister .. => some .sq
  | .pmovToSlot .. => some .sq
  | .mq .. => some .sq
  | .gq .. => some .sq
  | .cq .. => some .sq
  | .hq .. => some .sq
  | .semsig .. => some .sq
  | .semwait .. => some .sq
  | .give .. => some .sq
  | .bmap .. => some .sq
  | .bfree .. => some .sq
  | .bfmt .. => some .sq
  | .pfence .. => some .sq
  | .cfenceLo .. => some .sq
  | .cfenceHi .. => some .sq
  | .csrr .. => some .sq
  | .csrw .. => some .sq
  | .csrs .. => some .sq
  | .csrc .. => some .sq
  | .seal .. => some .sq
  | .slotw .. => some .sq
  | .sample .. => some .sq
  | .skip .. => some .sq
  | .kput .. => some .sq
  | .inc .. => some .sq
  | .dec .. => some .sq
  | .vput .. => some .vx
  | .vzero .. => some .vx
  | .ffma .. => some .vx
  | .ffms .. => some .vx
  | .fnfma .. => some .vx
  | .fnfms .. => some .vx
  | .dfma .. => some .vx
  | .dfms .. => some .vx
  | .imad .. => some .vx
  | .vxSel .. => some .vx
  | .fadd .. => some .vx
  | .fsub .. => some .vx
  | .fmul .. => some .vx
  | .fmin .. => some .vx
  | .fmax .. => some .vx
  | .fminn .. => some .vx
  | .fmaxn .. => some .vx
  | .fcpysgn .. => some .vx
  | .fceq .. => some .vx
  | .fclt .. => some .vx
  | .fcle .. => some .vx
  | .fcun .. => some .vx
  | .fabs .. => some .vx
  | .fneg .. => some .vx
  | .frint .. => some .vx
  | .fscalb .. => some .vx
  | .dadd .. => some .vx
  | .dsub .. => some .vx
  | .dmul .. => some .vx
  | .dmin .. => some .vx
  | .dmax .. => some .vx
  | .dceq .. => some .vx
  | .dclt .. => some .vx
  | .dcle .. => some .vx
  | .dabs .. => some .vx
  | .dneg .. => some .vx
  | .drint .. => some .vx
  | .dcun .. => some .vx
  | .iadd .. => some .vx
  | .isub .. => some .vx
  | .imul .. => some .vx
  | .imulh .. => some .vx
  | .imulhu .. => some .vx
  | .imin .. => some .vx
  | .imax .. => some .vx
  | .iminu .. => some .vx
  | .imaxu .. => some .vx
  | .iand .. => some .vx
  | .ior .. => some .vx
  | .ixor .. => some .vx
  | .iandn .. => some .vx
  | .ishl .. => some .vx
  | .ishr .. => some .vx
  | .isar .. => some .vx
  | .iceq .. => some .vx
  | .iclt .. => some .vx
  | .icltu .. => some .vx
  | .iadds .. => some .vx
  | .isubs .. => some .vx
  | .iabs .. => some .vx
  | .cvtF32I32 .. => some .vx
  | .cvtI32F32 .. => some .vx
  | .cvtF64F32 .. => some .vx
  | .cvtF32F64 .. => some .vx
  | .cvtBf16F32 .. => some .vx
  | .cvtF32Bf16 .. => some .vx
  | .vext .. => some .vx
  | .vextW64 .. => some .vx
  | .vperm .. => some .vx
  | .vrot .. => some .vx
  | .vredf .. => some .vx
  | .vredi .. => some .vx
  | .vredd .. => some .vx
  | .qnt8 .. => some .vx
  | .dq8 .. => some .vx
  | .cvth .. => some .vx
  | .cvthu .. => some .vx
  | .vclass .. => some .vx
  | .exp .. => some .xc
  | .exp2 .. => some .xc
  | .log .. => some .xc
  | .log2 .. => some .xc
  | .erf .. => some .xc
  | .erfc .. => some .xc
  | .sqrt .. => some .xc
  | .rsqrt .. => some .xc
  | .rcp .. => some .xc
  | .tanh .. => some .xc
  | .sigm .. => some .xc
  | .expm1 .. => some .xc
  | .log1p .. => some .xc
  | .divF32 .. => some .xc
  | .expF64 .. => some .xc
  | .exp2F64 .. => some .xc
  | .logF64 .. => some .xc
  | .log2F64 .. => some .xc
  | .erfF64 .. => some .xc
  | .erfcF64 .. => some .xc
  | .sqrtF64 .. => some .xc
  | .rsqrtF64 .. => some .xc
  | .rcpF64 .. => some .xc
  | .tanhF64 .. => some .xc
  | .sigmF64 .. => some .xc
  | .expm1F64 .. => some .xc
  | .log1pF64 .. => some .xc
  | .divF64 .. => some .xc
  | .ldsV .. => some .ls
  | .ldsD .. => some .ls
  | .stsV .. => some .ls
  | .stsE .. => some .ls
  | .ldsG .. => some .ls
  | .stsS .. => some .ls
  | .ldsW32 .. => some .ls
  | .ldsW64 .. => some .ls
  | .stsW32 .. => some .ls
  | .stsW64 .. => some .ls
  | .amos .. => some .ls
  | .amog .. => some .ls
  | .waitw .. => some .ls
  | .waitg .. => some .ls
  | .ldgW64 .. => some .ls
  | .stgW64 .. => some .ls
  | .ldgV .. => some .ls
  | .stgV .. => some .ls
  | .ldgD .. => some .ls
  | .lda .. => some .ls
  | .sta .. => some .ls
  | _ => none

/-- The first column, in the manual's order SQ, VX, XC, LS, in which a halfword list is one whole word. The column is no
part of a word, so a bare word is read by this order (DESIGN CHOICE, assumption 7). -/
def firstColumn (hs : List Half) : List Column → Option (Column × Instr)
  | [] => none
  | c :: cs =>
    match decodeWord c hs with
    | .ok (i, []) => some (c, i)
    | _ => firstColumn hs cs

/-- The halfwords of a word of the opcode table: a long word's bits 31:16 stand in its first halfword (10 R227). -/
def tableHalves (nbits w : Nat) : List Half :=
  if nbits = 32 then [BitVec.ofNat 16 (w / 65536), BitVec.ofNat 16 w] else [BitVec.ofNat 16 w]

/-- The instruction the decoder reads from a word of the opcode table. -/
def decodeTableWord (nbits w : Nat) : Option Instr :=
  match firstColumn (tableHalves nbits w) [.sq, .vx, .xc, .ls] with
  | some (_, i) => some i
  | none => none

end Sys2Proof
end

