-- ==== Sys2Proof/Machine/State.lean ====
section
/-!
DEFINITION. The state of the module: everything the manual gives it, as plain data, and the state after reset.
Ticks, counts and addresses already formed are Nat; register contents are bit vectors.
-/

namespace Sys2Proof.Machine

/-- A format tag of a bank, a B-store slice or a page (04 R90): FMT and BLK codes as 03 R66 gives them, and SPL. -/
structure Tag where
  fmt : BitVec 4
  blk : BitVec 2
  spl : Bool
  deriving DecidableEq, Repr

/-- RAW, BLK 0, SPL 0: the tag at launch (04 R90). -/
def Tag.raw : Tag := ⟨0, 0, false⟩

/-- A predicate slot (09 R213). -/
structure Pred where
  value : Bool
  written : Bool
  deriving DecidableEq, Repr

/-- A target register t0-t3 (09 R210). -/
structure TReg where
  addr : W64
  ready : Nat
  ret : Bool
  loaded : Bool
  deriving DecidableEq, Repr

/-- A window register (04 R89): the attached bank, or the bank whose attach is pending. -/
inductive Win where
  | empty
  | pend (bank : Nat)
  | att (bank : Nat)
  deriving DecidableEq, Repr

/-- Where a result is written (10 R236, R238, R240; 11 R263-R266). -/
inductive Dest where
  /-- The SQ queue, and a register unless queue-only. -/
  | sq (reg : Option (BitVec 5))
  /-- A scalar register alone: KPUT, INC, DEC. -/
  | sreg (n : BitVec 5)
  /-- The VX queue, and a register when named. -/
  | vx (reg : Option (BitVec 4))
  /-- A vector register alone: VPUT, VZERO. -/
  | vreg (n : BitVec 4)
  | xc
  | ls
  /-- A predicate slot takes a value and its written bit (CMP, CMPI, PLOG, PMOV). -/
  | slot (p : BitVec 3) (value : Bool)
  /-- PCLR clears the masked slots. -/
  | clear (mask : BitVec 8)
  deriving DecidableEq, Repr

/-- A result on its way to its destination, entered at its completion tick (01 R32, 09 R201). -/
structure Flight where
  /-- Completion tick. -/
  due : Nat
  /-- Issue tick. -/
  issue : Nat
  col : Column
  /-- Halfword offset of the issuing word in its stream. -/
  ofs : Nat
  dest : Dest
  /-- A scalar result; 0 for vectors. -/
  val : W64
  /-- A vector result, 32 lanes; empty for scalars. -/
  lanes : Lanes
  /-- The flags that the operation raised in each result lane (08 R189, R191); one entry for SQ and LS results. -/
  raised : List (BitVec 9)
  /-- The global or host request whose answer the result waits for (13 R326). -/
  gop : Option Nat
  /-- The cause that suppressed the result into its latch; 0 for none (15 R381). -/
  cause : Nat
  /-- The data is owed (15 R384). -/
  owed : Bool
  deriving DecidableEq, Repr

/-- The kinds of operation on a semaphore in signal order (06 R144). -/
inductive SemKind where | record | give | semsig | pfence | csr
  deriving DecidableEq, Repr

/-- What an operation does to a semaphore's count (11 R279, R280). -/
inductive SemAct where
  | add (n : BitVec 16) | set (n : BitVec 16) | or (n : BitVec 16) | clear (n : BitVec 16)
  deriving DecidableEq, Repr

/-- One operation on a semaphore, at its place in signal order (06 R144): `tick`, `lt`, `kind` are its key. -/
structure SemOp where
  tick : Nat
  lt : Nat
  kind : SemKind
  act : SemAct
  /-- The increment has arrived at the semaphore. -/
  arrived : Bool
  applied : Bool
  /-- The event of the ordering model that made it. -/
  ev : Nat
  deriving DecidableEq, Repr

/-- One stream of the current block: what is left, the offset of its next halfword, and the block tick at which a word
of gap 0 would issue (10 R228). -/
structure Stream where
  buf : List Half
  rest : List Half
  ofs : Nat
  base : Nat
  /-- Offset of the word issued last. -/
  last : Nat
  deriving DecidableEq, Repr

/-- A block as the loader holds it (10 R231, R232): header address and word, its four streams in column order, the
fall-through address, and the first fetch error (check code, column, offset). -/
structure Block where
  addr : W64
  hdr : W64
  streams : List (List Half)
  after : W64
  err : Option (Nat × Nat × Nat)
  deriving DecidableEq, Repr

/-- What a fetch of a block has come to (09 R205). -/
inductive FetchStage where
  | asked
  | got (b : Block)
  | failed (cause : Nat) (detail : Nat) (addr : W64)
  deriving DecidableEq, Repr

/-- What the loader fetches a block for (09 R205, R210, R211): the fall-through, a target register, or a continuation that a
taken LEAP has fixed and whose register has since been prepared anew. -/
inductive FetchFor where
  | fall
  | target (r : BitVec 2)
  | fixed
  deriving DecidableEq, Repr

/-- A fetch of the block at an address. -/
structure Fetch where
  addr : W64
  stage : FetchStage
  owner : FetchFor
  deriving DecidableEq, Repr

/-- The decision of the current block: taken or not, and the fixed continuation (09 R211). -/
structure Decision where
  taken : Bool
  cont : W64
  deriving DecidableEq, Repr

/-- How far a record has come (13 R343-R345). -/
inductive RecStage where
  /-- In its queue. -/
  | queued
  /-- Squashed by its guard (11 R276). -/
  | squashed
  /-- A chorus record that waits for the members of its collective (16 R402). -/
  | joined
  /-- Its last payload byte is visible; the arrival word and signal are to come. -/
  | written
  /-- Complete: arrival word, signal and marker accounting applied. -/
  | complete
  deriving DecidableEq, Repr

/-- A record pushed by a tile, from its push until the task ends (06 R156). -/
structure Rec where
  id : Nat
  eng : Engine
  /-- The push tick. -/
  tick : Nat
  /-- The record, patched (11 R275). -/
  bits : RecordBits
  /-- Copies of the layouts it names, patched (13 R341). -/
  lay1 : RecordBits
  lay2 : RecordBits
  /-- The guard: slot and sense (11 R276). -/
  guard : Option (BitVec 3 × Bool)
  /-- The guard resolution tick. -/
  resolved : Option Nat
  stage : RecStage
  /-- Flags owed to its acknowledgement tick (08 R189). -/
  flags : BitVec 9
  /-- The run-time fault it met: cause, detail, address (13 R345). -/
  fault : Option (Nat × Nat × W64)
  /-- The fault has been raised. -/
  told : Bool
  /-- The acknowledgement tick (06 R156). -/
  ack : Option Nat
  /-- Physical bytes it reads and writes: start and length (13 R360). -/
  reads : List (Nat × Nat)
  writes : List (Nat × Nat)
  /-- Index of its collective on its group (16 R402). -/
  coll : Nat
  /-- Granules, K steps or half-rows done: where a frozen or waiting record goes on (15 R385, 03 R81). -/
  progress : Nat
  /-- Its event of the ordering model. -/
  ev : Nat
  /-- The aligned 8 bytes of the source of a copy that its last step has read and used in part: address and bytes
  (06 R137). -/
  held : Option (Nat × List Byte) := none
  /-- Its lines count for the volume of an epoch (05 R110, R111). -/
  counted : Bool := false
  /-- A fault stopped it, and the lines that it did not write count no more. -/
  dropped : Bool := false
  deriving DecidableEq, Repr

/-- An entry of an engine queue (11 R274). -/
inductive QEntry where
  | record (id : Nat)
  | marker (n : BitVec 16) (ev : Nat)
  deriving DecidableEq, Repr

/-- An engine: its queue, the record it runs, and the tick of its last dequeue (13 R343). -/
structure EngineQ where
  entries : List QEntry
  run : Option Nat
  lastDeq : Option Nat
  deriving DecidableEq, Repr

/-- A pending PFENCE cut, taken at the end of its tick (05 R114). -/
structure Cut where
  scope : BitVec 4
  domain : Bool
  sem : BitVec 4
  ev : Nat
  deriving DecidableEq, Repr

/-- One tile of a bound domain: the state that its shadow slot holds (05 R108) and its place. -/
structure Tile where
  lt : Nat
  /-- Module cluster number; 192 + d for the supervisor tile of die d (02 R37, R39). -/
  cluster : Nat
  /-- Index within the cluster (02 R41). -/
  idx : Nat
  /-- Slot A (false) or B (05 R108). -/
  slot : Bool
  s : List W64
  v : List Lanes
  sqQ : List W64
  vxQ : List Lanes
  xcQ : List Lanes
  lsQ : List Lanes
  preds : List Pred
  targets : List TReg
  /-- The on-chip return stack, top first, and its spill count (09 R214). -/
  stack : List W64
  spills : Nat
  /-- Slots of the spill share on their way into the bottom of the stack (09 R216). -/
  refill : Nat
  /-- Spilled words that wait at the host egress for a link, by location (18 R423). -/
  owed : List (Nat × W64)
  flags : BitVec 9
  trapen : BitVec 9
  rmdyn : BitVec 3
  laneflg : W64
  sems : List (List SemOp)
  confl : BitVec 32
  rdv : List (BitVec 16)
  epoch : BitVec 32
  depoch : BitVec 32
  wins : List Win
  /-- PACE_ME, PACE_CE, PACE_CH (11 R286). -/
  pace : List (BitVec 8)
  sampctl : W64
  sampDrops : BitVec 32
  sampHead : BitVec 32
  /-- The current block, its streams, block tick, repetition and start tick (09 R202, R203). -/
  block : Block
  streams : List Stream
  btick : Nat
  rep : Nat
  start : Nat
  /-- The current block failed validation (09 R209). -/
  badBlock : Bool
  /-- The last XC word was an FP64 word issued on this domain tick (09 R208). -/
  lastF64 : Option Nat
  decision : Option Decision
  loader : List Fetch
  flights : List Flight
  /-- The four engines, ME, GU, CE, CH. -/
  engines : List EngineQ
  recs : List Rec
  /-- The tile has issued HALT at this tick (11 R269). -/
  haltTick : Option Nat
  cuts : List Cut
  latsel : W64
  faddr : W64
  deriving DecidableEq, Repr

/-- The kinds of global request (13 R323). -/
inductive GKind where | load | store | amo
  deriving DecidableEq, Repr

/-- How far a global request has come (03 R61-R70). -/
inductive GStage where
  | asked
  | walking
  /-- Translated: the location of its first byte, and whether the page is discarded. -/
  | ready (loc : Nat) (discarded : Bool)
  | failed (cause : Nat)
  /-- Served: a load's data delivered, a store performed for DOMAIN. -/
  | done
  deriving DecidableEq, Repr

/-- A global or host access of a column in progress (13 R326, 06 R151). -/
structure GOp where
  id : Nat
  kind : GKind
  lt : Nat
  tick : Nat
  va : W64
  size : Nat
  /-- The bytes stored. -/
  data : List Byte
  /-- An AMOG's operation, operand and compare value. -/
  aop : Aop
  operand : W64
  compare : W64
  stage : GStage
  /-- LDG.D decodes its elements (13 R330). -/
  decode : Bool
  /-- The tick by which it must have come: a load's or AMOG's completion, a store's issue plus Vg (09 R220). -/
  due : Nat
  /-- For a store to H: the Rentan Link has reported it visible in host memory (06 R143). -/
  seen : Bool
  deriving DecidableEq, Repr

/-- What an event of the ordering model is (06 R135). -/
inductive EvKind where
  /-- A column access. -/
  | access
  /-- The reads of a record, and its identity in the model. -/
  | record (eng : Engine)
  /-- The writes of a record other than its arrival word. -/
  | recWrite (of : Nat)
  /-- A record's arrival word. -/
  | arrival (of : Nat)
  | semsig | semwait | waitrv
  /-- A GIVE of the giving tile, and its attach at the target (06 R148). -/
  | give | attach
  /-- A marker and its queue (11 R277). -/
  | mark (eng : Engine) (n : BitVec 16)
  | fence (mask : BitVec 16) (scope : Agent) (spaces : BitVec 5)
  | pfence
  deriving DecidableEq, Repr

/-- An event (06 R135, R138): its place, class, spaces (bits K A B G H) and the physical bytes it reads and writes; of a
record's event, also the bytes as the checks of a push take them, G and H in virtual addresses (13 R360). -/
structure Ev where
  id : Nat
  kind : EvKind
  lt : Nat
  cluster : Nat
  tick : Nat
  col : Column
  cls : Option (BitVec 4)
  spaces : BitVec 5
  reads : List (Nat × Nat)
  writes : List (Nat × Nat)
  pushReads : List (Nat × Nat) := []
  pushWrites : List (Nat × Nat) := []
  /-- Earlier events that sem, arr, give, grp or WAITRV order before this one. -/
  after : List Nat
  /-- The event is ordered before every later event of its tile (SEMWAIT, WAITRV; 06 R145, R146). -/
  acquires : Bool
  /-- The tag that a record sets, once known (04 R90): two records that set one tag alike do not conflict there. -/
  tagv : Option Tag
  /-- A column access that performs at its issue tick in every space: a WAITG once released (06 R142). -/
  waited : Bool
  deriving DecidableEq, Repr

/-- A fault that is raised at a later tick than its detection (06 R158). -/
structure Deferred where
  tick : Nat
  lt : Nat
  src : Nat
  cause : Nat
  detail : Nat
  addr : W64
  /-- The pairs of events whose order decides a footprint fault at its tick (06 R157); none for a fault that is sure. -/
  pairs : Option (List (Nat × Nat))
  deriving DecidableEq, Repr

/-- A cause raised (15 R379, R382): its detection tick, tile, source, code and detail. -/
structure Cause where
  det : Nat
  lt : Nat
  src : Nat
  code : Nat
  detail : Nat
  deriving DecidableEq, Repr

/-- The part of one tile in a vote (09 R218). -/
structure Ballot where
  lt : Nat
  tick : Nat
  group : Nat
  op : VoteOp
  value : W64
  slot : BitVec 3
  pw : Bool
  ofs : Nat
  deriving DecidableEq, Repr

/-- A LEAP.D choice to compare (09 R219). -/
structure Choice where
  lt : Nat
  tick : Nat
  cont : W64
  ofs : Nat
  deriving DecidableEq, Repr

/-- A pending attach of a give or of a BMAP (04 R96, 11 R282). -/
structure Attach where
  /-- The attach tick; for a BMAP, 0. -/
  due : Nat
  giver : Nat
  /-- The window that the giver gave away. -/
  fromWin : Nat
  target : Nat
  win : Nat
  bank : Nat
  sem : BitVec 4
  /-- Events of the giver on the bank (06 R148). -/
  evs : List Nat
  ofs : Nat
  deriving DecidableEq, Repr

/-- One translation of a station's TLB (03 R63), and the partition whose walk installed it. -/
structure TlbEntry where
  station : Nat
  key : Nat
  /-- Base and size of the page, the location of its leaf, and the leaf. -/
  base : Nat
  size : Nat
  leafLoc : Nat
  leaf : W64
  deriving DecidableEq, Repr

/-- What the device has sampled at one tick, between its arrivals and its words: a probe of a later tick looks back at it
(09 R220). -/
structure Past where
  tick : Nat
  mem : List Host.Cell
  tiles : List Tile
  gops : List GOp
  /-- The frozen lines of the domain's clusters (05 R116). -/
  frozen : List (Nat × List Nat)
  /-- The translations that the stations of each die hold (03 R63). -/
  tlbs : List (List TlbEntry)
  /-- The bank service of a domain in emulated mode exceeds its latency for the accesses of the tick whose probe this is
  (02 R49). -/
  late : Bool
  deriving DecidableEq, Repr

/-- A domain's hold (09 R221): the held tick, and the lead left once released. -/
structure Hold where
  lead : Option Nat
  deriving DecidableEq, Repr

/-- How far a task's domain has come. -/
inductive Phase where
  /-- Some dies have still to bind (14 R373). -/
  | binding (dies : List Nat)
  /-- Bound; the start lead runs. -/
  | starting
  | running
  /-- Halted at its halt tick (15 R379). -/
  | halted
  /-- Its live state was lost with the power; its seals stand (05 R131). -/
  | lost
  /-- Retired or faulted, completion record written; banks wait for their epochs (05 R125). -/
  | ended
  /-- Its task-end event is applied; its epochs drain (05 R125). -/
  | freed
  deriving DecidableEq, Repr

/-- One lease or access range (03 R73, 14 R366). -/
structure Range where
  base : W64
  len : Nat
  fmt : Byte
  blk : Byte
  deriving DecidableEq, Repr

/-- A task's domain (09 R200). -/
structure Domain where
  seq : Nat
  /-- The launch packet's 128 bytes (14 R365) and its descriptor (14 R366). -/
  pkt : List Byte
  desc : List Byte
  part : Nat
  master : Nat
  ranges : List Range
  groups : List (Nat × List Nat)
  mcast : List (Nat × Nat)
  /-- A supervisor launch (14 R377). -/
  sup : Bool
  phase : Phase
  tiles : List Tile
  dtick : Nat
  holdcnt : Nat
  hold : Option Hold
  /-- Some condition of this tick was false at its probe (09 R221). -/
  probeMiss : Bool
  /-- What the probes of this tick and of the coming ones look back at, newest first (09 R220). -/
  hist : List Past
  /-- Lines that a PFENCE of a tile has frozen in the last ticks: tick, tile, lines (05 R116). -/
  froze : List (Nat × Nat × List Nat)
  /-- The hold of this tick has been released. -/
  released : Bool
  /-- The domain has held in this tick (17 R420). -/
  wasHeld : Bool
  /-- How far this tick's start has come: tiles whose periodic sample is done, then the quantum check, then the probes. -/
  begun : Nat
  gops : List GOp
  evs : List Ev
  nextId : Nat
  ballots : List Ballot
  choices : List Choice
  attaches : List Attach
  deferred : List Deferred
  causes : List Cause
  /-- The primary cause, fixed at the halt (15 R382). -/
  chief : Option Cause
  haltAt : Option Nat
  fatal : Bool
  /-- The primary cause was a restore fault, or FEND was written. -/
  endCode : Option Nat
  /-- The lead left before the domain issues again after RTE (11 R271). -/
  resume : Bool
  /-- The pre-emption asked for parking (14 R375). -/
  parked : Bool
  /-- Joined collectives by group and index that have been decided: committed or failed (16 R402). -/
  collDone : List (Nat × Nat)
  /-- Groups whose present collective has lost a flit in the torus: reason and logical tile whose data it carried, none
where the header does not tell (16 R395, R401, R407). -/
  lostFlits : List (Nat × Nat × Option Nat)
  deriving DecidableEq, Repr

/-- Use of a bank (04 R85). -/
inductive BankUse where
  | free | clearing | used | leaving
  deriving DecidableEq, Repr

/-- An epoch of a cluster (05 R123, R124). -/
inductive EpochStage where
  | waiting | committed | confirmed | applied
  deriving DecidableEq, Repr

/-- The control state of a tile in a slot image (05 R108), and its domain and its cluster's tags as they stood at the
cut. -/
structure Image where
  tile : Nat
  slot : Bool
  ctrl : Tile
  base : Domain
  tags : List Tag
  slices : List Tag
  /-- Lines that count for the tile's volumes after the cut. -/
  counted : List Nat := []
  deriving DecidableEq, Repr

/-- The part of one tile in an epoch: its control state at the cut, and the semaphore to raise. -/
structure EpochPart where
  tile : Nat
  slot : Bool
  lt : Nat
  ctrl : Option Image
  sem : Option (BitVec 4)
  cutTick : Nat
  /-- Frozen lines: location of the first byte, in journal order (05 R119). -/
  lines : List Nat
  epoch : BitVec 32
  depoch : BitVec 32
  deriving DecidableEq, Repr

structure Epoch where
  seq : Nat
  domain : Bool
  scope : BitVec 4
  halt : Nat
  parts : List EpochPart
  stage : EpochStage
  /-- The epoch belongs to a SEAL (11 R288). -/
  sealing : Bool
  deriving DecidableEq, Repr

/-- A rail of the power multiplexer (17 R410). -/
inductive Rail where | vh | vl | off
  deriving DecidableEq, Repr

/-- A cluster: its banks and tags, dirty and frozen lines, epochs, slots, and power. -/
structure Cluster where
  banks : List BankUse
  tags : List Tag
  /-- Tags of the B-store slices, tile by tile and slot by slot. -/
  slices : List Tag
  dirty : List Nat
  /-- Lines that count for a volume (05 R110, R111): those written, and those that a record pushed may have written, since an
  epoch of the program last covered them. -/
  counted : List Nat
  frozen : List Nat
  epochs : List Epoch
  /-- Control images of the slots, from the seals applied (05 R108, R124). -/
  images : List Image
  /-- Control states in the journal, not yet applied. -/
  journal : List Image
  /-- The active slot of each tile is B. -/
  activeB : List Bool
  /-- Windows of tiles without a context: tile, window, contents (11 R282). -/
  loose : List (Nat × Nat × Win)
  cpctl : W64
  qack : Bool
  sealed : Bool
  /-- A SEAL of this cluster is under way (11 R288). -/
  sealReq : Bool
  clkoff : Bool
  capturing : Bool
  rail : Rail
  /-- The rail a switch in progress goes to (17 R410). -/
  switching : Option Rail
  /-- A loss of power has taken the cluster's live state, and it has not returned (05, Unplanned loss and resume). -/
  lost : Bool
  /-- The rail in force before OFF (05 R129). -/
  before : Rail
  wakepend : Bool
  cpseal : W64
  estimate : Nat
  /-- Intervals left of a cap demotion and of a boost grant (17 R414, R416). -/
  demoted : Nat
  boost : Nat
  boostNew : Option Nat
  /-- The pacing request of the throttles (17 R412). -/
  request : Nat
  deriving DecidableEq, Repr

/-- A supervisor launch waiting for its die (14 R377), as in a launch queue. -/
structure Task where
  seq : Nat
  pkt : List Byte
  desc : List Byte
  part : Nat
  master : Nat
  deriving DecidableEq, Repr

/-- A flit in a buffer of a router (16 R394, R395, R398): the node and the port whose pool holds it, its header and
payload, and the ports it has still to leave by. -/
structure FlitAt where
  node : Nat
  from_ : Port
  header : BitVec 128
  payload : List Byte
  outs : List Port
  deriving DecidableEq, Repr

/-- A die: its supervisor registers, stations, routers and power controller. -/
structure Die where
  svsel : W64
  svhalt : List W64
  sverr : W64
  mctidx : W64
  /-- Multicast entries: router, MCID, entry (16 R400); absent reads 0. -/
  mct : List (Nat × Nat × BitVec 16)
  mrsel : W64
  tlb : List TlbEntry
  tlbinv : W64
  ptroot : List W64
  pwrlog : List W64
  intervals : Nat
  supWaiting : List Task
  /-- The firmware context is halted and parked for a supervisor launch (14 R377). -/
  fwParked : Bool
  flits : List FlitAt
  /-- What each output port served last: node and port, then input port and network (16 R398). -/
  served : List ((Nat × Port) × (Port × Nat))
  /-- Router faults seen: flits dropped for a reserved header (16 R395). -/
  dropped : Nat
  deriving DecidableEq, Repr

/-- The states of a lease handle (03 R75). -/
inductive LeaseState where | building | resident | faulted | ending
  deriving DecidableEq, Repr

/-- A lease handle that is not EMPTY (03 R73-R75). -/
structure Lease where
  handle : Nat
  part : Nat
  state : LeaseState
  ranges : List Range
  /-- The RW bit of each range (03 R74). -/
  rw : List Bool
  /-- Where the build stands: range index and address offset within it. -/
  at_ : Nat × Nat
  /-- Ranges that must be writable or executable, from the launch that built it: outputs, spill, code. -/
  needW : List (Nat × Nat)
  codeBase : Nat
  seq : Nat
  /-- A lease-build record that waits for the ring (03 R78). -/
  record : Option (List Byte)
  /-- A RELEASE has come while the record waits: the handle turns EMPTY once it is written (03 R75, R78). -/
  released : Bool
  deriving DecidableEq, Repr

/-- A partition's fault ring and sample ring (03 R79, 17 R419). -/
structure Partition where
  frbase : W64
  frsize : W64
  frhead : BitVec 32
  frtail : BitVec 32
  frstat : W64
  dwrite : W64
  srbase : W64
  srsize : W64
  srcount : Nat
  pfloor : BitVec 16
  /-- The floor in force: PFLOOR as it stood at the last boundary (17 R416). -/
  floorNow : BitVec 16
  deriving DecidableEq, Repr

/-- What reaches the launch port in one cycle: a packet by its port, a task-end event by the cluster of the domain's
lowest tile (14 R364). -/
inductive Arrival where
  | packet (port : Nat) (master : Nat) (part : Nat) (pkt : List Byte)
  | taskEnd (cluster : Nat) (of : Nat)
  deriving DecidableEq, Repr

/-- An entry of the scheduling stream (14 R364). -/
inductive StreamEntry where
  | packet (seq : Nat) (master : Nat) (part : Nat) (pkt : List Byte)
  | taskEnd (seq : Nat) (of : Nat)
  deriving DecidableEq, Repr

/-- An answer to an outside access (18 R424). -/
inductive Answer where
  | data (bytes : List Byte)
  /-- Data of which some granules, by their index in the answer, leave with the link's poison marker (18 R434). -/
  | poisoned (bytes : List Byte) (granules : List Nat)
  | error
  deriving DecidableEq, Repr

/-- Why a step can stop. -/
inductive Fault where
  /-- Raised by a meaning whose context does not exist: no such domain, tile, engine entry or pending event stands in
  the state at `cur`. No step of a reachable state chooses such a move. Safe. -/
  | noContext
  deriving DecidableEq, Repr

/-- Why an instruction is refused. -/
inductive Refusal where
  /-- Raised by Dispatch alone, for an instruction without a meaning. Safe. -/
  | notModelled (mnemonic : String)
  deriving DecidableEq, Repr

/-- Who moves: the domain, tile, column or engine and item, the die and cluster, that a word or event acts on. -/
structure Cur where
  dom : Nat
  lt : Nat
  col : Column
  eng : Engine
  item : Nat
  die : Nat
  cluster : Nat
  deriving DecidableEq, Repr

/-- The module. -/
structure State where
  cur : Cur
  domains : List Domain
  clusters : List (Nat × Cluster)
  dies : List Die
  parts : List Partition
  /-- Every byte of every storage, by location (Machine/Ops.lean), in canonical form. -/
  mem : List Host.Cell
  /-- The 128-byte granules, by location / 128, whose data fails its check code, or (true) reads with an uncorrectable
  error (18 R433-R435). -/
  flawed : List (Nat × Bool)
  lpacl : List (Nat × W64)
  macl : List (Nat × W64)
  partmap : List (Nat × W64)
  lpdrop : W64
  lqrank : List (BitVec 4)
  /-- EGBASE, EGSIZE, EGHOST of each of the 16 windows (18 R430). -/
  egress : List (W64 × W64 × W64)
  leases : List Lease
  /-- What has reached the launch port in this cycle and is not yet in the stream (14 R364). -/
  arrivals : List Arrival
  stream : List StreamEntry
  /-- The key of the next entry of the stream, unlike any other; State.seqOf gives the sequence number that it shows. -/
  nextSeq : Nat
  /-- What the numbers of the stream count from, newest first: nothing, or the last launch that a reset has kept
  (14 R364; assumption 30). -/
  seqBases : List Nat
  queues : List Task
  selected : Option Nat
  /-- The clusters kept for the selected task, for which a quantum's park makes room (14 R375). -/
  room : Option (Nat × List Nat)
  lnkst : List W64
  bootst : W64
  intst : W64
  pcap : BitVec 16
  /-- The cap in force: PCAP as it stood at the last boundary (17 R416). -/
  capNow : BitVec 16
  pcapst : W64
  mbctl : W64
  /-- Mailbox: report waiting for the second ATTEST (18 R438). -/
  signature : List Byte
  /-- The verified image's hash and version (18 R437, R438). -/
  imageHash : BitVec 256
  imageVersion : BitVec 32
  /-- Clusters fused off (02 R48); empty on a Cynte-4. -/
  fused : List Nat
  answers : List Answer
  /-- The model's own: events from outside not yet taken, the counter of free values, and the cycles passed. -/
  inputs : List Instr
  fresh : Nat
  cycle : Nat
  deriving DecidableEq, Repr

/-- A cluster after reset: its 16 banks free and RAW, clean, powered on VH, its slots A active. -/
def Cluster.reset : Cluster where
  banks := List.replicate 16 .free
  tags := List.replicate 16 Tag.raw
  slices := List.replicate 512 Tag.raw
  dirty := []
  counted := []
  frozen := []
  epochs := []
  images := []
  journal := []
  activeB := List.replicate 4 false
  loose := []
  cpctl := 0
  qack := false
  sealed := false
  sealReq := false
  clkoff := false
  capturing := false
  rail := .vh
  switching := none
  before := .vh
  wakepend := false
  cpseal := 0
  lost := false
  estimate := 0
  demoted := 0
  boost := 0
  boostNew := none
  request := 0

/-- A die after reset. -/
def Die.reset : Die where
  svsel := 0
  svhalt := []
  sverr := 0
  mctidx := 0
  mct := []
  mrsel := 0
  tlb := []
  tlbinv := 0
  ptroot := List.replicate 16 0
  pwrlog := []
  intervals := 0
  supWaiting := []
  fwParked := false
  flits := []
  served := []
  dropped := 0

/-- A partition's registers after reset (03 R79, 17 R419). -/
def Partition.reset : Partition where
  frbase := 0
  frsize := 64
  frhead := 0
  frtail := 0
  frstat := 0
  dwrite := 0
  srbase := 0
  srsize := 64
  srcount := 0
  pfloor := 0
  floorNow := 0

/-- The MACL entries of the host at reset (18 R432): V = 1, CFG = 1 for 0x3F0-0x3FF. -/
def hostMacl : List (Nat × W64) :=
  [(0x3F0, 0x81), (0x3F1, 0x81), (0x3F2, 0x81), (0x3F3, 0x81), (0x3F4, 0x81), (0x3F5, 0x81), (0x3F6, 0x81),
    (0x3F7, 0x81), (0x3F8, 0x81), (0x3F9, 0x81), (0x3FA, 0x81), (0x3FB, 0x81), (0x3FC, 0x81), (0x3FD, 0x81),
    (0x3FE, 0x81), (0x3FF, 0x81)]

/-- The module right after reset, before the boot stages run (18 R439): COLD_RESET is the first event from outside. -/
def State.reset : State where
  cur := ⟨0, 0, .sq, .me, 0, 0, 0⟩
  domains := []
  clusters := []
  dies := List.replicate 4 Die.reset
  parts := List.replicate 16 Partition.reset
  mem := []
  flawed := []
  lpacl := []
  macl := hostMacl
  partmap := []
  lpdrop := 0
  lqrank := [0, 1, 2, 3, 4, 5, 6, 7, 8, 9, 10, 11, 12, 13, 14, 15]
  egress := List.replicate 16 (0, 0, 0)
  leases := []
  arrivals := []
  stream := []
  nextSeq := 1
  seqBases := []
  queues := []
  selected := none
  room := none
  lnkst := [0, 0]
  bootst := 0
  intst := 0
  pcap := 3200
  capNow := 3200
  pcapst := 0
  mbctl := 0
  signature := []
  imageHash := 0
  imageVersion := 0
  fused := []
  answers := []
  inputs := []
  fresh := 0
  cycle := 0

end Sys2Proof.Machine
end

