-- ==== Sys2Proof/Machine/Ops.lean ====
section
/-!
DEFINITION. The named operations over storage, registers and contexts, and the one operation that raises a cause
(15 R379-R382). Every meaning goes through these.
-/

namespace Sys2Proof.Machine

/-- What a step of an instruction comes to. -/
abbrev Out := Host.Outcome State Fault Refusal

/-! ## Lists -/

/-- Element `i` replaced by its image. -/
def upd {α : Type} : List α → Nat → (α → α) → List α
  | [], _, _ => []
  | x :: xs, 0, f => f x :: xs
  | x :: xs, n + 1, f => x :: upd xs n f

/-- The value of a key in an association list, or a default. -/
def assoc {α : Type} (l : List (Nat × α)) (k : Nat) (dflt : α) : α :=
  match l with
  | [] => dflt
  | (a, x) :: r => if a = k then x else assoc r k dflt

/-- An association list with a key's value replaced or added. -/
def setAssoc {α : Type} (l : List (Nat × α)) (k : Nat) (x : α) : List (Nat × α) :=
  match l with
  | [] => [(k, x)]
  | (a, y) :: r => if a = k then (k, x) :: r else (a, y) :: setAssoc r k x

/-- An item placed before the first that it may precede. -/
def insertBy {α : Type} (le : α → α → Bool) (x : α) : List α → List α
  | [] => [x]
  | y :: r => if le x y then x :: y :: r else y :: insertBy le x r

/-- A list in order; equal items keep their order. -/
def sortBy {α : Type} (le : α → α → Bool) : List α → List α
  | [] => []
  | x :: r => insertBy le x (sortBy le r)

/-- Numbers in rising order. -/
def rising (l : List Nat) : List Nat := sortBy (fun a b => decide (a ≤ b)) l

/-! ## Locations (06 R136): every storage byte has one Nat -/

/-- Regions of 2^48 locations. -/
def region (r : Nat) : Nat := r * 2 ^ 48
/-- HBM of a die, by physical address (02 R38): 37 bits a die. -/
def locHbm (die pa : Nat) : Nat := die * 2 ^ 37 + pa
/-- Host memory, owner 4, by host address (18 R430). The host address is 64 bits wide. -/
def locHost (a : Nat) : Nat := region 65536 + a
/-- Peer memory, owner 5 (18 R431). -/
def locPeer (a : Nat) : Nat := region 2 + a
/-- A bank of a cluster (02 R52). -/
def locBank (cl bank ofs : Nat) : Nat := region 3 + cl * 2 ^ 23 + bank * 2 ^ 19 + ofs
/-- Accumulator bytes of a tile's slot, laid out as in the slot image (05 R108). -/
def locAcc (cl tile : Nat) (slot : Bool) (ofs : Nat) : Nat :=
  region 4 + ((cl * 4 + tile) * 2 + slot.toNat) * 2 ^ 17 + ofs
/-- B store of a tile as the context of a slot has it (02 R55): a context switch leaves it intact (00 R5). Assumption 85. -/
def locB (cl tile : Nat) (slot : Bool) (ofs : Nat) : Nat := region 5 + ((cl * 4 + tile) * 2 + slot.toNat) * 2 ^ 20 + ofs
/-- Record store of a tile's slot (02 R58). -/
def locRec (cl tile : Nat) (slot : Bool) (ofs : Nat) : Nat :=
  region 6 + ((cl * 4 + tile) * 2 + slot.toNat) * 2 ^ 15 + ofs
/-- Shadow plane of a cluster (05 R107). -/
def locShadow (cl ofs : Nat) : Nat := region 7 + cl * 2 ^ 25 + ofs
/-- The mailbox buffers (18 R425), the flash and the recovery aperture (18 R437). -/
def locMail (ofs : Nat) : Nat := region 8 + ofs
def locFlash (ofs : Nat) : Nat := region 9 + ofs
def locRecovery (ofs : Nat) : Nat := region 10 + ofs
/-- Tags count as locations for the ordering model (06 R157). -/
def locTag (cl bank : Nat) : Nat := region 11 + cl * 16 + bank
def locSliceTag (cl tile : Nat) (slot : Bool) (slice : Nat) : Nat :=
  region 12 + ((cl * 4 + tile) * 2 + slot.toNat) * 64 + slice
/-- The place of a slice's tag in its cluster's list. -/
def sliceAt (tile : Nat) (slot : Bool) (slice : Nat) : Nat := (2 * tile + slot.toNat) * 64 + slice

/-! ## Memory: canonical, an unlisted byte reads 0 (assumption 2) -/

/-- What an unlisted location reads as. -/
def unlisted : Byte := 0

/-- Read one byte. -/
def readCells (m : List Host.Cell) (a : Nat) : Byte :=
  match m with
  | [] => unlisted
  | (k, b) :: r => if k = a then b else readCells r a

/-- Write one byte, keeping addresses rising and leaving out entries equal to an unlisted byte. -/
def writeCells (m : List Host.Cell) (a : Nat) (b : Byte) : List Host.Cell :=
  match m with
  | [] => if b = unlisted then [] else [(a, b)]
  | (k, c) :: r =>
    if a < k then (if b = unlisted then (k, c) :: r else (a, b) :: (k, c) :: r)
    else if a = k then (if b = unlisted then r else (a, b) :: r)
    else (k, c) :: writeCells r a b

/-- The canonical form: addresses strictly rising, no entry equal to an unlisted byte. -/
def Memory.wf : List Host.Cell → Bool
  | [] => true
  | [(_, b)] => b != unlisted
  | (k, b) :: (j, c) :: r => b != unlisted && decide (k < j) && Memory.wf ((j, c) :: r)

def writeCellList (m : List Host.Cell) (a : Nat) : List Byte → List Host.Cell
  | [] => m
  | b :: bs => writeCellList (writeCells m a b) (a + 1) bs

def readCellList (m : List Host.Cell) (a : Nat) : Nat → List Byte
  | 0 => []
  | n + 1 => readCells m a :: readCellList m (a + 1) n

def State.readByte (s : State) (a : Nat) : Byte := readCells s.mem a
def State.writeByte (s : State) (a : Nat) (b : Byte) : State := { s with mem := writeCells s.mem a b }
def State.readBytes (s : State) (a n : Nat) : List Byte := readCellList s.mem a n
/-- A write of a whole granule makes its check code anew (18 R433). -/
def mended (fl : List (Nat × Bool)) (a n : Nat) : List (Nat × Bool) :=
  fl.filter (fun f => decide (f.1 * 128 < a) || decide (a + n < f.1 * 128 + 128))

def State.writeBytes (s : State) (a : Nat) (bs : List Byte) : State :=
  { s with mem := writeCellList s.mem a bs, flawed := mended s.flawed a bs.length }

/-- The flawed granules that some of the ranges touch. Assumption 74. -/
def State.flawsIn (s : State) (rs : List (Nat × Nat)) : List (Nat × Bool) :=
  s.flawed.filter (fun f => rs.any (fun r => decide (f.1 * 128 < r.1 + r.2) && decide (r.1 < f.1 * 128 + 128)))

/-- Every granule of the ranges passes its check (18 R433). -/
def State.sound (s : State) (rs : List (Nat × Nat)) : Bool := (s.flawsIn rs).isEmpty

/-- A write of a range merges with no granule that fails its check: each such granule is written whole (18 R433). -/
def State.mergeSound (s : State) (r : Nat × Nat) : Bool := (mended (s.flawsIn [r]) r.1 r.2).isEmpty

/-- The offset in a range of the first byte of a granule that fails its check. -/
def State.firstFlaw (s : State) (loc n : Nat) : Nat := ((s.flawsIn [(loc, n)]).map (fun f => f.1 * 128 - loc)).foldl min n

/-- Writes made together merge with no granule that fails its check: each such granule is written whole (18 R433). -/
def State.mergesSound (s : State) (rs : List (Nat × Nat)) : Bool :=
  (s.flawsIn rs).all (fun f => (List.range 128).all (fun i =>
    rs.any (fun r => decide (r.1 ≤ f.1 * 128 + i) && decide (f.1 * 128 + i < r.1 + r.2))))

/-- A mismatch on the way from a memory that keeps its own good copy: HBM, host memory or a peer's (18 R434). Assumption
34. -/
def passing (f : Nat × Bool) : Bool :=
  !f.2 && (decide (f.1 * 128 < region 3) || decide (region 65536 ≤ f.1 * 128))

/-- A consumer meets the flawed granules of the ranges: each uncorrectable error adds 1 to INTST.UE, saturating
(18 R435), and a granule that failed its check on the way reads right when it is fetched again (18 R434). -/
def State.countFlaws (s : State) (rs : List (Nat × Nat)) : State :=
  let met := s.flawsIn rs
  let ue := min 0xFFFF ((s.intst.extractLsb' 16 16).toNat + (met.filter (fun f => f.2)).length)
  { s with
    flawed := s.flawed.filter (fun f => !(met.contains f && passing f))
    intst := (s.intst &&& ~~~((0xFFFF : BitVec 64) <<< 16)) ||| (BitVec.ofNat 64 ue <<< 16) }

/-- A soft error may strike (18 R435; assumption 34): a corrected one adds 1 to INTST.CE and changes no value. -/
def State.strike (s : State) : State :=
  let e := Config.softError s.fresh
  let s1 := { s with fresh := s.fresh + 1 }
  if e.1 = 1 then (if s.intst.extractLsb' 0 16 = 0xFFFF then s1 else { s1 with intst := s.intst + 1 })
  else if e.1 = 2 ∨ e.1 = 3 then { s1 with flawed := (e.2, e.1 == 3) :: s.flawed.filter (fun f => f.1 != e.2) }
  else s1

/-- Little-endian number of a byte list (00 R10). -/
def fromLE : List Byte → Nat
  | [] => 0
  | b :: bs => b.toNat + 256 * fromLE bs

/-- The `n` bytes of a number, little-endian. -/
def toLE : Nat → Nat → List Byte
  | 0, _ => []
  | n + 1, x => BitVec.ofNat 8 x :: toLE n (x / 256)

def State.readLE (s : State) (a n : Nat) : Nat := fromLE (s.readBytes a n)
def State.writeLE (s : State) (a n x : Nat) : State := s.writeBytes a (toLE n x)

/-- The 32 lanes of 128 bytes (13 R328), and back. -/
def lanesOf : List Byte → Lanes
  | b0 :: b1 :: b2 :: b3 :: r => BitVec.ofNat 32 (fromLE [b0, b1, b2, b3]) :: lanesOf r
  | _ => []

def bytesOf (l : Lanes) : List Byte := l.flatMap (fun w => toLE 4 w.toNat)

/-! ## Contexts -/

def State.dom? (s : State) (k : Nat) : Option Domain := s.domains.find? (fun d => d.seq == k)

def State.updDom (s : State) (k : Nat) (f : Domain → Domain) : State :=
  { s with domains := s.domains.map (fun d => if d.seq = k then f d else d) }

/-- The sequence number of a launch or stream entry: its place after the base in force when it came, so that the first after a
reset has 1 (14 R364; assumption 30). -/
def State.seqOf (s : State) (k : Nat) : Nat := k - (s.seqBases.find? (fun b => decide (b < k))).getD 0

/-- The task has ended: its domain issues and holds nothing more. -/
def Phase.over : Phase → Bool
  | .ended => true
  | .freed => true
  | .binding _ => false
  | .starting => false
  | .running => false
  | .halted => false
  | .lost => false

def Domain.tile? (d : Domain) (lt : Nat) : Option Tile := d.tiles[lt]?

def Domain.updTile (d : Domain) (lt : Nat) (f : Tile → Tile) : Domain := { d with tiles := upd d.tiles lt f }

def State.updTile (s : State) (k lt : Nat) (f : Tile → Tile) : State := s.updDom k (fun d => d.updTile lt f)

def State.cluster (s : State) (c : Nat) : Cluster := assoc s.clusters c Cluster.reset

def State.updCluster (s : State) (c : Nat) (f : Cluster → Cluster) : State :=
  { s with clusters := setAssoc s.clusters c (f (s.cluster c)) }

def State.die (s : State) (d : Nat) : Die := s.dies.getD d Die.reset

def State.updDie (s : State) (d : Nat) (f : Die → Die) : State := { s with dies := upd s.dies d f }

def State.part (s : State) (p : Nat) : Partition := s.parts.getD p Partition.reset

def State.updPart (s : State) (p : Nat) (f : Partition → Partition) : State := { s with parts := upd s.parts p f }

/-- The tile that a word acts on. -/
def State.tile? (s : State) : Option Tile := (s.dom? s.cur.dom).bind (fun d => d.tile? s.cur.lt)

/-- A word that changes only its tile. -/
def onTile (s : State) (f : Domain → Tile → Tile) : Out :=
  match s.dom? s.cur.dom with
  | none => .fault .noContext
  | some d =>
    match d.tile? s.cur.lt with
    | none => .fault .noContext
    | some t => .next (s.updTile s.cur.dom s.cur.lt (fun _ => f d t))

/-- A word that reaches beyond its tile. -/
def onDom (s : State) (f : Domain → Tile → State) : Out :=
  match s.dom? s.cur.dom with
  | none => .fault .noContext
  | some d =>
    match d.tile? s.cur.lt with
    | none => .fault .noContext
    | some t => .next (f d t)

/-! ## The launch packet's fields (14 R365) and the timing class (02 R44, 06 R150) -/

/-- The packet field of `n` bytes at byte `o`. -/
def field (pkt : List Byte) (o n : Nat) : Nat := fromLE ((pkt.drop o).take n)

def Domain.shape (d : Domain) : Nat := field d.pkt 1 1
/-- The domain spans dies: S96 and S192. -/
def Domain.wide (d : Domain) : Bool := decide (4 ≤ d.shape)
/-- The hold lead L_H (02 R44). -/
def Domain.lead (d : Domain) : Nat := if d.wide then 64 else 24
/-- The vote latency Lv (09 R218). -/
def Domain.voteLat (d : Domain) : Nat := if d.wide then 112 else 48
/-- The visibility bound Vg (06 R150). -/
def Domain.vg (d : Domain) : Nat := if d.wide then 2000 else 1200
/-- Relaxed mode: open-mode and supervisor launches (14 R373). -/
def Domain.open_ (d : Domain) : Bool := (field d.pkt 3 1) % 2 == 1
def Domain.relaxed (d : Domain) : Bool := d.open_ || d.sup
def Domain.tickbud (d : Domain) : Nat := field d.pkt 8 4
def Domain.holdbud (d : Domain) : Nat := field d.pkt 12 4
def Domain.quantum (d : Domain) : Nat := field d.pkt 80 4
def Domain.handle (d : Domain) : Nat := field d.pkt 6 2
def Domain.paceCeiling (d : Domain) : Nat := field d.pkt 5 1

/-- The die of a module cluster number; 192 + d is die d's supervisor tile. -/
def dieOf (cl : Nat) : Nat := if cl < 192 then cl / 48 else cl - 192

/-- The host node of a fused cluster: the first working one of the other two rows of its band, in cyclic order (02 R48).
Assumption 57. -/
def hostNode (fused : List Nat) (cl : Nat) : Option Nat :=
  let r := cl % 24 / 8
  let at_ (q : Nat) : Nat := cl / 24 * 24 + 8 * q + cl % 8
  [at_ ((r + 1) % 3), at_ ((r + 2) % 3)].find? (fun c => !fused.contains c)

/-- The host of a cluster that is fused off (02 R48). -/
def State.hostOf (s : State) (cl : Nat) : Option Nat := if s.fused.contains cl then hostNode s.fused cl else none

/-- The node that a cluster's tiles run on, with the shadow plane of their slots and seals: its own, or that of its host
(02 R48, R49). -/
def State.seatOf (s : State) (cl : Nat) : Nat := (s.hostOf cl).getD cl

/-- A Rentan link carries traffic only when it is up (18 R423). Assumption 69. -/
def State.linkUp (s : State) (l : Nat) : Bool := (s.lnkst.getD l 0).extractLsb' 0 3 == 4

/-- Some link carries traffic to the host. -/
def State.hostUp (s : State) : Bool := s.linkUp 0 || s.linkUp 1

/-- A location in host memory. -/
def isHostLoc (a : Nat) : Bool := decide (region 65536 ≤ a)

/-! ## Registers and queues -/

/-- s0 reads 0 (10 R234). -/
def Tile.sreg (t : Tile) (n : BitVec 5) : W64 := if n = 0 then 0 else t.s.getD n.toNat 0

/-- A write to s0 is discarded (10 R238). -/
def Tile.setSreg (t : Tile) (n : BitVec 5) (x : W64) : Tile :=
  if n = 0 then t else { t with s := upd t.s n.toNat (fun _ => x) }

def zeroLanes : Lanes := List.replicate 32 0

def Tile.vreg (t : Tile) (n : BitVec 4) : Lanes := t.v.getD n.toNat zeroLanes

def Tile.setVreg (t : Tile) (n : BitVec 4) (x : Lanes) : Tile := { t with v := upd t.v n.toNat (fun _ => x) }

/-- An entry enters a queue as age 0; entries pushed past the depth are lost (10 R236). -/
def push {α : Type} (depth : Nat) (q : List α) (x : α) : List α := (x :: q).take depth

def Tile.pushSq (t : Tile) (x : W64) : Tile := { t with sqQ := push 16 t.sqQ x }
def Tile.pushVx (t : Tile) (x : Lanes) : Tile := { t with vxQ := push 16 t.vxQ x }
def Tile.pushXc (t : Tile) (x : Lanes) : Tile := { t with xcQ := push 8 t.xcQ x }
def Tile.pushLs (t : Tile) (x : Lanes) : Tile := { t with lsQ := push 8 t.lsQ x }

def Tile.pred (t : Tile) (p : BitVec 3) : Pred := t.preds.getD p.toNat ⟨false, false⟩

/-- A slot write sets the value and the written bit (09 R213). -/
def Tile.setPred (t : Tile) (p : BitVec 3) (v : Bool) : Tile :=
  { t with preds := upd t.preds p.toNat (fun _ => ⟨v, true⟩) }

/-- PCLR clears value and written bit of the masked slots (11 R265). -/
def clearPreds (m : BitVec 8) : Nat → List Pred → List Pred
  | _, [] => []
  | i, p :: ps => (if m.getLsbD i then ⟨false, false⟩ else p) :: clearPreds m (i + 1) ps

/-- The codes of the columns, SQ 0 to LS 3 (09 R206). -/
def colIdx : Column → Nat
  | .sq => 0
  | .vx => 1
  | .xc => 2
  | .ls => 3

/-- The halfword offset of the word that a column issued last. -/
def Tile.wordOfs (t : Tile) (c : Column) : Nat :=
  match t.streams[colIdx c]? with
  | some st => st.last
  | none => 0

/-- The order of the engines (15 R382). -/
def engIdx : Engine → Nat
  | .me => 0
  | .gu => 1
  | .ce => 2
  | .ch => 3

/-- A result under way (10 R255). -/
def Tile.send (t : Tile) (f : Flight) : Tile := { t with flights := t.flights ++ [f] }

/-- A scalar result without flags. -/
def scalarFlight (t : Tile) (now lat : Nat) (col : Column) (dest : Dest) (x : W64) : Flight :=
  { due := now + lat, issue := now, col := col, ofs := t.wordOfs col, dest := dest, val := x, lanes := [],
    raised := [], gop := none, cause := 0, owed := false }

/-- A vector result. -/
def vectorFlight (t : Tile) (now lat : Nat) (col : Column) (dest : Dest) (x : Lanes) (raised : List (BitVec 9)) :
    Flight :=
  { due := now + lat, issue := now, col := col, ofs := t.wordOfs col, dest := dest, val := 0, lanes := x,
    raised := raised, gop := none, cause := 0, owed := false }

/-- The SQ destination of a word (10 R238). -/
def dstDest : Dst → Dest
  | .reg n => .sq (some n)
  | .queue => .sq none

/-- An SQ word with a result: read at t, written at t plus its latency (11 R254, R255). -/
def sqResult (s : State) (lat : Nat) (d : Dst) (f : Domain → Tile → W64) : Out :=
  onTile s (fun dm t => t.send (scalarFlight t dm.dtick lat .sq (dstDest d) (f dm t)))

/-- Enter a result at its destination (09 R201, 10 R237, R238). -/
def Tile.enter (t : Tile) (f : Flight) : Tile :=
  match f.dest with
  | .sq none => t.pushSq f.val
  | .sq (some n) => (t.setSreg n f.val).pushSq f.val
  | .sreg n => t.setSreg n f.val
  | .vx none => t.pushVx f.lanes
  | .vx (some n) => (t.setVreg n f.lanes).pushVx f.lanes
  | .vreg n => t.setVreg n f.lanes
  | .xc => t.pushXc f.lanes
  | .ls => t.pushLs f.lanes
  | .slot p v => t.setPred p v
  | .clear m => { t with preds := clearPreds m 0 t.preds }

/-! ## Taking an exception: a cause is raised, and the domain halts a lead later (15 R379) -/

/-- Cause codes of 15 R380. -/
def cTrap := 1
def cFp := 2
def cAddress := 3
def cAlign := 4
def cFormat := 5
def cIntegrity := 6
def cTranslation := 7
def cGive := 8
def cDecision := 9
def cReturn := 10
def cBlock := 11
def cRecord := 12
def cOverflow := 13
def cChorus := 14
def cDetached := 16
def cLease := 17
def cFootprint := 18
def cDivergence := 19
def cVote := 20
def cDeadline := 21
def cRestore := 22
def cPreempt := 32
def cQuantum := 33
def cQuiesce := 34

/-- Codes 16 and up are fatal, but for the requests 32-34 (15 R380). -/
def fatalCode (c : Nat) : Bool := decide (16 ≤ c) && decide (c < 32)
def requestCode (c : Nat) : Bool := decide (32 ≤ c)

/-- The halt tick a cause requests (15 R379): a deadline fault, and a request latched while held, ask for their own
tick; every other cause asks for the lead. Assumption 71. -/
def Domain.haltTickOf (d : Domain) (c : Cause) : Nat :=
  if c.code = cDeadline ∨ (requestCode c.code ∧ d.hold.isSome) then c.det else c.det + d.lead

/-- The causes whose address the frame keeps (15 R386, FADDR). -/
def addressCause (c : Nat) : Bool := decide (3 ≤ c) && decide (c ≤ 7)

/-- Record a cause; the first address of its tile is kept (15 R386). -/
def Domain.addCause (d : Domain) (c : Cause) (addr : W64) : Domain :=
  let keep := d.causes.any (fun o => o.lt == c.lt && addressCause o.code)
  let d1 : Domain := { d with causes := d.causes ++ [c] }
  if addressCause c.code && !keep then d1.updTile c.lt (fun t => { t with faddr := addr }) else d1

/-- Raise a cause: it is recorded, and the least halt tick requested stands. -/
def Domain.raise (d : Domain) (c : Cause) (addr : W64) : Domain :=
  let h := d.haltTickOf c
  { d.addCause c addr with
    haltAt := some (match d.haltAt with | some k => min k h | none => h)
    fatal := d.fatal || fatalCode c.code }

/-- Raise a cause on the current tile at the current tick, from a column's word. -/
def State.raise (s : State) (src code detail : Nat) (addr : W64) : State :=
  s.updDom s.cur.dom (fun d => d.raise ⟨d.dtick, s.cur.lt, src, code, detail⟩ addr)

/-- Results that a column's word of the present tick has sent are suppressed into their latches under a cause
(15 R381). -/
def Domain.suppress (d : Domain) (lt : Nat) (col : Column) (code : Nat) : Domain :=
  d.updTile lt (fun t => { t with flights := t.flights.map (fun f =>
    if f.issue = d.dtick ∧ f.col = col ∧ f.cause = 0 then { f with cause := code } else f) })

/-- A word that only raises a cause. -/
def trapWord (s : State) (src code detail : Nat) (addr : W64) : Out :=
  onDom s (fun _ _ => s.raise src code detail addr)

/-- Put back a changed tile. -/
def State.put (s : State) (t : Tile) : State := s.updTile s.cur.dom s.cur.lt (fun _ => t)

/-- The next free value's index (assumption 1). -/
def State.tickFresh (s : State) : State := { s with fresh := s.fresh + 1 }

end Sys2Proof.Machine
end

