-- ==== Sys2Proof/Machine/Flags.lean ====
section
/-!
DEFINITION. The flags of FLAGS (08 R187), the lanes that LANEFLG names (08 R191), and flags that enter, with the
floating-point trap they can take (08 R189, R190).
-/

namespace Sys2Proof.Machine

/-- The flags by position (08 R187). -/
abbrev Flg := BitVec 9
def fNV : Flg := 1
def fDZ : Flg := 2
def fOF : Flg := 4
def fUF : Flg := 8
def fNX : Flg := 16
def fSAT : Flg := 32
def fISC : Flg := 64
def fIWT : Flg := 128
def fIOV : Flg := 256

/-- A flag when a condition holds. -/
def flagIf (b : Bool) (f : Flg) : Flg := if b then f else 0

/-- The OR of flags (08 R189). -/
def orFlags (l : List Flg) : Flg := l.foldl (· ||| ·) 0

/-- Bit i for each result lane i that raised one of `cause` (08 R191). -/
def laneMask (cause : Flg) : Nat → List Flg → BitVec 32
  | _, [] => 0
  | i, x :: r => (if x &&& cause != 0 then 1 <<< i else 0) ||| laneMask cause (i + 1) r

/-- LANEFLG of a trap: the enabled flags raised, and the lanes (08 R191). -/
def laneflgOf (cause : Flg) (raised : List Flg) : W64 :=
  (cause.setWidth 64 <<< 32) ||| (laneMask cause 0 raised).setWidth 64

/-- Flags of a store enter at its issue tick; a trap they take has no latch and marks lane 0 (08 R189-R191). -/
def Domain.enterStoreFlags (d : Domain) (lt : Nat) (f : Flg) : Domain :=
  match d.tile? lt with
  | none => d
  | some t =>
    let cause := t.trapen &&& f
    let d1 := d.updTile lt (fun t => { t with
      flags := t.flags ||| f
      laneflg := if cause = 0 then t.laneflg else laneflgOf cause [f] })
    if cause = 0 then d1 else d1.raise ⟨d.dtick, lt, 3, cFp, 0⟩ 0

end Sys2Proof.Machine
end

