-- ==== Sys2Proof/Machine/Float.lean ====
section
/-!
DEFINITION. Floating-point numbers (08): formats, exact values, one rounding, and the operations of the VX column on
one lane. An exact value is a sign, a natural number and a power of two; bit patterns are natural numbers.
-/

namespace Sys2Proof.Machine

/-- A format by the widths of its exponent and fraction (08 R173, R175). -/
structure FpFormat where
  ebits : Nat
  fbits : Nat
  deriving DecidableEq, Repr

def fp64F : FpFormat := ⟨11, 52⟩
def fp32F : FpFormat := ⟨8, 23⟩
def fp16F : FpFormat := ⟨5, 10⟩
def bf16F : FpFormat := ⟨8, 7⟩
def e4m3F : FpFormat := ⟨4, 3⟩
def e5m2F : FpFormat := ⟨5, 2⟩

/-- Significand bits, the hidden bit among them. -/
def FpFormat.prec (f : FpFormat) : Nat := f.fbits + 1
def FpFormat.bias (f : FpFormat) : Nat := 2 ^ (f.ebits - 1) - 1
/-- The power of two of the smallest subnormal. -/
def FpFormat.qmin (f : FpFormat) : Int := 1 - (f.bias : Int) - f.fbits
def FpFormat.infBits (f : FpFormat) : Nat := (2 ^ f.ebits - 1) * 2 ^ f.fbits
def FpFormat.signBits (f : FpFormat) (neg : Bool) : Nat := if neg then 2 ^ (f.ebits + f.fbits) else 0
def FpFormat.quietBit (f : FpFormat) : Nat := 2 ^ (f.fbits - 1)
/-- The canonical NaN (08 R173). -/
def FpFormat.canonical (f : FpFormat) : Nat := f.infBits + f.quietBit

/-- What a bit pattern stands for: a number is (−1)^neg · m · 2^e. -/
inductive Fp where
  | nan (neg : Bool) (frac : Nat)
  | inf (neg : Bool)
  | num (neg : Bool) (m : Nat) (e : Int)
  deriving DecidableEq, Repr

/-- Decode an IEEE pattern (08 R173). -/
def FpFormat.decode (f : FpFormat) (x : Nat) : Fp :=
  let neg := x.testBit (f.ebits + f.fbits)
  let frac := x % 2 ^ f.fbits
  let ex := x / 2 ^ f.fbits % 2 ^ f.ebits
  if ex = 2 ^ f.ebits - 1 then (if frac = 0 then .inf neg else .nan neg frac)
  else if ex = 0 then .num neg frac f.qmin
  else .num neg (frac + 2 ^ f.fbits) (f.qmin + (ex : Int) - 1)

/-- Decode an E4M3 pattern (08 R175, R176); its NaN is quiet with no payload. -/
def decodeE4m3 (x : Nat) : Fp :=
  if x % 128 = 127 then .nan (x.testBit 7) 4
  else
    let ex := x / 8 % 16
    if ex = 0 then .num (x.testBit 7) (x % 8) (-9) else .num (x.testBit 7) (x % 8 + 8) ((ex : Int) - 10)

def FpFormat.isNan (f : FpFormat) (x : Nat) : Bool :=
  match f.decode x with
  | .nan _ _ => true
  | .inf _ => false
  | .num .. => false

/-- A signalling NaN (08 R173). -/
def FpFormat.isSig (f : FpFormat) (x : Nat) : Bool :=
  match f.decode x with
  | .nan _ fr => decide (fr < f.quietBit)
  | .inf _ => false
  | .num .. => false

/-- The quiet form of a NaN pattern (08 R184). -/
def FpFormat.quiet (f : FpFormat) (x : Nat) : Nat := x ||| f.quietBit

/-- The first NaN of the operands, quieted (08 R184). -/
def FpFormat.firstNan (f : FpFormat) (xs : List Nat) : Option Nat := (xs.find? f.isNan).map f.quiet

/-- NV when some operand is a signalling NaN. -/
def FpFormat.sigFlag (f : FpFormat) (xs : List Nat) : Flg := flagIf (xs.any f.isSig) fNV

/-! ## Rounding (08 R180-R182) -/

/-- Whether a magnitude is rounded up: the mode, the sign, the last kept bit, how what is cut off compares with half,
and whether anything is cut off. -/
def roundsUp (mode : Rm) (neg odd : Bool) (half : Ordering) (inexact : Bool) : Bool :=
  match mode with
  | .rne => half == .gt || (half == .eq && odd)
  | .rna => half == .gt || half == .eq
  | .rtz => false
  | .rup => inexact && !neg
  | .rdn => inexact && neg
  | .dyn => half == .gt || (half == .eq && odd)

/-- Round m · 2^e, and a little more when `sticky`, to a multiple of 2^q: the multiple and whether it is inexact. -/
def roundAt (mode : Rm) (neg : Bool) (m : Nat) (e : Int) (sticky : Bool) (q : Int) : Nat × Bool :=
  let d := (q - e).toNat
  if m.log2 + 2 < d then
    let ix := m != 0 || sticky
    (if roundsUp mode neg false .lt ix then 1 else 0, ix)
  else
    let k := if q ≤ e then m * 2 ^ (e - q).toNat else m / 2 ^ d
    let r := if q ≤ e then 0 else m % 2 ^ d
    let ix := r != 0 || sticky
    let half : Ordering := if d = 0 then .lt else
      match compare (2 * r) (2 ^ d) with
      | .lt => .lt
      | .gt => .gt
      | .eq => if sticky then .gt else .eq
    (if roundsUp mode neg (k % 2 == 1) half ix then k + 1 else k, ix)

/-- The magnitude pattern of an exact value rounded once, whether it is inexact, and whether it is tiny after rounding
(08 R182). A pattern of `infBits` or more is an overflow. -/
def FpFormat.roundMag (f : FpFormat) (mode : Rm) (neg : Bool) (m : Nat) (e : Int) (sticky : Bool) : Nat × Bool × Bool :=
  let len : Int := if m = 0 then 0 else m.log2 + 1
  let q0 := e + len - f.prec
  let q := max q0 f.qmin
  let (k, ix) := roundAt mode neg m e sticky q
  let tiny := decide (q0 < f.qmin) &&
    !(decide (q0 = f.qmin - 1) && (roundAt mode neg m e sticky q0).1 == 2 ^ f.prec)
  ((q - f.qmin).toNat * 2 ^ f.fbits + k, ix, tiny)

/-- Round an exact value once, with the flags and the overflow results of 08 R182. -/
def FpFormat.round (f : FpFormat) (mode : Rm) (neg : Bool) (m : Nat) (e : Int) (sticky : Bool) : Nat × Flg :=
  if m = 0 && !sticky then (f.signBits neg, 0)
  else
    let (mag, ix, tiny) := f.roundMag mode neg m e sticky
    if f.infBits ≤ mag then
      let toInf := match mode with
        | .rne => true
        | .rna => true
        | .rtz => false
        | .rup => !neg
        | .rdn => neg
        | .dyn => true
      (f.signBits neg + (if toInf then f.infBits else f.infBits - 1), fOF ||| fNX)
    else (f.signBits neg + mag, flagIf ix fNX ||| flagIf (ix && tiny) fUF)

/-! ## Exact sums and products -/

/-- A signed dyadic number m · 2^e. -/
structure Dyadic where
  m : Int
  e : Int
  deriving DecidableEq, Repr

def signed (neg : Bool) (m : Nat) : Int := if neg then -(m : Int) else m

def Dyadic.add (a b : Dyadic) : Dyadic :=
  if a.m = 0 then b else if b.m = 0 then a else
  let e := min a.e b.e
  ⟨a.m * 2 ^ (a.e - e).toNat + b.m * 2 ^ (b.e - e).toNat, e⟩

def Dyadic.mul (a b : Dyadic) : Dyadic := ⟨a.m * b.m, a.e + b.e⟩

/-- Round an exact sum; an exact zero takes its sign by 12 R297 from the signs of its two terms. -/
def FpFormat.roundSum (f : FpFormat) (mode : Rm) (n1 n2 : Bool) (x : Dyadic) : Nat × Flg :=
  if x.m = 0 then (f.signBits (if n1 == n2 then n1 else mode == .rdn), 0)
  else f.round mode (decide (x.m < 0)) x.m.natAbs x.e false

/-- Fused multiply-add: (−1)^np · a · b + (−1)^nc · c, rounded once (12 R298). -/
def FpFormat.fma (f : FpFormat) (mode : Rm) (np nc : Bool) (a b c : Nat) : Nat × Flg :=
  let bad := match f.decode a, f.decode b with
    | .num _ m _, .inf _ => m == 0
    | .inf _, .num _ m _ => m == 0
    | _, _ => false
  let fl := f.sigFlag [a, b, c] ||| flagIf bad fNV
  match f.firstNan [a, b, c] with
  | some r => (r, fl)
  | none =>
    if bad then (f.canonical, fl) else
    match f.decode a, f.decode b, f.decode c with
    | .num sa ma ea, .num sb mb eb, .num sc mc ec =>
      let n1 := (sa != sb) != np
      let n2 := sc != nc
      f.roundSum mode n1 n2 (Dyadic.add ⟨signed n1 (ma * mb), ea + eb⟩ ⟨signed n2 mc, ec⟩)
    | .num _ _ _, .num _ _ _, .inf sc => (f.signBits (sc != nc) + f.infBits, 0)
    | x, y, z =>
      let neg (v : Fp) : Bool := match v with
        | .nan s _ => s
        | .inf s => s
        | .num s _ _ => s
      let n1 := (neg x != neg y) != np
      match z with
      | .inf sc => if (sc != nc) == n1 then (f.signBits n1 + f.infBits, 0) else (f.canonical, fNV)
      | _ => (f.signBits n1 + f.infBits, 0)

/-- a + b, or a − b with `sub`, rounded once (12 R301). -/
def FpFormat.add (f : FpFormat) (mode : Rm) (sub : Bool) (a b : Nat) : Nat × Flg :=
  match f.firstNan [a, b] with
  | some r => (r, f.sigFlag [a, b])
  | none =>
    match f.decode a, f.decode b with
    | .num sa ma ea, .num sb mb eb =>
      f.roundSum mode sa (sb != sub) (Dyadic.add ⟨signed sa ma, ea⟩ ⟨signed (sb != sub) mb, eb⟩)
    | .inf sa, .inf sb => if sa == (sb != sub) then (a, 0) else (f.canonical, fNV)
    | .inf _, _ => (a, 0)
    | _, .inf sb => (f.signBits (sb != sub) + f.infBits, 0)
    | _, _ => (f.canonical, 0)

/-- a · b, rounded once (12 R301). -/
def FpFormat.mul (f : FpFormat) (mode : Rm) (a b : Nat) : Nat × Flg :=
  match f.firstNan [a, b] with
  | some r => (r, f.sigFlag [a, b])
  | none =>
    match f.decode a, f.decode b with
    | .num sa ma ea, .num sb mb eb => f.round mode (sa != sb) (ma * mb) (ea + eb) false
    | .inf sa, .inf sb => (f.signBits (sa != sb) + f.infBits, 0)
    | .inf sa, .num sb m _ => if m = 0 then (f.canonical, fNV) else (f.signBits (sa != sb) + f.infBits, 0)
    | .num sa m _, .inf sb => if m = 0 then (f.canonical, fNV) else (f.signBits (sa != sb) + f.infBits, 0)
    | _, _ => (f.canonical, 0)

/-! ## Order -/

/-- A number's place in the order of its format, −0 below +0. -/
def FpFormat.key (f : FpFormat) (x : Nat) : Int :=
  let mag := x % 2 ^ (f.ebits + f.fbits)
  if x.testBit (f.ebits + f.fbits) then -(mag : Int) - 1 else mag

/-- The magnitude is zero. -/
def FpFormat.isZero (f : FpFormat) (x : Nat) : Bool := x % 2 ^ (f.ebits + f.fbits) == 0

/-- a < b of two numbers; +0 equals −0. -/
def FpFormat.less (f : FpFormat) (a b : Nat) : Bool :=
  decide (f.key a < f.key b) && !(f.isZero a && f.isZero b)

def FpFormat.same (f : FpFormat) (a b : Nat) : Bool := a == b || (f.isZero a && f.isZero b)

/-- IEEE minimum and maximum (12 R302). -/
def FpFormat.minmax (f : FpFormat) (max : Bool) (a b : Nat) : Nat × Flg :=
  match f.firstNan [a, b] with
  | some r => (r, f.sigFlag [a, b])
  | none => (if decide (f.key a < f.key b) == max then b else a, 0)

/-- IEEE minimumNumber and maximumNumber (12 R302). -/
def FpFormat.minmaxNum (f : FpFormat) (max : Bool) (a b : Nat) : Nat × Flg :=
  match f.isNan a, f.isNan b with
  | true, true => (f.quiet a, f.sigFlag [a, b])
  | true, false => (b, f.sigFlag [a, b])
  | false, true => (a, f.sigFlag [a, b])
  | false, false => (if decide (f.key a < f.key b) == max then b else a, 0)

/-- The compares of 12 R304. -/
inductive FCmp where | eq | lt | le | un
  deriving DecidableEq, Repr

def FpFormat.cmp (f : FpFormat) (c : FCmp) (a b : Nat) : Bool × Flg :=
  let un := f.isNan a || f.isNan b
  match c with
  | .eq => (!un && f.same a b, f.sigFlag [a, b])
  | .lt => (!un && f.less a b, flagIf un fNV)
  | .le => (!un && (f.less a b || f.same a b), flagIf un fNV)
  | .un => (un, f.sigFlag [a, b])

/-! ## Rounding to integers, scaling, conversions -/

/-- Round to an integral value of the same format (12 R305). -/
def FpFormat.rint (f : FpFormat) (mode : Rm) (a : Nat) : Nat × Flg :=
  match f.decode a with
  | .nan _ _ => (f.quiet a, f.sigFlag [a])
  | .inf _ => (a, 0)
  | .num s m e =>
    if 0 ≤ e then (a, 0)
    else
      let (k, ix) := roundAt mode s m e false 0
      ((f.round .rne s k 0 false).1, flagIf ix fNX)

/-- a · 2^n, rounded once (12 R306). -/
def FpFormat.scalb (f : FpFormat) (mode : Rm) (a : Nat) (n : Int) : Nat × Flg :=
  match f.decode a with
  | .nan _ _ => (f.quiet a, f.sigFlag [a])
  | .inf _ => (a, 0)
  | .num s m e => f.round mode s m (e + n) false

/-- Convert a decoded value of format g to f, rounded once; a NaN keeps sign and payload, quieted (08 R184). -/
def FpFormat.convert (f g : FpFormat) (mode : Rm) (x : Nat) : Nat × Flg :=
  match g.decode x with
  | .nan s fr =>
    let fr1 := if f.fbits ≤ g.fbits then fr / 2 ^ (g.fbits - f.fbits) else fr * 2 ^ (f.fbits - g.fbits)
    (f.signBits s + f.quiet (f.infBits + fr1), g.sigFlag [x])
  | .inf s => (f.signBits s + f.infBits, 0)
  | .num s m e => f.round mode s m e false

/-- FP32 of a signed integer (12 R308). -/
def intToFp32 (mode : Rm) (x : Int) : Nat × Flg := fp32F.round mode (decide (x < 0)) x.natAbs 0 false

/-- Saturated signed INT32 of an FP32 value (12 R309). -/
def fp32ToInt (mode : Rm) (a : Nat) : BitVec 32 × Flg :=
  match fp32F.decode a with
  | .nan _ _ => (0, fNV)
  | .inf s => (if s then 0x80000000 else 0x7FFFFFFF, fNV)
  | .num s m e =>
    let (k, ix) := roundAt mode s m e false 0
    let x := signed s k
    if x > 2147483647 then (0x7FFFFFFF, fNV)
    else if x < -2147483648 then (0x80000000, fNV)
    else (BitVec.ofInt 32 x, flagIf ix fNX)

/-! ## FP8 (08 R185, R186) -/

/-- An exact value into E4M3 (false) or E5M2 (true), RNE. -/
def fp8Number (e5 sat neg : Bool) (m : Nat) (e : Int) : Nat × Flg :=
  let f := if e5 then e5m2F else e4m3F
  if m = 0 then (f.signBits neg, 0)
  else
    let (mag, ix, tiny) := f.roundMag .rne neg m e false
    let top := if e5 then 0x7B else 0x7E
    if top < mag then
      if sat then (f.signBits neg + top, fSAT ||| fNX)
      else (f.signBits neg + (if e5 then 0x7C else 0x7F), fOF ||| fNX)
    else (f.signBits neg + mag, flagIf ix fNX ||| flagIf (ix && tiny) fUF)

def fp8Inf (e5 sat neg : Bool) : Nat × Flg :=
  let s := e4m3F.signBits neg
  if sat then (s + (if e5 then 0x7B else 0x7E), fSAT)
  else if e5 then (s + 0x7C, 0) else (s + 0x7F, fNV)

/-- An FP32 NaN into E4M3 or E5M2 (08 R184). -/
def fp8Nan (e5 : Bool) (x : Nat) : Nat :=
  if e5 then (e5m2F.convert fp32F .rne x).1 else e4m3F.signBits (x.testBit 31) + 0x7F

/-- An FP32 value into E4M3 or E5M2 (08 R185). -/
def fp32ToFp8 (e5 sat : Bool) (x : Nat) : Nat × Flg :=
  match fp32F.decode x with
  | .nan _ _ => (fp8Nan e5 x, fp32F.sigFlag [x])
  | .inf s => fp8Inf e5 sat s
  | .num s m e => fp8Number e5 sat s m e

/-- The exact product a · b of FP32 values into E4M3 or E5M2 (12 R314). -/
def mulToFp8 (e5 sat : Bool) (a b : Nat) : Nat × Flg :=
  match fp32F.firstNan [a, b] with
  | some r => (fp8Nan e5 r, fp32F.sigFlag [a, b])
  | none =>
    match fp32F.decode a, fp32F.decode b with
    | .num sa ma ea, .num sb mb eb => fp8Number e5 sat (sa != sb) (ma * mb) (ea + eb)
    | .inf sa, .inf sb => fp8Inf e5 sat (sa != sb)
    | .inf sa, .num sb m _ => if m = 0 then (fp8Nan e5 fp32F.canonical, fNV) else fp8Inf e5 sat (sa != sb)
    | .num sa m _, .inf sb => if m = 0 then (fp8Nan e5 fp32F.canonical, fNV) else fp8Inf e5 sat (sa != sb)
    | _, _ => (fp8Nan e5 fp32F.canonical, 0)

/-- The FP32 pattern of an exact value that needs no rounding. -/
def exactFp32 : Fp → Nat
  | .nan s _ => fp32F.signBits s + fp32F.canonical
  | .inf s => fp32F.signBits s + fp32F.infBits
  | .num s m e => (fp32F.round .rne s m e false).1

/-- The FP32 value of an E4M3 byte (08 R184, R186). -/
def e4m3ToFp32 (x : Nat) : Nat := exactFp32 (decodeE4m3 x)

/-- The FP32 value of an E5M2 byte; a NaN copies its mantissa bits without quieting (08 R184). -/
def e5m2ToFp32 (x : Nat) : Nat :=
  match e5m2F.decode x with
  | .nan s fr => fp32F.signBits s + fp32F.infBits + fr * 2 ^ 21
  | v => exactFp32 v

def fp8ToFp32 (e5 : Bool) (x : Nat) : Nat := if e5 then e5m2ToFp32 x else e4m3ToFp32 x

/-- The FP32 value of an FP16 pattern (12 R316). -/
def fp16ToFp32 (x : Nat) : Nat × Flg := fp32F.convert fp16F .rne x

/-- The trits of a TERN5 byte, and whether the byte is 243 or more (08 R178). -/
def tritOf (byte i : Nat) : Int := if 243 ≤ byte then 0 else ((byte / 3 ^ i % 3 : Nat) : Int) - 1

end Sys2Proof.Machine
end

