-- ==== Sys2Proof/Machine/FloatFn.lean ====
section
/-!
DEFINITION. The correctly rounded functions of the XC column (12 R319, R320). The algebraic ones are computed exactly;
the transcendental ones are enclosed ever more tightly in fixed point until both ends round alike (assumption 12).
-/

namespace Sys2Proof.Machine

/-- The functions of one operand. -/
inductive Fn where
  | exp | exp2 | log | log2 | erf | erfc | sqrt | rsqrt | rcp | tanh | sigm | expm1 | log1p
  deriving DecidableEq, Repr

/-- The integer square root, bit by bit. -/
def isqrtFrom (n : Nat) : Nat → Nat → Nat
  | 0, r => r
  | i + 1, r => let t := r + 2 ^ i; isqrtFrom n i (if t * t ≤ n then t else r)

def isqrt (n : Nat) : Nat := isqrtFrom n (n.log2 / 2 + 1) 0

/-! ## Fixed point with w fraction bits -/

def toFixed (x : Dyadic) (w : Nat) : Int :=
  let s := x.e + w
  if 0 ≤ s then x.m * 2 ^ s.toNat else x.m / 2 ^ (-s).toNat

/-- s + s^3/3 + s^5/5 + … from the term of odd index i. -/
def atanhFrom (w s2 : Nat) : Nat → Nat → Nat → Nat → Nat
  | 0, _, _, acc => acc
  | fuel + 1, i, t, acc => if t = 0 then acc else atanhFrom w s2 fuel (i + 2) (t * s2 / 2 ^ w) (acc + t / i)

def atanhFixed (w s : Nat) : Nat := atanhFrom w (s * s / 2 ^ w) (w + 8) 1 s 0

/-- ln 2 = 2 artanh(1/3). -/
def ln2Fixed (w : Nat) : Nat := 2 * atanhFixed w (2 ^ w / 3)

/-- arctan(1/q), alternating. -/
def atanFrom (q : Nat) : Nat → Nat → Nat → Bool → Int → Int
  | 0, _, _, _, acc => acc
  | fuel + 1, i, t, neg, acc =>
    if t = 0 then acc else atanFrom q fuel (i + 2) (t / (q * q)) (!neg) (if neg then acc - (t / i : Nat) else acc + (t / i : Nat))

/-- π = 16 arctan(1/5) − 4 arctan(1/239). -/
def piFixed (w : Nat) : Nat :=
  (16 * atanFrom 5 (w + 8) 1 (2 ^ w / 5) false 0 - 4 * atanFrom 239 (w + 8) 1 (2 ^ w / 239) false 0).toNat

/-- e^r for 0 ≤ r < 1. -/
def expFrom (w r : Nat) : Nat → Nat → Nat → Nat → Nat
  | 0, _, _, acc => acc
  | fuel + 1, i, t, acc => if t = 0 then acc else expFrom w r fuel (i + 1) (t * r / 2 ^ w / i) (acc + t)

def expFixed (w r : Nat) : Nat := expFrom w r (w + 8) 1 (2 ^ w) 0

/-- e^y as E · 2^(n − w). -/
def expParts (w : Nat) (y : Dyadic) : Nat × Int :=
  let l := ln2Fixed w
  let v := toFixed y w
  let n := v / (l : Int)
  (expFixed w (v - n * l).toNat, n)

/-- 2^y as E · 2^(n − w). -/
def exp2Parts (w : Nat) (y : Dyadic) : Nat × Int :=
  let v := toFixed y w
  let n := v / 2 ^ w
  (expFixed w ((v - n * 2 ^ w).toNat * ln2Fixed w / 2 ^ w), n)

/-- ln of a positive number m · 2^e. -/
def lnFixed (w m : Nat) (e : Int) : Int :=
  let p := 2 ^ m.log2
  (e + m.log2) * ln2Fixed w + 2 * (atanhFixed w ((m - p) * 2 ^ w / (m + p)) : Nat)

/-- x + 2x^3/3 + 4x^5/15 + …, the sum that erf scales by (2/√π)·e^(−x²). -/
def erfFrom (w x2 : Nat) : Nat → Nat → Nat → Nat → Nat
  | 0, _, _, acc => acc
  | fuel + 1, i, t, acc => if t = 0 then acc else erfFrom w x2 fuel (i + 2) (t * x2 * 2 / (i + 2) / 2 ^ w) (acc + t)

/-- erf of a number from 0 to 30. -/
def erfFixed (w : Nat) (x : Dyadic) : Nat :=
  let v := (toFixed x w).toNat
  let s := erfFrom w (v * v / 2 ^ w) (w + 8192) 1 v 0
  let (g, n) := expParts w ⟨-(x.m * x.m), x.e + x.e⟩
  let p := s * g / 2 ^ ((w : Int) - n).toNat
  2 * p * 2 ^ w / isqrt (piFixed w * 2 ^ w)

/-! ## Enclosures -/

/-- lo · 2^e < the value < hi · 2^e. -/
structure Encl where
  lo : Int
  hi : Int
  e : Int
  deriving DecidableEq, Repr

/-- What the fixed-point sums can be off by, in last places. -/
def slack : Nat := 2 ^ 32

def around (c : Int) (e : Int) : Encl := ⟨c - slack, c + slack, e⟩

/-- |x| ≥ 2^k of a number. -/
def atLeastPow (m : Nat) (e : Int) (k : Int) : Bool := decide (k ≤ e + m.log2)

/-- An enclosure of a transcendental function at a nonzero number with w bits. -/
def Fn.enclose (fn : Fn) (w : Nat) (neg : Bool) (m : Nat) (e : Int) : Encl :=
  let x : Dyadic := ⟨signed neg m, e⟩
  let one : Int := 2 ^ w
  let big := atLeastPow m e 11
  let tiny : Encl := ⟨0, 1, -2000⟩
  let huge : Encl := ⟨2 ^ 2000, 2 ^ 2001, 0⟩
  let near1 : Encl := ⟨2 ^ 2000 - 1, 2 ^ 2000, -2000⟩
  match fn with
  | .exp => if big then (if neg then tiny else huge) else
    let (g, n) := expParts w x
    around g (n - w)
  | .exp2 => if big then (if neg then tiny else huge) else
    let (g, n) := exp2Parts w x
    around g (n - w)
  | .expm1 => if big then (if neg then ⟨-(2 ^ 2000), 1 - 2 ^ 2000, -2000⟩ else huge) else
    let (g, n) := expParts w x
    if n < 0 then around (g - one * 2 ^ (-n).toNat) (n - w)
    else ⟨(g - slack) * 2 ^ n.toNat - one, (g + slack) * 2 ^ n.toNat - one, -w⟩
  | .log => around (lnFixed w m e) (-w)
  | .log2 =>
    let p := 2 ^ m.log2
    let a : Int := 2 * (atanhFixed w ((m - p) * 2 ^ w / (m + p)) : Nat)
    around ((e + m.log2) * one + a * one / (ln2Fixed w : Int)) (-w)
  | .log1p =>
    let y := Dyadic.add ⟨1, 0⟩ x
    around (lnFixed w y.m.toNat y.e) (-w)
  | .erf => if atLeastPow m e 5 then (if neg then ⟨-near1.hi, -near1.lo, -2000⟩ else near1) else
    let v := (erfFixed w ⟨m, e⟩ : Int)
    around (if neg then -v else v) (-w)
  | .erfc => if atLeastPow m e 5 then (if neg then ⟨2 ^ 2001 - 1, 2 ^ 2001, -2000⟩ else ⟨0, 1, -1200⟩) else
    let v := (erfFixed w ⟨m, e⟩ : Int)
    around (if neg then one + v else one - v) (-w)
  | .tanh => if big then (if neg then ⟨-near1.hi, -near1.lo, -2000⟩ else near1) else
    let (g, n) := expParts w ⟨m, e + 1⟩
    let a : Int := g * 2 ^ n.toNat
    let v := (a - one) * one / (a + one)
    around (if neg then -v else v) (-w)
  | .sigm => if big then (if neg then tiny else near1) else
    let (g, n) := expParts w x
    if 0 ≤ n then
      let a : Int := g * 2 ^ n.toNat
      around (a * one / (a + one)) (-w)
    else
      let b : Int := one * 2 ^ (-n).toNat
      around (g * b / (g + b)) (n - w)
  | .sqrt => tiny
  | .rsqrt => tiny
  | .rcp => tiny

/-- Both ends of an enclosure round alike. -/
def FpFormat.settle (f : FpFormat) (mode : Rm) (b : Encl) : (Nat × Flg) × Bool :=
  if 0 ≤ b.lo then
    let r := f.round mode false b.lo.toNat b.e true
    (r, r == f.round mode false (b.hi - 1).toNat b.e true)
  else if b.hi ≤ 0 then
    let r := f.round mode true (-b.hi).toNat b.e true
    (r, r == f.round mode true (-b.lo - 1).toNat b.e true)
  else ((0, 0), false)

/-- Tighten until settled: 128 bits, doubled at most seven times. -/
def FpFormat.tighten (f : FpFormat) (fn : Fn) (mode : Rm) (neg : Bool) (m : Nat) (e : Int) : Nat → Nat → Nat × Flg
  | 0, w => (f.settle mode (fn.enclose w neg m e)).1
  | fuel + 1, w =>
    match f.settle mode (fn.enclose w neg m e) with
    | (r, true) => r
    | (_, false) => f.tighten fn mode neg m e fuel (2 * w)

/-- m1 · 2^e1 over m2 · 2^e2, rounded once. -/
def FpFormat.quotient (f : FpFormat) (mode : Rm) (neg : Bool) (m1 : Nat) (e1 : Int) (m2 : Nat) (e2 : Int) :
    Nat × Flg :=
  let k := 120 + m2.log2
  f.round mode neg (m1 * 2 ^ k / m2) (e1 - e2 - k) (m1 * 2 ^ k % m2 != 0)

/-- m · 2^e with an even exponent. -/
def evenExp (m : Nat) (e : Int) : Nat × Int := if e % 2 = 0 then (m, e / 2) else (2 * m, e / 2)

def FpFormat.root (f : FpFormat) (mode : Rm) (m : Nat) (e : Int) : Nat × Flg :=
  let (m1, h) := evenExp m e
  let n := m1 * 4 ^ 120
  let r := isqrt n
  f.round mode false r (h - 120) (r * r != n)

def FpFormat.invRoot (f : FpFormat) (mode : Rm) (m : Nat) (e : Int) : Nat × Flg :=
  let (m1, h) := evenExp m e
  let k := 120 + m1.log2
  let r := isqrt (4 ^ k / m1)
  f.round mode false r (-h - k) (r * r * m1 != 4 ^ k)

/-- A function of a nonzero number inside its domain (12 R319). The exact cases of EXP2 and LOG2 come first. -/
def FpFormat.finite (f : FpFormat) (fn : Fn) (mode : Rm) (neg : Bool) (m : Nat) (e : Int) : Nat × Flg :=
  match fn with
  | .sqrt => f.root mode m e
  | .rsqrt => f.invRoot mode m e
  | .rcp => f.quotient mode neg 1 0 m e
  | .exp2 =>
    let whole := decide (0 ≤ e) || m % 2 ^ (-e).toNat == 0
    if whole && !atLeastPow m e 11 then f.round mode false 1 (toFixed ⟨signed neg m, e⟩ 0) false
    else f.tighten fn mode neg m e 7 128
  | .log2 =>
    let n := e + m.log2
    if m = 2 ^ m.log2 then f.round mode (decide (n < 0)) n.natAbs 0 false else f.tighten fn mode neg m e 7 128
  | _ => f.tighten fn mode neg m e 7 128

/-- One. -/
def FpFormat.one (f : FpFormat) : Nat := f.bias * 2 ^ f.fbits
/-- 2 and 0.5. -/
def FpFormat.two (f : FpFormat) : Nat := (f.bias + 1) * 2 ^ f.fbits
def FpFormat.half (f : FpFormat) : Nat := (f.bias - 1) * 2 ^ f.fbits

/-- The value at a signed infinity (12 R320). -/
def FpFormat.atInf (f : FpFormat) (fn : Fn) (neg : Bool) : Nat × Flg :=
  let invalid := (f.canonical, fNV)
  let pinf := (f.infBits, (0 : Flg))
  match fn with
  | .exp => if neg then (0, 0) else pinf
  | .exp2 => if neg then (0, 0) else pinf
  | .expm1 => if neg then (f.signBits true + f.one, 0) else pinf
  | .log => if neg then invalid else pinf
  | .log2 => if neg then invalid else pinf
  | .log1p => if neg then invalid else pinf
  | .erf => (f.signBits neg + f.one, 0)
  | .erfc => if neg then (f.two, 0) else (0, 0)
  | .sqrt => if neg then invalid else pinf
  | .rsqrt => if neg then invalid else (0, 0)
  | .rcp => (f.signBits neg, 0)
  | .tanh => (f.signBits neg + f.one, 0)
  | .sigm => if neg then (0, 0) else (f.one, 0)

/-- The value at a signed zero (12 R320). -/
def FpFormat.atZero (f : FpFormat) (fn : Fn) (neg : Bool) : Nat × Flg :=
  let minusInf := (f.signBits true + f.infBits, fDZ)
  match fn with
  | .exp => (f.one, 0)
  | .exp2 => (f.one, 0)
  | .expm1 => (f.signBits neg, 0)
  | .log => minusInf
  | .log2 => minusInf
  | .log1p => (f.signBits neg, 0)
  | .erf => (f.signBits neg, 0)
  | .erfc => (f.one, 0)
  | .sqrt => (f.signBits neg, 0)
  | .rsqrt => (f.signBits neg + f.infBits, fDZ)
  | .rcp => (f.signBits neg + f.infBits, fDZ)
  | .tanh => (f.signBits neg, 0)
  | .sigm => (f.half, 0)

/-- A function of one operand (12 R319, R320). -/
def FpFormat.func (f : FpFormat) (fn : Fn) (mode : Rm) (a : Nat) : Nat × Flg :=
  match f.decode a with
  | .nan _ _ => (f.quiet a, f.sigFlag [a])
  | .inf s => f.atInf fn s
  | .num s m e =>
    if m = 0 then f.atZero fn s
    else
      let negative := s && (fn == .log || fn == .log2 || fn == .sqrt || fn == .rsqrt)
      if negative then (f.canonical, fNV)
      else if (fn == .log || fn == .log2) && a == f.one then (0, 0)
      else if fn == .log1p && s && a == f.signBits true + f.one then (f.signBits true + f.infBits, fDZ)
      else if fn == .log1p && s && f.key a < f.key (f.signBits true + f.one) then (f.canonical, fNV)
      else f.finite fn mode s m e

/-- a / b (12 R319, R320). -/
def FpFormat.div (f : FpFormat) (mode : Rm) (a b : Nat) : Nat × Flg :=
  match f.firstNan [a, b] with
  | some r => (r, f.sigFlag [a, b])
  | none =>
    match f.decode a, f.decode b with
    | .inf _, .inf _ => (f.canonical, fNV)
    | .inf sa, .num sb _ _ => (f.signBits (sa != sb) + f.infBits, 0)
    | .num sa _ _, .inf sb => (f.signBits (sa != sb), 0)
    | .num sa ma ea, .num sb mb eb =>
      if mb = 0 then
        (if ma = 0 then (f.canonical, fNV) else (f.signBits (sa != sb) + f.infBits, fDZ))
      else if ma = 0 then (f.signBits (sa != sb), 0)
      else f.quotient mode (sa != sb) ma ea mb eb
    | _, _ => (f.canonical, 0)

end Sys2Proof.Machine
end

