-- ==== Sys2Proof/Machine/Operands.lean ====
section
/-!
DEFINITION. The operand forms: S-specs (10 R234), V-specs as 32 lanes and as 16 pairs (10 R235).
-/

namespace Sys2Proof.Machine

/-- The scalar constants c0-c15 (10 R234). -/
def scalarConst (n : BitVec 4) : W64 :=
  ([0, 1, 2, 3, 4, 8, 16, 32, 64, 128, -1, -2, -4, -8, 0x7FFFFFFFFFFFFFFF, 0x8000000000000000] : List W64).getD
    n.toNat 0

/-- The value of an S-spec at the issue tick (11 R254). -/
def Tile.sval (t : Tile) : SSpec → W64
  | .s n => t.sreg n
  | .k n => t.sqQ.getD n.toNat 0
  | .c n => scalarConst n

/-- The lane index vector 0-31. -/
def laneIndex : Lanes := (List.range 32).map (fun i => BitVec.ofNat 32 i)

/-- The vector constants of a 32-bit operation (10 R235). -/
def vectorConst (n : BitVec 3) : Lanes :=
  match n.toNat with
  | 0 => List.replicate 32 0
  | 1 => List.replicate 32 0x3F800000
  | 2 => List.replicate 32 0xBF800000
  | 3 => List.replicate 32 0x3F000000
  | 4 => List.replicate 32 1
  | 5 => laneIndex
  | 6 => List.replicate 32 0xFFFFFFFF
  | _ => List.replicate 32 0x7F800000

/-- The value of a V-spec read by a 32-bit operation (10 R235). -/
def Tile.vval (t : Tile) : VSpec → Lanes
  | .v n => t.vreg n
  | .a n => t.vxQ.getD n.toNat zeroLanes
  | .x n => t.xcQ.getD n.toNat zeroLanes
  | .l n => t.lsQ.getD n.toNat zeroLanes
  | .b n => List.replicate 32 ((t.sqQ.getD n.toNat 0).setWidth 32)
  | .c n => vectorConst n

/-- Lanes as pairs: pair k is words 2k (low) and 2k + 1 (high) (10 R235). -/
def toPairs : Lanes → List W64
  | lo :: hi :: r => (hi ++ lo) :: toPairs r
  | _ => []

def ofPairs : List W64 → Lanes
  | [] => []
  | x :: r => x.setWidth 32 :: (x >>> 32).setWidth 32 :: ofPairs r

/-- The vector constants of an FP64 operation (10 R235). -/
def pairConst (n : BitVec 3) : List W64 :=
  match n.toNat with
  | 0 => List.replicate 16 0
  | 1 => List.replicate 16 0x3FF0000000000000
  | 2 => List.replicate 16 0xBFF0000000000000
  | 3 => List.replicate 16 0x3FE0000000000000
  | 4 => List.replicate 16 0x0000000100000001
  | 5 => toPairs laneIndex
  | 6 => List.replicate 16 0xFFFFFFFFFFFFFFFF
  | _ => List.replicate 16 0x7FF0000000000000

/-- The value of a V-spec read by an FP64 operation, as 16 pairs (10 R235). -/
def Tile.vpairs (t : Tile) : VSpec → List W64
  | .v n => toPairs (t.vreg n)
  | .a n => toPairs (t.vxQ.getD n.toNat zeroLanes)
  | .x n => toPairs (t.xcQ.getD n.toNat zeroLanes)
  | .l n => toPairs (t.lsQ.getD n.toNat zeroLanes)
  | .b n => List.replicate 16 (t.sqQ.getD n.toNat 0)
  | .c n => pairConst n

/-- The destination of a VX BIN word (10 R244). -/
def vdstDest : VDst → Dest
  | .reg n => .vx (some n)
  | .queue => .vx none

/-- The destination of a VX TRI word: C is written too when WC = 1 (10 R245). -/
def wcDest (c : VSpec) (w : Bool) : Dest :=
  match c, w with
  | .v n, true => .vx (some n)
  | _, _ => .vx none

/-- The rounding code in force: .DYN takes RMDYN at the issue tick (08 R180, R181). -/
def Tile.rounding (t : Tile) : Rm → Rm
  | .dyn => match t.rmdyn.toNat with
    | 1 => .rtz
    | 2 => .rup
    | 3 => .rdn
    | 4 => .rna
    | _ => .rne
  | r => r

end Sys2Proof.Machine
end

