-- ==== Sys2Proof/Machine/Vector.lean ====
section
/-!
DEFINITION. The words of the VX column on lanes and pairs: TRI and BIN words, VPUT and VZERO (12 R292-R309, 10 R240).
-/

namespace Sys2Proof.Machine

/-! ## Lane by lane -/

def map32 (a : Lanes) (f : W32 → W32) : Lanes := a.map f
def zip32 (a b : Lanes) (f : W32 → W32 → W32) : Lanes := List.zipWith f a b
def zip3 (f : W32 → W32 → W32 → W32) : Lanes → Lanes → Lanes → Lanes
  | x :: xs, y :: ys, z :: zs => f x y z :: zip3 f xs ys zs
  | _, _, _ => []

/-- Lane results with their flags, apart. -/
def splitLanes (l : List (Nat × Flg)) : Lanes × List Flg :=
  (l.map (fun r => BitVec.ofNat 32 r.1), l.map (fun r => r.2))

/-- Pair results with their flags, apart; both lanes of a pair carry its flags (08 R191). -/
def splitPairs (l : List (Nat × Flg)) : Lanes × List Flg :=
  (ofPairs (l.map (fun r => BitVec.ofNat 64 r.1)), l.flatMap (fun r => [r.2, r.2]))

def fmap1 (f : Nat → Nat × Flg) (a : Lanes) : List (Nat × Flg) := a.map (fun x => f x.toNat)
def fmap2 (f : Nat → Nat → Nat × Flg) (a b : Lanes) : List (Nat × Flg) :=
  List.zipWith (fun x y => f x.toNat y.toNat) a b
def fmap3 (f : Nat → Nat → Nat → Nat × Flg) : Lanes → Lanes → Lanes → List (Nat × Flg)
  | x :: xs, y :: ys, z :: zs => f x.toNat y.toNat z.toNat :: fmap3 f xs ys zs
  | _, _, _ => []
def dmap1 (f : Nat → Nat × Flg) (a : List W64) : List (Nat × Flg) := a.map (fun x => f x.toNat)
def dmap2 (f : Nat → Nat → Nat × Flg) (a b : List W64) : List (Nat × Flg) :=
  List.zipWith (fun x y => f x.toNat y.toNat) a b
def dmap3 (f : Nat → Nat → Nat → Nat × Flg) : List W64 → List W64 → List W64 → List (Nat × Flg)
  | x :: xs, y :: ys, z :: zs => f x.toNat y.toNat z.toNat :: dmap3 f xs ys zs
  | _, _, _ => []

/-- A vector word: read at t, entered at t plus its latency with its flags (12 R292, R293, R296). -/
def vecWord (s : State) (lat : Nat) (col : Column) (dest : Dest) (f : Tile → Lanes × List Flg) : Out :=
  onTile s (fun d t => t.send (vectorFlight t d.dtick lat col dest (f t).1 (f t).2))

/-- A VX word that raises no flag. -/
def bitWord (s : State) (lat : Nat) (dest : Dest) (f : Tile → Lanes) : Out :=
  vecWord s lat .vx dest (fun t => (f t, []))

/-! ## Latencies (12 R294) -/

def latFp32 := 4
def latFp64 := 6
def latVxAlu := 1
def latCompare := 2
def latConvert := 3

/-! ## Short words (10 R240) -/

def execVput (n : BitVec 4) (s : State) : Out := bitWord s 1 (.vreg n) (fun t => t.vval (.a 0))
def execVzero (n : BitVec 4) (s : State) : Out := bitWord s 1 (.vreg n) (fun _ => zeroLanes)

/-! ## TRI words (12 R298, R299) -/

/-- A fused multiply-add of FP32 lanes; np and nc negate the product and C. -/
def fmaWord (s : State) (np nc : Bool) (r : Rm) (a b c : VSpec) (w : Bool) : Out :=
  vecWord s latFp32 .vx (wcDest c w) (fun t =>
    splitLanes (fmap3 (fp32F.fma (t.rounding r) np nc) (t.vval a) (t.vval b) (t.vval c)))

/-- A fused multiply-add of FP64 pairs. -/
def dfmaWord (s : State) (np nc : Bool) (r : Rm) (a b c : VSpec) (w : Bool) : Out :=
  vecWord s latFp64 .vx (wcDest c w) (fun t =>
    splitPairs (dmap3 (fp64F.fma (t.rounding r) np nc) (t.vpairs a) (t.vpairs b) (t.vpairs c)))

def execFfma (r : Rm) (a b c : VSpec) (w : Bool) (s : State) : Out := fmaWord s false false r a b c w
def execFfms (r : Rm) (a b c : VSpec) (w : Bool) (s : State) : Out := fmaWord s false true r a b c w
def execFnfma (r : Rm) (a b c : VSpec) (w : Bool) (s : State) : Out := fmaWord s true false r a b c w
def execFnfms (r : Rm) (a b c : VSpec) (w : Bool) (s : State) : Out := fmaWord s true true r a b c w
def execDfma (r : Rm) (a b c : VSpec) (w : Bool) (s : State) : Out := dfmaWord s false false r a b c w
def execDfms (r : Rm) (a b c : VSpec) (w : Bool) (s : State) : Out := dfmaWord s false true r a b c w

def execImad (a b c : VSpec) (w : Bool) (s : State) : Out :=
  bitWord s latVxAlu (wcDest c w) (fun t => zip3 (fun x y z => x * y + z) (t.vval a) (t.vval b) (t.vval c))

def execVxSel (a b c : VSpec) (w : Bool) (s : State) : Out :=
  bitWord s latVxAlu (wcDest c w) (fun t => zip3 (fun x y z => if z ≠ 0 then x else y) (t.vval a) (t.vval b) (t.vval c))

/-! ## BIN words: floating point (12 R300-R306) -/

/-- Two FP32 operands. -/
def fbin (s : State) (lat : Nat) (d : VDst) (a b : VSpec) (f : Tile → Nat → Nat → Nat × Flg) : Out :=
  vecWord s lat .vx (vdstDest d) (fun t => splitLanes (fmap2 (f t) (t.vval a) (t.vval b)))
/-- One FP32 operand. -/
def funary (s : State) (lat : Nat) (d : VDst) (a : VSpec) (f : Tile → Nat → Nat × Flg) : Out :=
  vecWord s lat .vx (vdstDest d) (fun t => splitLanes (fmap1 (f t) (t.vval a)))
/-- Two FP64 operands. -/
def dbin (s : State) (lat : Nat) (d : VDst) (a b : VSpec) (f : Tile → Nat → Nat → Nat × Flg) : Out :=
  vecWord s lat .vx (vdstDest d) (fun t => splitPairs (dmap2 (f t) (t.vpairs a) (t.vpairs b)))
/-- One FP64 operand. -/
def dunary (s : State) (lat : Nat) (d : VDst) (a : VSpec) (f : Tile → Nat → Nat × Flg) : Out :=
  vecWord s lat .vx (vdstDest d) (fun t => splitPairs (dmap1 (f t) (t.vpairs a)))
/-- The mask of a compare (12 R304). -/
def fpMask (ones : Nat) (r : Bool × Flg) : Nat × Flg := (if r.1 then ones else 0, r.2)
/-- Bit operations on words. -/
def ibin (s : State) (lat : Nat) (d : VDst) (a b : VSpec) (f : W32 → W32 → W32) : Out :=
  bitWord s lat (vdstDest d) (fun t => zip32 (t.vval a) (t.vval b) f)
def iunary (s : State) (d : VDst) (a : VSpec) (f : W32 → W32) : Out :=
  bitWord s latVxAlu (vdstDest d) (fun t => map32 (t.vval a) f)
/-- Bit operations on pairs. -/
def pairUnary (s : State) (d : VDst) (a : VSpec) (f : W64 → W64) : Out :=
  bitWord s latVxAlu (vdstDest d) (fun t => ofPairs ((t.vpairs a).map f))
def fcmpWord (s : State) (c : FCmp) (a b : VSpec) (d : VDst) : Out :=
  fbin s latCompare d a b (fun _ x y => fpMask 0xFFFFFFFF (fp32F.cmp c x y))
def dcmpWord (s : State) (c : FCmp) (a b : VSpec) (d : VDst) : Out :=
  dbin s latCompare d a b (fun _ x y => fpMask 0xFFFFFFFFFFFFFFFF (fp64F.cmp c x y))
def laneTrue (b : Bool) : W32 := if b then 0xFFFFFFFF else 0

def execFadd (r : Rm) (a b : VSpec) (d : VDst) (s : State) : Out :=
  fbin s latFp32 d a b (fun t x y => fp32F.add (t.rounding r) false x y)
def execFsub (r : Rm) (a b : VSpec) (d : VDst) (s : State) : Out :=
  fbin s latFp32 d a b (fun t x y => fp32F.add (t.rounding r) true x y)
def execFmul (r : Rm) (a b : VSpec) (d : VDst) (s : State) : Out :=
  fbin s latFp32 d a b (fun t x y => fp32F.mul (t.rounding r) x y)
def execFmin (a b : VSpec) (d : VDst) (s : State) : Out := fbin s latCompare d a b (fun _ x y => fp32F.minmax false x y)
def execFmax (a b : VSpec) (d : VDst) (s : State) : Out := fbin s latCompare d a b (fun _ x y => fp32F.minmax true x y)
def execFminn (a b : VSpec) (d : VDst) (s : State) : Out := fbin s latCompare d a b (fun _ x y => fp32F.minmaxNum false x y)
def execFmaxn (a b : VSpec) (d : VDst) (s : State) : Out := fbin s latCompare d a b (fun _ x y => fp32F.minmaxNum true x y)
def execFcpysgn (a b : VSpec) (d : VDst) (s : State) : Out :=
  ibin s latVxAlu d a b (fun x y => (x &&& 0x7FFFFFFF) ||| (y &&& 0x80000000))
def execFceq (a b : VSpec) (d : VDst) (s : State) : Out := fcmpWord s .eq a b d
def execFclt (a b : VSpec) (d : VDst) (s : State) : Out := fcmpWord s .lt a b d
def execFcle (a b : VSpec) (d : VDst) (s : State) : Out := fcmpWord s .le a b d
def execFcun (a b : VSpec) (d : VDst) (s : State) : Out := fcmpWord s .un a b d
def execFabs (a : VSpec) (d : VDst) (s : State) : Out := iunary s d a (· &&& 0x7FFFFFFF)
def execFneg (a : VSpec) (d : VDst) (s : State) : Out := iunary s d a (· ^^^ 0x80000000)
def execFrint (r : Rm) (a : VSpec) (d : VDst) (s : State) : Out :=
  funary s latConvert d a (fun t x => fp32F.rint (t.rounding r) x)
def execDadd (r : Rm) (a b : VSpec) (d : VDst) (s : State) : Out :=
  dbin s latFp64 d a b (fun t x y => fp64F.add (t.rounding r) false x y)
def execDsub (r : Rm) (a b : VSpec) (d : VDst) (s : State) : Out :=
  dbin s latFp64 d a b (fun t x y => fp64F.add (t.rounding r) true x y)
def execDmul (r : Rm) (a b : VSpec) (d : VDst) (s : State) : Out :=
  dbin s latFp64 d a b (fun t x y => fp64F.mul (t.rounding r) x y)
def execDmin (a b : VSpec) (d : VDst) (s : State) : Out := dbin s latCompare d a b (fun _ x y => fp64F.minmax false x y)
def execDmax (a b : VSpec) (d : VDst) (s : State) : Out := dbin s latCompare d a b (fun _ x y => fp64F.minmax true x y)
def execDceq (a b : VSpec) (d : VDst) (s : State) : Out := dcmpWord s .eq a b d
def execDclt (a b : VSpec) (d : VDst) (s : State) : Out := dcmpWord s .lt a b d
def execDcle (a b : VSpec) (d : VDst) (s : State) : Out := dcmpWord s .le a b d
def execDcun (a b : VSpec) (d : VDst) (s : State) : Out := dcmpWord s .un a b d
def execDabs (a : VSpec) (d : VDst) (s : State) : Out := pairUnary s d a (· &&& 0x7FFFFFFFFFFFFFFF)
def execDneg (a : VSpec) (d : VDst) (s : State) : Out := pairUnary s d a (· ^^^ 0x8000000000000000)
def execDrint (r : Rm) (a : VSpec) (d : VDst) (s : State) : Out :=
  dunary s latConvert d a (fun t x => fp64F.rint (t.rounding r) x)
/-- FSCALB: lane i of B is a signed exponent (12 R306). -/
def execFscalb (r : Rm) (a b : VSpec) (d : VDst) (s : State) : Out :=
  fbin s latFp32 d a b (fun t x y => fp32F.scalb (t.rounding r) x (BitVec.ofNat 32 y).toInt)
/-! ## BIN words: integers (12 R307) -/
/-- A shift count is taken modulo 32. -/
def count32 (b : W32) : Nat := b.toNat % 32
/-- Clamp to a signed 32-bit word. -/
def clamp32 (x : Int) : W32 :=
  if x < -2147483648 then 0x80000000 else if x > 2147483647 then 0x7FFFFFFF else BitVec.ofInt 32 x
def imulhVal (x y : W32) : W32 := BitVec.ofInt 32 (x.toInt * y.toInt / 2 ^ 32)
def imulhuVal (x y : W32) : W32 := BitVec.ofNat 32 (x.toNat * y.toNat / 2 ^ 32)

def execIadd (a b : VSpec) (d : VDst) (s : State) : Out := ibin s latVxAlu d a b (· + ·)
def execIsub (a b : VSpec) (d : VDst) (s : State) : Out := ibin s latVxAlu d a b (· - ·)
def execImul (a b : VSpec) (d : VDst) (s : State) : Out := ibin s latVxAlu d a b (· * ·)
def execImulh (a b : VSpec) (d : VDst) (s : State) : Out := ibin s latVxAlu d a b imulhVal
def execImulhu (a b : VSpec) (d : VDst) (s : State) : Out := ibin s latVxAlu d a b imulhuVal
def execImin (a b : VSpec) (d : VDst) (s : State) : Out := ibin s latVxAlu d a b (fun x y => if y.slt x then y else x)
def execImax (a b : VSpec) (d : VDst) (s : State) : Out := ibin s latVxAlu d a b (fun x y => if x.slt y then y else x)
def execIminu (a b : VSpec) (d : VDst) (s : State) : Out := ibin s latVxAlu d a b (fun x y => if y.ult x then y else x)
def execImaxu (a b : VSpec) (d : VDst) (s : State) : Out := ibin s latVxAlu d a b (fun x y => if x.ult y then y else x)
def execIand (a b : VSpec) (d : VDst) (s : State) : Out := ibin s latVxAlu d a b (· &&& ·)
def execIor (a b : VSpec) (d : VDst) (s : State) : Out := ibin s latVxAlu d a b (· ||| ·)
def execIxor (a b : VSpec) (d : VDst) (s : State) : Out := ibin s latVxAlu d a b (· ^^^ ·)
def execIandn (a b : VSpec) (d : VDst) (s : State) : Out := ibin s latVxAlu d a b (fun x y => x &&& ~~~y)
def execIshl (a b : VSpec) (d : VDst) (s : State) : Out := ibin s latVxAlu d a b (fun x y => x <<< count32 y)
def execIshr (a b : VSpec) (d : VDst) (s : State) : Out := ibin s latVxAlu d a b (fun x y => x >>> count32 y)
def execIsar (a b : VSpec) (d : VDst) (s : State) : Out := ibin s latVxAlu d a b (fun x y => x.sshiftRight (count32 y))
def execIceq (a b : VSpec) (d : VDst) (s : State) : Out := ibin s latCompare d a b (fun x y => laneTrue (x == y))
def execIclt (a b : VSpec) (d : VDst) (s : State) : Out := ibin s latCompare d a b (fun x y => laneTrue (x.slt y))
def execIcltu (a b : VSpec) (d : VDst) (s : State) : Out := ibin s latCompare d a b (fun x y => laneTrue (x.ult y))
def execIadds (a b : VSpec) (d : VDst) (s : State) : Out := ibin s latVxAlu d a b (fun x y => clamp32 (x.toInt + y.toInt))
def execIsubs (a b : VSpec) (d : VDst) (s : State) : Out := ibin s latVxAlu d a b (fun x y => clamp32 (x.toInt - y.toInt))
def execIabs (a : VSpec) (d : VDst) (s : State) : Out := iunary s d a (fun x => if x.slt 0 then -x else x)

/-! ## Conversions (12 R308, R309) -/

def execCvtF32I32 (r : Rm) (a : VSpec) (d : VDst) (s : State) : Out :=
  funary s latConvert d a (fun t x => intToFp32 (t.rounding r) (BitVec.ofNat 32 x).toInt)

def execCvtI32F32 (r : Rm) (a : VSpec) (d : VDst) (s : State) : Out :=
  funary s latConvert d a (fun t x => ((fp32ToInt (t.rounding r) x).1.toNat, (fp32ToInt (t.rounding r) x).2))

/-- Pair k is the FP64 value of lane k of A, for k = 0-15. -/
def execCvtF64F32 (a : VSpec) (d : VDst) (s : State) : Out :=
  vecWord s latConvert .vx (vdstDest d) (fun t =>
    splitPairs (fmap1 (fp64F.convert fp32F .rne) ((t.vval a).take 16)))

/-- Lane k is the FP32 value of pair k; lanes 16-31 are +0. -/
def execCvtF32F64 (r : Rm) (a : VSpec) (d : VDst) (s : State) : Out :=
  vecWord s latConvert .vx (vdstDest d) (fun t =>
    let x := splitLanes (dmap1 (fp32F.convert fp64F (t.rounding r)) (t.vpairs a))
    (x.1 ++ List.replicate 16 0, x.2))

/-- Two 16-bit halves of one lane, with both operations' flags. -/
def packHalves (lo hi : Nat × Flg) : Nat × Flg := (lo.1 + hi.1 * 2 ^ 16, lo.2 ||| hi.2)

def execCvtBf16F32 (r : Rm) (a b : VSpec) (d : VDst) (s : State) : Out :=
  fbin s latConvert d a b (fun t x y =>
    packHalves (bf16F.convert fp32F (t.rounding r) x) (bf16F.convert fp32F (t.rounding r) y))

/-- Half h of a 32-bit word. -/
def halfOf (h : Bool) (x : W32) : W32 := if h then x >>> 16 else x &&& 0xFFFF

def execCvtF32Bf16 (a : VSpec) (h : Bool) (d : VDst) (s : State) : Out :=
  bitWord s latConvert (vdstDest d) (fun t => map32 (t.vval a) (fun x => halfOf h x <<< 16))

end Sys2Proof.Machine
end

