-- ==== Sys2Proof/Machine/Func.lean ====
section
/-!
DEFINITION. The words of the XC column (12 R318-R321): correctly rounded functions of FP32 lanes and FP64 pairs.
-/

namespace Sys2Proof.Machine

/-- An FP32 function word. -/
def funcWord (s : State) (lat : Nat) (fn : Fn) (r : Rm) (a : VSpec) : Out :=
  vecWord s lat .xc .xc (fun t => splitLanes (fmap1 (fp32F.func fn (t.rounding r)) (t.vval a)))

/-- An FP64 function word. -/
def funcWord64 (s : State) (lat : Nat) (fn : Fn) (r : Rm) (a : VSpec) : Out :=
  vecWord s lat .xc .xc (fun t => splitPairs (dmap1 (fp64F.func fn (t.rounding r)) (t.vpairs a)))

def execExp (r : Rm) (a : VSpec) (s : State) : Out := funcWord s 12 .exp r a
def execExpF64 (r : Rm) (a : VSpec) (s : State) : Out := funcWord64 s 28 .exp r a
def execExp2 (r : Rm) (a : VSpec) (s : State) : Out := funcWord s 12 .exp2 r a
def execExp2F64 (r : Rm) (a : VSpec) (s : State) : Out := funcWord64 s 26 .exp2 r a
def execLog (r : Rm) (a : VSpec) (s : State) : Out := funcWord s 12 .log r a
def execLogF64 (r : Rm) (a : VSpec) (s : State) : Out := funcWord64 s 28 .log r a
def execLog2 (r : Rm) (a : VSpec) (s : State) : Out := funcWord s 12 .log2 r a
def execLog2F64 (r : Rm) (a : VSpec) (s : State) : Out := funcWord64 s 28 .log2 r a
def execErf (r : Rm) (a : VSpec) (s : State) : Out := funcWord s 14 .erf r a
def execErfF64 (r : Rm) (a : VSpec) (s : State) : Out := funcWord64 s 32 .erf r a
def execErfc (r : Rm) (a : VSpec) (s : State) : Out := funcWord s 14 .erfc r a
def execErfcF64 (r : Rm) (a : VSpec) (s : State) : Out := funcWord64 s 34 .erfc r a
def execSqrt (r : Rm) (a : VSpec) (s : State) : Out := funcWord s 10 .sqrt r a
def execSqrtF64 (r : Rm) (a : VSpec) (s : State) : Out := funcWord64 s 22 .sqrt r a
def execRsqrt (r : Rm) (a : VSpec) (s : State) : Out := funcWord s 10 .rsqrt r a
def execRsqrtF64 (r : Rm) (a : VSpec) (s : State) : Out := funcWord64 s 24 .rsqrt r a
def execRcp (r : Rm) (a : VSpec) (s : State) : Out := funcWord s 10 .rcp r a
def execRcpF64 (r : Rm) (a : VSpec) (s : State) : Out := funcWord64 s 22 .rcp r a
def execTanh (r : Rm) (a : VSpec) (s : State) : Out := funcWord s 14 .tanh r a
def execTanhF64 (r : Rm) (a : VSpec) (s : State) : Out := funcWord64 s 32 .tanh r a
def execSigm (r : Rm) (a : VSpec) (s : State) : Out := funcWord s 14 .sigm r a
def execSigmF64 (r : Rm) (a : VSpec) (s : State) : Out := funcWord64 s 32 .sigm r a
def execExpm1 (r : Rm) (a : VSpec) (s : State) : Out := funcWord s 12 .expm1 r a
def execExpm1F64 (r : Rm) (a : VSpec) (s : State) : Out := funcWord64 s 28 .expm1 r a
def execLog1p (r : Rm) (a : VSpec) (s : State) : Out := funcWord s 12 .log1p r a
def execLog1pF64 (r : Rm) (a : VSpec) (s : State) : Out := funcWord64 s 28 .log1p r a

def execDivF32 (r : Rm) (a b : VSpec) (s : State) : Out :=
  vecWord s 12 .xc .xc (fun t => splitLanes (fmap2 (fp32F.div (t.rounding r)) (t.vval a) (t.vval b)))
def execDivF64 (r : Rm) (a b : VSpec) (s : State) : Out :=
  vecWord s 24 .xc .xc (fun t => splitPairs (dmap2 (fp64F.div (t.rounding r)) (t.vpairs a) (t.vpairs b)))

end Sys2Proof.Machine
end

