-- ==== Sys2Proof/Machine/Predicate.lean ====
section
/-!
DEFINITION. Predicate words (11 R263-R267). Values are read at t; slots are written at t + 1.
-/

namespace Sys2Proof.Machine

/-- The condition codes (11 R263). -/
def condHolds (c : Cond) (a b : W64) : Bool :=
  match c with
  | .eq => a == b
  | .ne => a != b
  | .lt => a.slt b
  | .le => !(b.slt a)
  | .gt => b.slt a
  | .ge => !(a.slt b)
  | .ltu => a.ult b
  | .leu => !(b.ult a)
  | .gtu => b.ult a
  | .geu => !(a.ult b)
  | .bitset => a.getLsbD (b.toNat % 64)
  | .bitclr => !(a.getLsbD (b.toNat % 64))
  | .always => true
  | .never => false

/-- A word that writes a slot at t + 1. -/
def slotWord (s : State) (p : BitVec 3) (f : Tile → Bool) : Out :=
  onTile s (fun dm t => t.send (scalarFlight t dm.dtick 1 .sq (.slot p (f t)) 0))

/-- PW ANDs the comparison with the slot's old value (11 R263). -/
def execCmp (p : BitVec 3) (w : Bool) (a b : SSpec) (c : Cond) (s : State) : Out :=
  slotWord s p (fun t => condHolds c (t.sval a) (t.sval b) && (!w || (t.pred p).value))

def execCmpi (p : BitVec 3) (w : Bool) (a : SSpec) (i : BitVec 6) (c : Cond) (s : State) : Out :=
  slotWord s p (fun t => condHolds c (t.sval a) (i.signExtend 64) && (!w || (t.pred p).value))

/-- The operations of PLOG; NOT reads PA alone (11 R264). -/
def logicOp (o : LogicOp) (x y : Bool) : Bool :=
  match o with
  | .and => x && y
  | .or => x || y
  | .xor => x != y
  | .andn => x && !y
  | .nand => !(x && y)
  | .nor => !(x || y)
  | .xnor => x == y
  | .not => !x

def execPlog (p a b : BitVec 3) (o : LogicOp) (s : State) : Out :=
  slotWord s p (fun t => logicOp o (t.pred a).value (t.pred b).value)

def execPclr (m : BitVec 8) (s : State) : Out :=
  onTile s (fun dm t => t.send (scalarFlight t dm.dtick 1 .sq (.clear m) 0))

/-- PMOV to a register: bit 0 the value, bit 1 the written bit (11 R266). -/
def execPmovToRegister (d : Dst) (p : BitVec 3) (s : State) : Out :=
  sqResult s 1 d (fun _ t =>
    BitVec.ofNat 64 ((t.pred p).value.toNat + 2 * (t.pred p).written.toNat))

def execPmovToSlot (a : SSpec) (p : BitVec 3) (s : State) : Out :=
  slotWord s p (fun t => t.sval a != 0)

end Sys2Proof.Machine
end

