-- ==== Sys2Proof/Machine/Scalar.lean ====
section
/-!
DEFINITION. Scalar arithmetic of the SQ column (11 R257-R262): exact modulo 2^64, no flag, no trap (11 R256).
-/

namespace Sys2Proof.Machine

/-- Latencies of 11 R255. -/
def latAlu := 1
def latMul := 3
def latDiv := 20
def latLdcp := 2

/-- A two-operand SA word (11 R258). -/
def sa2 (s : State) (lat : Nat) (d : Dst) (a b : SSpec) (f : W64 → W64 → W64) : Out :=
  sqResult s lat d (fun _ t => f (t.sval a) (t.sval b))

/-- A one-operand SA word (11 R257). -/
def sa1 (s : State) (d : Dst) (a : SSpec) (f : W64 → W64) : Out :=
  sqResult s latAlu d (fun _ t => f (t.sval a))

/-- The high half of the signed and the unsigned 128-bit product (11 R258). -/
def mulhVal (a b : W64) : W64 := ((a.signExtend 128 * b.signExtend 128) >>> 64).setWidth 64
def mulhuVal (a b : W64) : W64 := ((a.setWidth 128 * b.setWidth 128) >>> 64).setWidth 64

/-- Division with a zero divisor gives all ones; −2^63 by −1 gives −2^63 (11 R258, R259). -/
def divVal (a b : W64) : W64 := if b = 0 then -1 else a.sdiv b
def divuVal (a b : W64) : W64 := if b = 0 then -1 else a / b
/-- Remainders; by zero, a (11 R259). The sign is that of a. -/
def remVal (a b : W64) : W64 := if b = 0 then a else a.srem b
def remuVal (a b : W64) : W64 := if b = 0 then a else a % b

/-- Shift counts are taken mod 64 (11 R258). -/
def shlVal (a b : W64) : W64 := a <<< (b.toNat % 64)
def shrVal (a b : W64) : W64 := a >>> (b.toNat % 64)
def sarVal (a b : W64) : W64 := a.sshiftRight (b.toNat % 64)
def rolVal (a b : W64) : W64 := a.rotateLeft (b.toNat % 64)

def minVal (a b : W64) : W64 := if a.slt b then a else b
def maxVal (a b : W64) : W64 := if a.slt b then b else a
def minuVal (a b : W64) : W64 := if a.ult b then a else b
def maxuVal (a b : W64) : W64 := if a.ult b then b else a

/-- Leading zeros counted from bit n − 1 down; n when there is no one (11 R258). -/
def leadingZeros (a : W64) : Nat → Nat
  | 0 => 0
  | n + 1 => if a.getLsbD n then 0 else 1 + leadingZeros a n

/-- Trailing zeros counted from bit i up, over n bits. -/
def trailingZeros (a : W64) (i : Nat) : Nat → Nat
  | 0 => 0
  | n + 1 => if a.getLsbD i then 0 else 1 + trailingZeros a (i + 1) n

/-- One bits among bits n − 1 down to 0. -/
def oneBits (a : W64) : Nat → Nat
  | 0 => 0
  | n + 1 => (if a.getLsbD n then 1 else 0) + oneBits a n

def clzVal (a : W64) : W64 := BitVec.ofNat 64 (leadingZeros a 64)
def ctzVal (a : W64) : W64 := BitVec.ofNat 64 (trailingZeros a 0 64)
def popcVal (a : W64) : W64 := BitVec.ofNat 64 (oneBits a 64)

/-- Byte i moves to byte 7 − i (11 R258). -/
def bswapVal (a : W64) : W64 := BitVec.ofNat 64 (fromLE (toLE 8 a.toNat).reverse)

/-- The field named by b: its low end and its width, cut at bit 63 (11 R260). -/
def fieldLo (b : W64) : Nat := (b.extractLsb' 0 6).toNat
def fieldWidth (b : W64) : Nat :=
  let w := (b.extractLsb' 6 6).toNat + 1
  if fieldLo b + w > 64 then 64 - fieldLo b else w

def lowMask (w : Nat) : W64 := BitVec.ofNat 64 (2 ^ w - 1)

def extuVal (a b : W64) : W64 := (a >>> fieldLo b) &&& lowMask (fieldWidth b)
def extsVal (a b : W64) : W64 :=
  let f := extuVal a b
  if f.getLsbD (fieldWidth b - 1) then f - BitVec.ofNat 64 (2 ^ fieldWidth b) else f
def insVal (d a b : W64) : W64 :=
  let m := lowMask (fieldWidth b) <<< fieldLo b
  (d &&& ~~~m) ||| ((a <<< fieldLo b) &&& m)

/-- The old value of the destination that INS reads (11 R260). -/
def Tile.dstOld (t : Tile) : Dst → W64
  | .reg n => t.sreg n
  | .queue => 0

def execAdd (d : Dst) (a b : SSpec) (s : State) : Out := sa2 s latAlu d a b (· + ·)
def execSub (d : Dst) (a b : SSpec) (s : State) : Out := sa2 s latAlu d a b (· - ·)
def execMul (d : Dst) (a b : SSpec) (s : State) : Out := sa2 s latMul d a b (· * ·)
def execMulh (d : Dst) (a b : SSpec) (s : State) : Out := sa2 s latMul d a b mulhVal
def execMulhu (d : Dst) (a b : SSpec) (s : State) : Out := sa2 s latMul d a b mulhuVal
def execDiv (d : Dst) (a b : SSpec) (s : State) : Out := sa2 s latDiv d a b divVal
def execDivu (d : Dst) (a b : SSpec) (s : State) : Out := sa2 s latDiv d a b divuVal
def execRem (d : Dst) (a b : SSpec) (s : State) : Out := sa2 s latDiv d a b remVal
def execRemu (d : Dst) (a b : SSpec) (s : State) : Out := sa2 s latDiv d a b remuVal
def execAnd (d : Dst) (a b : SSpec) (s : State) : Out := sa2 s latAlu d a b (· &&& ·)
def execOr (d : Dst) (a b : SSpec) (s : State) : Out := sa2 s latAlu d a b (· ||| ·)
def execXor (d : Dst) (a b : SSpec) (s : State) : Out := sa2 s latAlu d a b (· ^^^ ·)
def execAndn (d : Dst) (a b : SSpec) (s : State) : Out := sa2 s latAlu d a b (fun x y => x &&& ~~~y)
def execShl (d : Dst) (a b : SSpec) (s : State) : Out := sa2 s latAlu d a b shlVal
def execShr (d : Dst) (a b : SSpec) (s : State) : Out := sa2 s latAlu d a b shrVal
def execSar (d : Dst) (a b : SSpec) (s : State) : Out := sa2 s latAlu d a b sarVal
def execRol (d : Dst) (a b : SSpec) (s : State) : Out := sa2 s latAlu d a b rolVal
def execMin (d : Dst) (a b : SSpec) (s : State) : Out := sa2 s latAlu d a b minVal
def execMax (d : Dst) (a b : SSpec) (s : State) : Out := sa2 s latAlu d a b maxVal
def execMinu (d : Dst) (a b : SSpec) (s : State) : Out := sa2 s latAlu d a b minuVal
def execMaxu (d : Dst) (a b : SSpec) (s : State) : Out := sa2 s latAlu d a b maxuVal

/-- SEL reads the value of slot p0-p3, not its written bit (11 R258). -/
def execSel (d : Dst) (a b : SSpec) (p : BitVec 2) (s : State) : Out :=
  sqResult s latAlu d (fun _ t => if (t.pred (p.setWidth 3)).value then t.sval a else t.sval b)

def execClz (d : Dst) (a : SSpec) (s : State) : Out := sa1 s d a clzVal
def execCtz (d : Dst) (a : SSpec) (s : State) : Out := sa1 s d a ctzVal
def execPopc (d : Dst) (a : SSpec) (s : State) : Out := sa1 s d a popcVal
def execBswap (d : Dst) (a : SSpec) (s : State) : Out := sa1 s d a bswapVal

/-- ADDSH: a + b·2^(SUB+1) (11 R258). -/
def execAddsh (d : Dst) (a b : SSpec) (n : BitVec 2) (s : State) : Out :=
  sa2 s latAlu d a b (fun x y => x + (y <<< (n.toNat + 1)))

def execExtu (d : Dst) (a b : SSpec) (s : State) : Out := sa2 s latAlu d a b extuVal
def execExts (d : Dst) (a b : SSpec) (s : State) : Out := sa2 s latAlu d a b extsVal
def execIns (d : Dst) (a b : SSpec) (s : State) : Out :=
  sqResult s latAlu d (fun _ t => insVal (t.dstOld d) (t.sval a) (t.sval b))
def execMov (d : Dst) (a : SSpec) (s : State) : Out := sa1 s d a id

/-- The SI words sign-extend their immediate; shifts take it as the count (11 R261). -/
def execAddi (d : Dst) (a : SSpec) (i : BitVec 8) (s : State) : Out := sa1 s d a (· + i.signExtend 64)
def execAndi (d : Dst) (a : SSpec) (i : BitVec 8) (s : State) : Out := sa1 s d a (· &&& i.signExtend 64)
def execOri (d : Dst) (a : SSpec) (i : BitVec 8) (s : State) : Out := sa1 s d a (· ||| i.signExtend 64)
def execXori (d : Dst) (a : SSpec) (i : BitVec 8) (s : State) : Out := sa1 s d a (· ^^^ i.signExtend 64)
def execShli (d : Dst) (a : SSpec) (i : BitVec 8) (s : State) : Out := sa1 s d a (fun x => shlVal x (i.setWidth 64))
def execShri (d : Dst) (a : SSpec) (i : BitVec 8) (s : State) : Out := sa1 s d a (fun x => shrVal x (i.setWidth 64))
def execSari (d : Dst) (a : SSpec) (i : BitVec 8) (s : State) : Out := sa1 s d a (fun x => sarVal x (i.setWidth 64))

/-- MOVI: the sign-extended 14-bit immediate (11 R262). -/
def execMovi (d : Dst) (i : BitVec 14) (s : State) : Out := sqResult s latAlu d (fun _ _ => i.signExtend 64)

/-- LDCP: the constant in slot i of the record store (11 R262, 01 R24). -/
def execLdcp (d : Dst) (i : BitVec 14) (s : State) : Out :=
  sqResult s latLdcp d (fun _ t => BitVec.ofNat 64 (s.readLE (locRec t.cluster t.idx t.slot (8 * i.toNat)) 8))

/-- The short words: written at t + 1, no queue entry; with N = 0 nothing changes (10 R240). -/
def shortScalar (s : State) (n : BitVec 5) (f : Tile → W64) : Out :=
  onTile s (fun dm t => t.send (scalarFlight t dm.dtick 1 .sq (.sreg n) (f t)))

def execKput (n : BitVec 5) (s : State) : Out := shortScalar s n (fun t => t.sval (.k 0))
def execInc (n : BitVec 5) (s : State) : Out := shortScalar s n (fun t => t.sreg n + 1)
def execDec (n : BitVec 5) (s : State) : Out := shortScalar s n (fun t => t.sreg n - 1)

end Sys2Proof.Machine
end

