-- ==== Sys2Proof/Machine/Order.lean ====
section
/-!
DEFINITION. The ordering model (06): events, happens-before, data races and the footprint faults they raise, and the
satisfying points of semaphore waits.
-/

namespace Sys2Proof.Machine

/-! ## Overlaps (06 R136) -/

/-- Two byte ranges, start and length, share a byte. -/
def rangeMeets (a b : Nat × Nat) : Bool := decide (a.1 < b.1 + b.2) && decide (b.1 < a.1 + a.2)

def rangesMeet (a b : List (Nat × Nat)) : Bool := a.any (fun x => b.any (fun y => rangeMeets x y))

/-- A range of tag locations. -/
def isTagRange (r : Nat × Nat) : Bool := decide (region 11 ≤ r.1) && decide (r.1 < region 13)

/-- The writes of an event that can race with another's: two that set one tag alike do not conflict through it.
Assumption 37. -/
def raceWrites (e o : Ev) : List (Nat × Nat) :=
  if e.tagv.isSome && e.tagv == o.tagv then e.writes.filter (fun r => !isTagRange r) else e.writes

/-- Two events conflict (06 R136). -/
def conflicts (e o : Ev) : Bool :=
  rangesMeet (raceWrites e o) (raceWrites o e) || rangesMeet e.writes o.reads || rangesMeet e.reads o.writes

/-! ## Happens-before (06 R139-R153) -/

/-- Bits of a space set: K, A, B, G, H from bit 4 down (06 R141). -/
def spK : BitVec 5 := 16
def spA : BitVec 5 := 8
def spB : BitVec 5 := 4
def spG : BitVec 5 := 2
def spH : BitVec 5 := 1

/-- An event of a record, arrival word included. -/
def Ev.ofRecord (e : Ev) : Bool :=
  match e.kind with
  | .record _ => true
  | .recWrite _ => true
  | .arrival _ => true
  | _ => false

/-- The identity of an event's record; an event of a column is its own. -/
def Ev.body (e : Ev) : Nat :=
  match e.kind with
  | .recWrite o => o
  | .arrival o => o
  | _ => e.id

def Ev.isAccess (e : Ev) : Bool :=
  match e.kind with
  | .access => true
  | _ => false

/-- The access performs at its issue tick: bank or accumulator space (06 R139, R140). -/
def Ev.bankType (e : Ev) : Bool := e.spaces &&& (spK ||| spA) != 0

/-- The engine of a record's event. -/
def evEngine (evs : List Ev) (e : Ev) : Option Engine :=
  if !e.ofRecord then none
  else match evs.find? (fun x => x.id == e.body) with
    | some b => match b.kind with
      | .record g => some g
      | _ => none
    | none => none

/-- An ME record's reads of a bank or of the B store (06 R140). -/
def Ev.meRead (e : Ev) : Bool :=
  match e.kind with
  | .record .me => e.spaces &&& (spK ||| spB) != 0
  | _ => false

/-- Program order of one tile: identifiers rise with issue (06 R138). -/
def po (a b : Ev) : Bool := a.lt == b.lt && decide (a.id < b.id)

/-- The two events carry the same ordering class; a synchronising event and a squashed record have none (06 R140). -/
def sameClass (a b : Ev) : Bool := a.cls.isSome && a.cls == b.cls

/-- Same-class order (06 R139, R140). The first case is the arrival word, its record's last write. The next are read of
column accesses: a record is ordered before a later column access only through its acknowledgement (assumption 10). -/
def clsOrder (evs : List Ev) (a b : Ev) : Bool :=
  (match b.kind with
    | .arrival o => a.ofRecord && a.body == o && a.id != b.id
    | _ => false) ||
  (po a b &&
    ((a.isAccess && b.isAccess && (sameClass a b || (a.bankType && b.bankType))) ||
     (a.isAccess && b.ofRecord && (sameClass a b || (a.bankType && b.meRead))) ||
     (a.ofRecord && b.ofRecord && a.body != b.body && sameClass a b && evEngine evs a == evEngine evs b)))

/-- The scope of a fence reaches an observer (06 R153). -/
def fenceReaches (f : Ev) (scope : Agent) (obsLt obsCluster : Nat) : Bool :=
  f.lt == obsLt ||
  (match scope with
    | .tile => false
    | .cluster => f.cluster == obsCluster
    | _ => true)

/-- Class c is in the mask of a fence. -/
def classIn (mask : BitVec 16) (c : Option (BitVec 4)) : Bool :=
  match c with
  | some k => mask.getLsbD k.toNat
  | none => false

/-- An earlier event is covered by a fence (06 R142). -/
def coversEarlier (mask : BitVec 16) (spaces : BitVec 5) (e : Ev) : Bool :=
  classIn mask e.cls && (e.spaces &&& spaces != 0 || (e.isAccess && (e.bankType || e.waited)))

/-- A later event is covered by a fence (06 R142). -/
def coversLater (mask : BitVec 16) (spaces : BitVec 5) (e : Ev) : Bool :=
  classIn mask e.cls && (e.ofRecord || e.spaces &&& spaces != 0)

/-- Fence order toward an observer (06 R142, R153). -/
def fenceOrder (evs : List Ev) (obsLt obsCluster : Nat) (a b : Ev) : Bool :=
  a.lt == b.lt && evs.any (fun f =>
    match f.kind with
    | .fence mask scope spaces =>
      po a f && po f b && coversEarlier mask spaces a && coversLater mask spaces b &&
        fenceReaches f scope obsLt obsCluster
    | _ => false)

/-! ## Semaphores in signal order (06 R144, R145) -/

def SemKind.rank : SemKind → Nat
  | .record => 0
  | .give => 1
  | .semsig => 2
  | .pfence => 3
  | .csr => 4

/-- Signal order (06 R144): source tick, tile, kind. -/
def semBefore (a b : SemOp) : Bool :=
  decide (a.tick < b.tick) || (a.tick == b.tick && (decide (a.lt < b.lt) ||
    (a.lt == b.lt && decide (a.kind.rank < b.kind.rank))))

/-- Insert an operation at its place; equal keys keep their order of making. -/
def insertSem (l : List SemOp) (o : SemOp) : List SemOp :=
  match l with
  | [] => [o]
  | x :: r => if semBefore o x then o :: x :: r else x :: insertSem r o

def semAct (c : BitVec 16) : SemAct → BitVec 16
  | .add n => c + n
  | .set n => n
  | .or n => c ||| n
  | .clear n => c &&& ~~~n

/-- The counts that a semaphore passes through, from its value at launch. -/
def semCounts : BitVec 16 → List SemOp → List (BitVec 16)
  | c, [] => [c]
  | c, o :: r => c :: semCounts (semAct c o.act) r

/-- The count after the operations applied so far. -/
def semCount (l : List SemOp) : BitVec 16 := ((l.takeWhile (fun o => o.applied)).foldl (fun c o => semAct c o.act) 0)

/-- The count that a CSRR reads: every operation that has arrived with none missing before it, an epoch's increment
counting at its place whatever time the epoch takes (11 R279, 06 R144, 05 R114). Assumption 38. -/
def semRead (l : List SemOp) : BitVec 16 :=
  (l.takeWhile (fun o => o.arrived || o.kind == .pfence)).foldl (fun c o => semAct c o.act) 0

/-- The first index of a list at which p holds. -/
def firstIdx {α : Type} (p : α → Bool) : List α → Option Nat
  | [] => none
  | x :: r => if p x then some 0 else (firstIdx p r).map (· + 1)

/-- Operations placed at or before a wait at `tick` by tile `lt`: every operation with its key or an earlier one. -/
def semPlace (l : List SemOp) (tick lt : Nat) : Nat :=
  (l.takeWhile (fun o => decide (o.tick < tick) || (o.tick == tick && decide (o.lt ≤ lt)))).length

/-- One past the last CSR write before a place; 0 when there is none. -/
def semStart (l : List SemOp) (place : Nat) : Nat :=
  place - ((l.take place).reverse.takeWhile (fun o => o.kind != .csr)).length

/-- The earliest point in [k, place] from which every count up to the place is at least n. -/
def stayPoint (counts : List (BitVec 16)) (n : Nat) (place : Nat) : Nat → Nat → Option Nat
  | 0, _ => none
  | fuel + 1, k =>
    if place < k then none
    else if ((counts.drop k).take (place + 1 - k)).all (fun c => decide (n ≤ c.toNat)) then some k
    else stayPoint counts n place fuel (k + 1)

/-- The satisfying point of a wait for `n` (06 R145): how many operations it takes. None while no known point
qualifies; a wait for 0 has none and never holds. -/
def satPoint (l : List SemOp) (tick lt n : Nat) : Option Nat :=
  let place := semPlace l tick lt
  let counts := semCounts 0 l
  match stayPoint counts n place (place + 1) (semStart l place) with
  | some k => some k
  | none => (firstIdx (fun c => decide (n ≤ c.toNat)) (counts.drop (place + 1))).map (· + (place + 1))

/-- The wait's satisfying point has been applied (06 R145). -/
def semReady (l : List SemOp) (tick lt n : Nat) : Bool :=
  n == 0 || (match satPoint l tick lt n with
    | some k => (l.take k).all (fun o => o.applied)
    | none => false)

/-- The sources that a wait is ordered after, as the operations with source tick up to `now` show them (06 R145): those
up to its satisfying point, or, while that point is still to come, all that are placed before the wait. -/
def semSources (l : List SemOp) (now tick lt n : Nat) : List Nat :=
  let known := l.filter (fun o => decide (o.tick ≤ now))
  if n = 0 then []
  else (known.take ((satPoint known tick lt n).getD (semPlace known tick lt))).map (fun o => o.ev)

/-! ## The edges -/

/-- The events of a record that is a source, with those of its writes and of its arrival word. -/
def Domain.withArrival (d : Domain) (ids : List Nat) : List Nat :=
  ids ++ (d.evs.filter (fun e => e.ofRecord && e.body != e.id && ids.contains e.body)).map (fun e => e.id)

/-- A record's header fields (10 R251). -/
def Rec.kindCode (r : Rec) : Nat := (r.bits.extractLsb' 0 8).toNat
def Rec.wsem (r : Rec) : BitVec 4 := r.bits.extractLsb' 8 4
def Rec.wen (r : Rec) : Bool := r.bits.getLsbD 12
def Rec.wcnt (r : Rec) : Nat := (r.bits.extractLsb' 16 16).toNat
def Rec.ssem (r : Rec) : BitVec 4 := r.bits.extractLsb' 32 4
def Rec.sen (r : Rec) : Bool := r.bits.getLsbD 36
def Rec.sinc (r : Rec) : BitVec 8 := r.bits.extractLsb' 40 8
def Rec.cls (r : Rec) : BitVec 4 := r.bits.extractLsb' 48 4

/-- The group of a chorus record (13 R359). -/
def Rec.group (r : Rec) : Nat := (r.bits.extractLsb' 64 8).toNat

def Tile.sem (t : Tile) (k : BitVec 4) : List SemOp := t.sems.getD k.toNat []

/-- The events whose signals a record waits for, as far as they are known (06 R145). -/
def Tile.waitedFor (t : Tile) (now : Nat) (r : Rec) : List Nat :=
  if r.wen && r.stage != .squashed then semSources (t.sem r.wsem) now r.tick t.lt r.wcnt else []

/-- The record of an event, with its tile. -/
def Domain.recOf (d : Domain) (e : Ev) : Option (Tile × Rec) :=
  if !e.ofRecord then none
  else (d.tile? e.lt).bind (fun t => (t.recs.find? (fun r => r.ev == e.body)).map (fun r => (t, r)))

/-- Semaphore order to the events of a waiting record (06 R145); that to a SEMWAIT stands in the event. -/
def Domain.semOrder (d : Domain) (a b : Ev) : Bool :=
  match d.recOf b with
  | some (t, r) => (t.waitedFor d.dtick r).contains a.body
  | none => false

/-- Which collective on its group a chorus record joins (16 R402): how many before it execute; none while a guard before
it is unresolved. -/
def Tile.collIdx (t : Tile) (r : Rec) : Option Nat :=
  let l := t.recs.filter (fun x => x.eng == .ch && x.group == r.group && decide (x.id ≤ r.id) && x.stage != .squashed)
  if r.eng == .ch && r.stage != .squashed && l.all (fun x => x.resolved.isSome) then some l.length else none

/-- Collective order (06 R149): every event of every member's record before every member's arrival word. -/
def Domain.grpOrder (d : Domain) (a b : Ev) : Bool :=
  match b.kind with
  | .arrival _ => (match d.recOf a, d.recOf b with
    | some (t, x), some (u, y) => x.eng == .ch && x.group == y.group && (t.collIdx x).isSome &&
        t.collIdx x == u.collIdx y
    | _, _ => false)
  | _ => false

/-- Tick order (06 R152): two events of columns, the later at least Vg after. An attach is no event of a column. -/
def tickOrder (vg : Nat) (a b : Ev) : Bool :=
  let column (e : Ev) : Bool := !e.ofRecord && (match e.kind with
    | .attach => false
    | _ => true)
  column a && column b && decide (a.tick + vg ≤ b.tick)

/-- One edge of happens-before toward an observer (06 R153): cls, the chains that an event holds (sem, arr, give, WAITRV),
sem to a record's wait, grp, what an acquiring event orders, tick order, and fences. -/
def Domain.edge (d : Domain) (obsLt obsCluster : Nat) (a b : Ev) : Bool :=
  clsOrder d.evs a b || b.after.contains a.id || d.semOrder a b || d.grpOrder a b ||
  (a.acquires && po a b && decide (a.tick ≤ b.tick)) || tickOrder d.vg a b ||
  fenceOrder d.evs obsLt obsCluster a b

/-- The events that happen before one of `front`, searched backwards at most `fuel` rounds. -/
def Domain.hbBack (d : Domain) (obsLt obsCluster : Nat) : Nat → List Ev → List Ev → List Ev
  | 0, seen, _ => seen
  | fuel + 1, seen, front =>
    let new := d.evs.filter (fun a => !(seen.any (fun x => x.id == a.id)) &&
      front.any (fun b => d.edge obsLt obsCluster a b))
    if new.isEmpty then seen else d.hbBack obsLt obsCluster fuel (seen ++ new) new

/-- a happens before b toward b's tile (06 R153). -/
def Domain.hb (d : Domain) (a b : Ev) : Bool :=
  (d.hbBack b.lt b.cluster d.evs.length [] [b]).any (fun x => x.id == a.id)

/-- hb orders the two events, in one direction or the other (06 R155). -/
def Domain.ordered (d : Domain) (a b : Ev) : Bool := d.hb a b || d.hb b a

/-! ## Open records and races (06 R156, R157) -/

/-- The tick from which a record is no longer open for its own tile: its acknowledgement, or for a squashed record its
guard resolution. -/
def Rec.closed (r : Rec) : Option Nat :=
  match r.stage with
  | .squashed => r.resolved
  | _ => r.ack

/-- Open for the tile at tick `now`: its own tile, or another tile within Vg (06 R156). The span does not hold its last
tick, for either (assumption 109). -/
def openFor (vg now : Nat) (own : Bool) (r : Rec) : Bool :=
  match r.closed with
  | none => true
  | some c => decide (now < c + (if own then 0 else vg))

def Domain.ev? (d : Domain) (id : Nat) : Option Ev := d.evs.find? (fun e => e.id == id)

/-- The events of a record: its reads, its writes and its arrival word. -/
def Domain.recEvs (d : Domain) (r : Rec) : List Ev := d.evs.filter (fun e => e.ofRecord && e.body == r.ev)

/-- Some event of the record conflicts with e and hb orders them in neither direction. Assumption 35. -/
def Domain.races (d : Domain) (r : Rec) (e : Ev) : Bool :=
  (d.recEvs r).any (fun x => conflicts x e && !d.ordered x e)

/-- The pairs of record r's events with e that conflict. -/
def Domain.pairsWith (d : Domain) (r : Rec) (e : Ev) : List (Nat × Nat) :=
  ((d.recEvs r).filter (fun x => conflicts x e)).map (fun x => (x.id, e.id))

/-- The return-stack spill area: base and length, virtual (09 R216). -/
def Domain.spillBase (d : Domain) : Nat := field d.pkt 56 8
def Domain.spillLen (d : Domain) : Nat := field d.pkt 52 4

/-- A footprint fault that is raised Vg later, if hb then orders none of its pairs (06 R157, R158); nothing without a
pair. -/
def Domain.deferRace (d : Domain) (e : Ev) (src detail : Nat) (pairs : List (Nat × Nat)) : Domain :=
  if pairs.isEmpty then d
  else { d with deferred := d.deferred ++ [⟨e.tick + d.vg, e.lt, src, cFootprint, detail, 0, some pairs⟩] }

/-- A footprint fault at the issue of an LS word: its result is suppressed (15 R381). -/
def Domain.raceFault (d : Domain) (e : Ev) (detail : Nat) : Domain :=
  (d.suppress e.lt .ls cFootprint).raise ⟨e.tick, e.lt, 3, cFootprint, detail⟩ 0

/-- The footprint faults of a column access, detected at its issue (06 R157): details 2 and 4 at once, 3 and 5 at the
later tick; relaxed mode exempts a record's own pushes alone (06 R159; assumption 38). `shares` are the spill shares by
tile, as locations: they count as open records of their tiles (09 R216). Of two accesses of one tick the fault names the
tile of the one issued second, the higher logical tile: DESIGN CHOICE, for 06 R157, R158 and 15 R382 give its tick and its
detail alone (assumption 113). -/
def Domain.columnRaces (d : Domain) (e : Ev) (shares : List (Nat × (Nat × Nat))) : Domain :=
  let glob := e.spaces &&& (spG ||| spH) != 0
  let own := d.tiles.any (fun t => t.lt == e.lt && t.recs.any (fun r => openFor d.vg e.tick true r && d.races r e))
  let ownShare := shares.any (fun p => p.1 == e.lt && rangesMeet (e.reads ++ e.writes) [p.2])
  let otherShare := glob && shares.any (fun p => p.1 != e.lt && rangesMeet (e.reads ++ e.writes) [p.2])
  let others := if glob then (d.tiles.filter (fun t => t.lt != e.lt)).flatMap (fun t =>
    (t.recs.filter (fun r => openFor d.vg e.tick false r)).flatMap (fun r => d.pairsWith r e)) else []
  let near := if glob then d.evs.filter (fun o => o.isAccess && o.id != e.id && o.spaces &&& (spG ||| spH) != 0 &&
    decide (e.tick < o.tick + d.vg) && conflicts o e) else []
  let d1 := if own || ownShare then d.raceFault e 2 else d
  let d2 := if near.any (fun o => o.lt == e.lt && !d.ordered o e) then d1.raceFault e 4
    else d1
  let d3 : Domain := if otherShare then { d2 with
    deferred := d2.deferred ++ [⟨e.tick + d.vg, e.lt, 3, cFootprint, 3, 0, none⟩] } else d2
  (d3.deferRace e 3 3 others).deferRace e 3 5 ((near.filter (fun o => o.lt != e.lt)).map (fun o => (o.id, e.id)))

/-- A record's event with the bytes that the checks of a push take (13 R360). -/
def Ev.asPushed (e : Ev) : Ev := { e with reads := e.pushReads, writes := e.pushWrites }

/-- Squashed at its own push, in the tick `now`. -/
def Rec.refusedAt (r : Rec) (now : Nat) : Bool := r.stage == .squashed && r.tick == now && r.resolved == some now

/-- A pushed record, with all its events, races an open record of the domain or a spill share (06 R157, detail 1;
09 R216), G and H taken in virtual addresses (13 R360). A record that was refused in this very tick races none of the
tick's other pushes (assumption 44). -/
def Domain.recordRaces (d : Domain) (lt : Nat) (es : List Ev) (shares : List (Nat × Nat)) : Bool :=
  !d.relaxed && (es.any (fun e => rangesMeet (e.pushReads ++ e.pushWrites) shares) ||
    d.tiles.any (fun t => t.recs.any (fun r => openFor d.vg d.dtick (t.lt == lt) r && !r.refusedAt d.dtick &&
      es.any (fun x => (d.recEvs r).any (fun y =>
        y.body != x.body && conflicts y.asPushed x.asPushed && !d.ordered y x)))))

/-- Column accesses of other tiles that a pushed record races (06 R157, detail 3), raised Vg after the push. -/
def Domain.pushRaces (d : Domain) (es : List Ev) : Domain :=
  match es with
  | [] => d
  | e :: _ => d.deferRace e 0 3 (es.flatMap (fun x => (d.evs.filter (fun o => o.isAccess && o.lt != x.lt &&
      o.spaces &&& (spG ||| spH) != 0 && decide (x.tick ≤ o.tick + d.vg) && conflicts o x)).map (fun o => (o.id, x.id))))

/-- A request has still to be performed. -/
def GOp.pending (g : GOp) : Bool :=
  match g.stage with
  | .done => false
  | .failed _ => false
  | _ => true

/-- The check of a later fault is complete with the requests of a sample: that at the vaults and the host egress once the
accesses of its pairs have reached them, any other at its detection (06 R157, R158, 09 R220). -/
def Domain.checkDone (d : Domain) (tick : Nat) (gops : List GOp) (x : Deferred) : Bool :=
  x.detail != 5 || (match x.pairs with
    | none => true
    | some l => (l.flatMap (fun q => [q.1, q.2])).all (fun i => match d.ev? i with
      | some a => decide (a.tick < tick) && !gops.any (fun g => g.id + 1 == i && g.pending)
      | none => true))

/-- The later fault that is raised next: its tick has come and its check is complete. -/
def Domain.dueDeferred (d : Domain) : Option Deferred :=
  d.deferred.find? (fun x => decide (x.tick ≤ d.dtick) && d.checkDone d.dtick d.gops x)

/-- A later fault of the present tick whose check was not complete in a sample. -/
def Domain.checkMissed (d : Domain) (tick : Nat) (gops : List GOp) : Bool :=
  d.deferred.any (fun x => decide (x.tick ≤ d.dtick) && !d.checkDone tick gops x)

/-- A later fault has come to its tick: raised, unless hb orders every pair that could race (06 R157). -/
def Domain.raiseDeferred (d : Domain) (x : Deferred) : Domain :=
  let d1 : Domain := { d with deferred := d.deferred.erase x }
  let racing (p : Nat × Nat) : Bool := match d.ev? p.1, d.ev? p.2 with
    | some a, some b => !d.ordered a b
    | _, _ => false
  match x.pairs with
  | some l => if l.any racing then d1.raise ⟨x.tick, x.lt, x.src, x.cause, x.detail⟩ x.addr else d1
  | none => d1.raise ⟨x.tick, x.lt, x.src, x.cause, x.detail⟩ x.addr

/-- A new event takes the next identifier. -/
def Domain.addEv (d : Domain) (e : Ev) : Domain :=
  { d with evs := d.evs ++ [{ e with id := d.nextId }], nextId := d.nextId + 1 }

/-- An event of the current tile's column. -/
def newEv (d : Domain) (t : Tile) (col : Column) (kind : EvKind) : Ev :=
  { id := d.nextId, kind := kind, lt := t.lt, cluster := t.cluster, tick := d.dtick, col := col, cls := none,
    spaces := 0, reads := [], writes := [], after := [], acquires := false, tagv := none, waited := false }

/-! ## Operations on semaphores -/

/-- Register an operation on semaphore k of tile lt (06 R144). -/
def Domain.semOp (d : Domain) (lt : Nat) (k : BitVec 4) (o : SemOp) : Domain :=
  d.updTile lt (fun t => { t with sems := upd t.sems k.toNat (fun l => insertSem l o) })

/-- The increment of a source has arrived (06 R144). -/
def Domain.semArrive (d : Domain) (lt : Nat) (k : BitVec 4) (ev : Nat) : Domain :=
  d.updTile lt (fun t => { t with sems := upd t.sems k.toNat (fun l =>
    l.map (fun o => if o.ev = ev then { o with arrived := true } else o)) })

/-! ## Acknowledgement (06 R156, 08 R189, 13 R345) -/

/-- A record that has accessed no bank: squashed, or stopped by a format fault at its start (11 R276, 13 R345). -/
def Rec.idle (r : Rec) : Bool :=
  r.stage == .squashed || (r.progress == 0 && (match r.fault with
    | some (c, _, _) => c == cFormat
    | none => false))

/-- The conflicts that a record counts (04 R105): those of its layout generator; the other kinds have none.
Assumption 17. -/
def Rec.conflicts (r : Rec) : Nat :=
  if r.kindCode ∈ [0x10, 0x11, 0x13, 0x14] ∧ !r.idle then Config.recordConflicts r.bits r.lay1 r.lay2 else 0

/-- Record r of a tile is acknowledged at `now`: it closes, its flags enter FLAGS, trapping when enabled (08 R189,
R190), its bank conflicts enter CONFL (04 R106), and a fault it met is raised (13 R345); a lease
fault has been (03 R77). `told` says that this has been done. -/
def Domain.ackRec (d : Domain) (lt : Nat) (r : Rec) (now : Nat) : Domain :=
  if r.told then d else
  let src := 4 + engIdx r.eng
  let trap : BitVec 9 := match d.tile? lt with
    | some t => t.trapen &&& r.flags
    | none => (0 : BitVec 9)
  let d1 := d.updTile lt (fun t => { t with
    recs := t.recs.map (fun x => if x.id = r.id then { x with ack := some (r.ack.getD now), told := true } else x)
    flags := t.flags ||| r.flags
    confl := BitVec.ofNat 32 (min 0xFFFFFFFF (t.confl.toNat + r.conflicts))
    laneflg := if trap = 0 then t.laneflg else (trap.setWidth 64 <<< 32) ||| 1 })
  let d2 := if trap = 0 then d1 else d1.raise ⟨now, lt, src, cFp, 0⟩ 0
  match r.fault with
  | some (17, _, _) => d2
  | some (c, det, a) => d2.raise ⟨now, lt, src, c, det⟩ a
  | none => d2

/-- Records named by their events, with the records that they waited for in turn. -/
def Tile.ackSet (t : Tile) (now : Nat) : Nat → List Nat → List Nat
  | 0, ids => ids
  | fuel + 1, ids =>
    let more := (t.recs.filter (fun r => ids.contains r.ev)).flatMap (fun r => t.waitedFor now r)
    if more.all (fun i => ids.contains i) then ids else t.ackSet now fuel (ids ++ more)

/-- Acknowledge every record of a tile that satisfies p, with those it waited for (06 R156). -/
def Domain.ackWhere (d : Domain) (lt : Nat) (p : Rec → Bool) (now : Nat) : Domain :=
  match d.tile? lt with
  | none => d
  | some t =>
    let ids := t.ackSet now t.recs.length ((t.recs.filter p).map (fun r => r.ev))
    (t.recs.filter (fun r => ids.contains r.ev)).foldl (fun d r => d.ackRec lt r now) d

/-- Records that a later record's wait orders before it close at its push; their flags and faults enter at the later
record's own acknowledgement (06 R156; assumption 15). -/
def Domain.closeRecs (d : Domain) (lt : Nat) (ids : List Nat) (now : Nat) : Domain :=
  d.updTile lt (fun t => { t with
    recs := t.recs.map (fun x => if ids.contains x.ev && x.ack.isNone then { x with ack := some now } else x) })

/-! ## What has performed (06 R142, R143) -/

/-- The record has not retired: not squashed and its arrival word still to come (04 R95). -/
def Rec.live (r : Rec) : Bool :=
  match r.stage with
  | .squashed => false
  | .complete => false
  | _ => true

/-- An event had performed for an agent when p was sampled: a bank or accumulator access and a released wait at their
issue; a store for TILE once the tile has accepted it, for SYSTEM in H once it is reported visible, else once it is at
its vault or the host egress; a record's event at the record's end. -/
def Past.performed (p : Past) (a : Agent) (e : Ev) : Bool :=
  if e.isAccess then
    e.bankType || e.waited || (decide (e.tick < p.tick) && (match p.gops.find? (fun g => g.id + 1 == e.id) with
      | none => true
      | some g =>
        if g.kind = .store ∧ a = .tile then true
        else if g.kind = .store ∧ a = .system ∧ e.spaces &&& spH ≠ 0 then !g.pending && (g.seen || g.stage != .done)
        else !g.pending))
  else decide (e.tick < p.tick) && p.tiles.all (fun t => t.recs.all (fun r => r.ev != e.body || !r.live))

/-- An event of a tile, later than some fence by its identifier, had to wait when p was sampled: some access that the
fence covers had not performed for its agent (06 R142). -/
def Domain.fenceWaits (d : Domain) (p : Past) (e : Ev) : Bool :=
  d.evs.any (fun f => match f.kind with
    | .fence mask a spaces => po f e && coversLater mask spaces e &&
        d.evs.any (fun x => po x f && coversEarlier mask spaces x && (x.isAccess || x.ofRecord) && !p.performed a x)
    | _ => false)

/-- A pending global or host request conflicts with an event and happens before it (06 R154, R155). -/
def Domain.pendingBefore (d : Domain) (e : Ev) : Bool :=
  d.gops.any (fun g => g.pending && (match d.ev? (g.id + 1) with
    | some a => conflicts a e && d.hb a e
    | none => false))

end Sys2Proof.Machine
end

