-- ==== Sys2Proof/Machine/Translate.lean ====
section
/-!
DEFINITION. From virtual addresses to locations (03): page walks, egress windows, leases, the fault ring, discarded
pages, and the station events of a column's global request.
-/

namespace Sys2Proof.Machine

/-! ## Address rules (02 R56) -/

/-- The owner field of a global address. -/
def ownerOf (va : W64) : Nat := (va.extractLsb' 61 3).toNat
/-- Bits 47:0. -/
def lowAddr (va : W64) : Nat := (va.extractLsb' 0 48).toNat
/-- Owner 6 and 7 and nonzero bits 60:48 are address faults (02 R56). -/
def addrOk (va : W64) : Bool := decide (ownerOf va < 6) && va.extractLsb' 48 13 == 0

/-! ## Leaves (03 R66-R69) -/

def leafV (e : W64) : Bool := e.getLsbD 0
def leafW (e : W64) : Bool := e.getLsbD 1
def leafX (e : W64) : Bool := e.getLsbD 2
def leafD (e : W64) : Bool := e.getLsbD 3
def leafInt (e : W64) : Bool := e.getLsbD 4
def leafG (e : W64) : Bool := e.getLsbD 5
def leafA (e : W64) : Bool := e.getLsbD 6
def leafM (e : W64) : Bool := e.getLsbD 7
def leafSz (e : W64) : Nat := (e.extractLsb' 8 3).toNat
def leafTag (e : W64) : Tag := ⟨e.extractLsb' 11 4, e.extractLsb' 15 2, e.getLsbD 17⟩
def leafPpn (e : W64) : Nat := (e.extractLsb' 20 37).toNat
def leafKey (e : W64) : Nat := (e.extractLsb' 57 7).toNat

/-- The page sizes by SZ code (03 R66). -/
def pageSize (sz : Nat) : Nat :=
  match sz with
  | 0 => 2 ^ 12
  | 1 => 2 ^ 16
  | 2 => 2 ^ 21
  | 3 => 2 ^ 25
  | 4 => 2 ^ 29
  | _ => 2 ^ 32

/-- The level at which a leaf of a size stands (03 R68). -/
def leafLevel (sz : Nat) : Nat :=
  match sz with
  | 0 => 3
  | 1 => 3
  | 2 => 2
  | 3 => 2
  | 4 => 2
  | _ => 1

/-- How a walk takes a discarded page (03 R70, R83, R84): refused, as not discarded, or reported; `relaxed` reports it
and asks for W where the access writes a page that is not discarded (assumption 13). -/
inductive WalkMode where | strict | lease | report | relaxed
  deriving DecidableEq, Repr

/-- A finished walk: the leaf, where it stands, and its page; or the cause, level, entry and its address. -/
inductive Walk where
  | ok (leafLoc : Nat) (leaf : W64) (base size : Nat)
  | bad (cause level : Nat) (entry : W64) (entryPa : Nat)
  deriving DecidableEq, Repr

/-- An SZ of 0-6 fits its level (03 R70, check 3). -/
def szFits (level sz : Nat) : Bool :=
  if sz = 7 then true else if sz = 6 then decide (level ≤ 2) else level == leafLevel sz

/-- No reserved bit or value (03 R70, check 4). -/
def leafClean (e : W64) : Bool :=
  let sz := leafSz e
  if sz = 7 then false
  else if e.extractLsb' 18 2 != 0 || e.extractLsb' 45 12 != 0 then false
  else if sz = 6 then e.extractLsb' 1 7 == 0 && e.extractLsb' 11 9 == 0 && e.extractLsb' 57 7 == 0
  else if leafInt e then
    sz != 0 && decide (leafPpn e * 4096 < 2 ^ 33) && (leafPpn e * 4096) % (pageSize sz / 16) == 0
  else (leafPpn e * 4096) % pageSize sz == 0

/-- The walk of 03 R65 and R70 from a table at `pa`, level by level. DESIGN CHOICE: an entry whose granule fails only its
check code, with no uncorrectable error, stops it with TABLE too, since 18 R434 delivers no such granule (assumption 114). -/
def walkFrom (s : State) (die key va : Nat) (mode : WalkMode) : Nat → Nat → Nat → Walk
  | 0, level, pa => .bad 8 level 0 pa
  | fuel + 1, level, pa =>
    let epa := pa + 8 * (va / 2 ^ (39 - 9 * level) % 512)
    let e : W64 := BitVec.ofNat 64 (s.readLE (locHbm die epa) 8)
    if !s.sound [(locHbm die epa, 8)] then .bad 10 level 0 epa
    else if !leafV e then .bad 1 level e epa
    else if !szFits level (leafSz e) then .bad 8 level e epa
    else if !leafClean e then .bad 7 level e epa
    else if leafSz e = 6 then walkFrom s die key va mode fuel (level + 1) (leafPpn e * 4096)
    else if leafKey e != key && !leafG e then .bad 3 level e epa
    else if leafD e && mode == .strict then .bad 2 level e epa
    else .ok (locHbm die epa) e (va / pageSize (leafSz e) * pageSize (leafSz e)) (pageSize (leafSz e))

/-- The walk from the partition's table on a die. DESIGN CHOICE: PTROOT is taken as it was written, aligned to 4 KiB or not,
and one beyond the die's HBM leads to the storage that follows it, for 03 R65 gives no check of it (assumption 115). -/
def walk (s : State) (die key va : Nat) (mode : WalkMode) : Walk :=
  walkFrom s die key va mode 4 0 ((s.die die).ptroot.getD key 0).toNat

/-- The physical address in a page (03 R69). -/
def leafPa (e : W64) (o : Nat) : Nat :=
  if leafInt e then
    let j := o / 4096
    j % 16 * 2 ^ 33 + leafPpn e * 4096 + j / 16 * 4096 + o % 4096
  else leafPpn e * 4096 + o

/-- The vault of a physical address within a die, and the HBM stack of a die's vault (02 R38). The cache of the vault node
holds nothing that memory does not. -/
def vaultOf (pa : Nat) : Nat := pa / 2 ^ 33 % 16
def stackOf (die vault : Nat) : Nat := 2 * die + vault / 8

/-- The station of an address (03 R62). -/
def stationOf (va : Nat) : Nat :=
  (List.range 12).foldl (fun x i => x ^^^ (va / 2 ^ (12 + 3 * i) % 8)) 0

/-! ## Egress (18 R430, R431) -/

/-- The lowest-numbered valid window of the key that holds the address: its base, host address and W bit. -/
def egressFind (ws : List (W64 × W64 × W64)) (key a : Nat) : Option (Nat × Nat × Bool) :=
  match ws with
  | [] => none
  | (b, u, h) :: r =>
    let base := (b.extractLsb' 21 27).toNat * 2 ^ 21
    let size := (u.extractLsb' 0 32).toNat * 2 ^ 21
    if b.getLsbD 0 && (b.extractLsb' 4 4).toNat == key && decide (base ≤ a) && decide (a < base + size)
    then some (base, h.toNat, b.getLsbD 1) else egressFind r key a

/-- The SPEGR mask of a master (18 R432). -/
def spegr (s : State) (master : Nat) : BitVec 8 := (assoc s.macl master 0).extractLsb' 16 8

/-- Where an address leads: the location of its byte, the tag, W and X bits, whether its page is discarded, and the
leaf to update; or a cause of 03 R80. -/
structure Place where
  loc : Nat
  tag : Tag
  w : Bool
  x : Bool
  discarded : Bool
  leafLoc : Option Nat
  deriving DecidableEq, Repr

/-- Translation of an address for a requester (03 R61): key, master, how it takes discarded pages, write or not. An address
that breaks 02 R56 leads nowhere. DESIGN CHOICE: a write by a device master or through the aperture does not test W: 03 R79
gives no such check (assumption 13). -/
def resolve (s : State) (key master : Nat) (mode : WalkMode) (wr : Bool) (va : W64) : Except Walk Place :=
  let a := lowAddr va
  if !addrOk va then .error (.bad 0 0 0 0)
  else if ownerOf va < 4 then
    match walk s (ownerOf va) key a mode with
    | .ok l e base _ =>
      if mode == .relaxed && wr && !leafW e && !leafD e then .error (.bad 4 (leafLevel (leafSz e)) e (l % 2 ^ 37))
      else .ok ⟨locHbm (ownerOf va) (leafPa e (a - base)), leafTag e, leafW e, leafX e,
        leafD e && (mode == .report || mode == .relaxed), some l⟩
    | .bad c lv e p => .error (.bad c lv e p)
  else if ownerOf va = 4 then
    match egressFind s.egress key a with
    | some (base, h, w) =>
      if wr && !w then .error (.bad (if mode == .relaxed then 9 else 4) 0 0 0)
      else .ok ⟨locHost ((h + a - base) % 2 ^ 64), Tag.raw, w, false, false, none⟩
    | none => .error (.bad 9 0 0 0)
  else if (spegr s master).getLsbD (a / 2 ^ 45) then .ok ⟨locPeer a, Tag.raw, true, false, false, none⟩
  else .error (.bad 9 0 0 0)

/-- A station sets A, and M for a write, in the leaf it uses (03 R71). Assumption 73. -/
def State.touchLeaf (s : State) (p : Place) (wr : Bool) : State :=
  match p.leafLoc with
  | none => s
  | some l => s.writeByte l (s.readByte l ||| 0x40 ||| (if wr then 0x80 else 0))

/-- A walk that stopped at a table entry with an uncorrectable error has met it (03 R70, 18 R435). -/
def State.countWalk (s : State) (va : W64) : Walk → State
  | .bad 10 _ _ pa => s.countFlaws [(locHbm (ownerOf va) pa, 8)]
  | .bad .. => s
  | .ok .. => s

/-- A range lies in host memory while no link carries traffic (18 R423). -/
def State.cutOff (s : State) (loc : Nat) : Bool := isHostLoc loc && !s.hostUp

/-- The first write through a TLB entry whose M = 0 sets M, in the leaf and in the entry, and nothing else (03 R71). DESIGN
CHOICE: while the leaf's granule fails its check, which the update would merge with, it is not made and its errors count
(18 R433-R435; assumption 116). -/
def State.markWritten (s : State) (die : Nat) (e : TlbEntry) : State :=
  if leafM e.leaf then s
  else if !s.mergeSound (e.leafLoc, 1) then s.countFlaws [(e.leafLoc, 1)]
  else (s.writeByte e.leafLoc (s.readByte e.leafLoc ||| 0x80)).updDie die (fun q =>
    { q with tlb := q.tlb.map (fun x => if x = e then { x with leaf := x.leaf ||| 0x80 } else x) })

/-- The mode in which a domain's accesses walk: a live lease reads D as 0; relaxed mode reports it (03 R83, R84). -/
def Domain.walkMode (d : Domain) : WalkMode := if d.relaxed then .relaxed else .lease

/-- The master of a domain's columns and engines on the die of a cluster (18 R432). -/
def masterOf (cl : Nat) : Nat := if cl < 192 then 0x100 + 16 * (cl / 48) else 0x10F + 16 * (cl - 192)

def resolveFor (s : State) (d : Domain) (t : Tile) (wr : Bool) (va : W64) : Except Walk Place :=
  resolve s d.part (masterOf t.cluster) d.walkMode wr va

/-- The physical ranges of a virtual range, page piece by page piece; bytes with no translation give none. -/
def locRanges (s : State) (d : Domain) (t : Tile) (wr : Bool) : Nat → W64 → Nat → List (Nat × Nat)
  | 0, _, _ => []
  | fuel + 1, va, len =>
    if len = 0 then []
    else
      let n := min len (4096 - lowAddr va % 4096)
      (match resolveFor s d t wr va with
        | .ok p => [(p.loc, n)]
        | .error _ => []) ++ locRanges s d t wr fuel (va + BitVec.ofNat 64 n) (len - n)

/-- Pages that a range of a length can touch. -/
def pieces (len : Nat) : Nat := len / 4096 + 2

def globalRanges (s : State) (d : Domain) (t : Tile) (wr : Bool) (va : W64) (len : Nat) : List (Nat × Nat) :=
  locRanges s d t wr (pieces len) va len

/-! ## Leases (03 R76) -/

/-- Every byte from `a` on lies in some allowed range. DESIGN CHOICE: where ranges of RW 0 and RW 1 overlap, a write is
admitted; 03 R76 speaks of one range (assumption 78). -/
def covered (rs : List (Range × Bool)) (wr : Bool) : Nat → Nat → Nat → Bool
  | 0, _, _ => false
  | fuel + 1, a, len =>
    if len = 0 then true
    else match rs.find? (fun r => decide (r.1.base.toNat ≤ a) && decide (a < r.1.base.toNat + r.1.len) &&
        (!wr || r.2)) with
      | none => false
      | some r =>
        let n := min len (r.1.base.toNat + r.1.len - a)
        covered rs wr fuel (a + n) (len - n)

/-- The lease check of an access: relaxed mode has none (03 R76, R81). -/
def leaseOk (s : State) (d : Domain) (wr : Bool) (va : W64) (len : Nat) : Bool :=
  d.relaxed || (match s.leases.find? (fun l => l.handle == d.handle) with
    | some l => covered (l.ranges.zip l.rw) wr (l.ranges.length + 1) va.toNat len
    | none => covered (d.ranges.map (fun r => (r, false))) wr (d.ranges.length + 1) va.toNat len)

/-! ## The fault ring (03 R79-R81) -/

def ringFull (p : Partition) : Bool := (p.frhead - p.frtail).toNat == p.frsize.toNat

/-- Write a 64-byte record into a partition's ring; a ring write that finds no page or a discarded one, that no link carries
to the host, or that would merge with a granule failing its check, is lost (03 R79, R84; 18 R423, R433). DESIGN CHOICE:
FRBASE is taken as it was written, aligned or not; an owner of 5 reaches the peer and 6 and 7 nothing (assumption 98). -/
def State.ringWrite (s : State) (part : Nat) (record : List Byte) : State :=
  let p := s.part part
  let va := p.frbase + BitVec.ofNat 64 (64 * (p.frhead.toNat % p.frsize.toNat))
  let seq := p.frhead + 1
  let bytes := record.take 56 ++ toLE 8 seq.toNat
  let lost (s : State) : State := s.updPart part (fun p => { p with frstat := p.frstat ||| 8 })
  match resolve s part 0x101 .report true va with
  | .ok q =>
    if q.discarded then s.updPart part (fun p => { p with frstat := p.frstat ||| 8, dwrite := p.dwrite + 1 })
    else if s.cutOff q.loc then lost s
    else if !s.mergeSound (q.loc, 64) then lost (s.countFlaws [(q.loc, 64)])
    else (s.writeBytes q.loc bytes).updPart part (fun p => { p with frhead := seq })
  | .error w => lost (s.countWalk va w)

/-- The DROPS count, bits 63:32, plus one. DESIGN CHOICE: at its maximum the count wraps to 0, since 03 R79 gives no end
(assumption 79). -/
def addDrop (x : W64) : W64 := x + (1 <<< 32)

/-- An open-mode record is written, or counted when the ring is full or off (03 R79, R81). DESIGN CHOICE: while EN is 0 the
count alone moves, and OVF stays, whether or not the ring is full (assumption 99). -/
def State.ringRecord (s : State) (part : Nat) (record : List Byte) : State :=
  let p := s.part part
  if !p.frstat.getLsbD 0 then s.updPart part (fun p => { p with frstat := addDrop p.frstat })
  else if ringFull p then s.updPart part (fun p => { p with frstat := addDrop p.frstat ||| 2 })
  else s.ringWrite part record

/-- A fault-ring record (03 R80). -/
def ringBytes (type cause level : Nat) (wr : Bool) (part who10 range seq : Nat) (va : W64) (pageidx remain : Nat)
    (entry : W64) (entryPa who : Nat) : List Byte :=
  toLE 4 (type % 16 + cause % 16 * 16 + level % 4 * 256 + wr.toNat * 1024 + part % 16 * 4096 + who10 % 1024 * 65536 +
    range % 32 * 2 ^ 26) ++ toLE 4 seq ++ toLE 8 va.toNat ++ toLE 8 pageidx ++ toLE 8 remain ++ toLE 8 entry.toNat ++
    toLE 8 entryPa ++ toLE 8 who

/-- The TYPE 2 record of an open-mode access (03 R80, R81). `kind`: 0 column, 1 CE, 2 GU, 3 CH. Assumption 60. -/
def State.openRecord (s : State) (d : Domain) (t : Tile) (kind : Nat) (wr : Bool) (va : W64) (size : Nat) (w : Walk) :
    State :=
  match w with
  | .bad c lv e p =>
    (s.countWalk va w).ringRecord d.part (ringBytes 2 c lv wr d.part (masterOf t.cluster) 0 (s.seqOf d.seq) va 0 size e p
      (t.lt % 1024 + kind * 1024 + d.dtick % 2 ^ 32 * 2 ^ 32))
  | .ok .. => s

/-! ## A column's request at its station (03 R61-R70, R84) -/

def Domain.gop? (d : Domain) (id : Nat) : Option GOp := d.gops.find? (fun g => g.id == id)

def Domain.setGop (d : Domain) (g : GOp) : Domain :=
  { d with gops := d.gops.map (fun x => if x.id = g.id then g else x) }

/-- A TLB hit of the station that serves the address: an entry that a walk of the same partition installed, so that a hit
gives what its own tables gave (03 R63). Assumption 40. -/
def tlbFind (tlb : List TlbEntry) (key va : Nat) : Option TlbEntry :=
  tlb.find? (fun e => e.station == stationOf va && decide (e.base ≤ va) && decide (va < e.base + e.size) &&
    e.key == key)

/-- What a failed translation brings (03 R77, R81): in a lease, a lease fault at the present tick; in relaxed mode, a
TYPE 2 record and a translation fault at the completion tick of a load, its latch owed, and Vg after a store; while the
domain is halted a load's fault is a secondary cause (15 R384). -/
def State.failGop (s : State) (d : Domain) (t : Tile) (g : GOp) (w : Walk) : State :=
  let s1 := if d.relaxed then s.openRecord d t 0 (g.kind != .load) g.va g.size w else s.countWalk g.va w
  s1.updDom d.seq (fun d =>
    let cause := match w with
      | .bad c _ _ _ => c
      | .ok .. => 0
    let code := if d.relaxed then cTranslation else cLease
    let due := if g.kind = .store then g.tick + d.vg else
      (match (d.tile? g.lt).bind (fun t => t.flights.find? (fun f => f.gop == some g.id)) with
        | some f => f.due
        | none => d.dtick)
    let d1 := (d.setGop { g with stage := .failed cause }).updTile g.lt (fun t => { t with
      flights := t.flights.map (fun f =>
        if f.gop = some g.id then { f with gop := none, cause := code, owed := d.relaxed } else f) })
    if d.relaxed && d.phase == .halted && g.kind != .store then
      d1.addCause ⟨due, g.lt, 3, cTranslation, 0⟩ g.va
    else if d.relaxed then { d1 with deferred := d1.deferred ++ [⟨due, g.lt, 3, cTranslation, 0, g.va, none⟩] }
    else d1.raise ⟨d.dtick, g.lt, 3, cLease, 0⟩ g.va)

/-- The request named by `cur`, with its domain and tile. -/
def withGop (s : State) (f : Domain → Tile → GOp → State) : Out :=
  match s.dom? s.cur.dom with
  | none => .fault .noContext
  | some d =>
    match d.gop? s.cur.item with
    | none => .fault .noContext
    | some g =>
      match d.tile? g.lt with
      | none => .fault .noContext
      | some t => .next (f d t g)

/-- Translate by a placed answer: the request is ready at its location. -/
def State.readyGop (s : State) (d : Domain) (g : GOp) (loc : Nat) (discarded : Bool) : State :=
  s.updDom d.seq (fun d => d.setGop { g with stage := .ready loc discarded })

/-- GLOBAL_REQUEST_TRANSLATE (03 R61-R63): owners 4 and 5 need no station; a hit translates, a miss waits for a walk. -/
def execGlobalRequestTranslate (s : State) : Out :=
  withGop s (fun d t g =>
    let a := lowAddr g.va
    if ownerOf g.va < 4 then
      match tlbFind (s.die (ownerOf g.va)).tlb d.part a with
      | some e =>
        if d.relaxed && g.kind != .load && !leafW e.leaf && !leafD e.leaf then
          s.failGop d t g (.bad 4 (leafLevel (leafSz e.leaf)) e.leaf (e.leafLoc % 2 ^ 37))
        else
        (if g.kind = .load then s else s.markWritten (ownerOf g.va) e).readyGop d g
          (locHbm (ownerOf g.va) (leafPa e.leaf (a - e.base))) (leafD e.leaf && d.relaxed)
      | none => s.updDom d.seq (fun d => d.setGop { g with stage := .walking })
    else
      match resolveFor s d t (g.kind != .load) g.va with
      | .ok p => s.readyGop d g p.loc false
      | .error w => s.failGop d t g w)

/-- The station that serves an address installs what a walk for it has found (03 R61-R63). -/
def State.install (s : State) (key : Nat) (va : W64) (loc : Nat) (leaf : W64) (base size : Nat) : State :=
  if ownerOf va < 4 then s.updDie (ownerOf va) (fun q =>
    { q with tlb := ⟨stationOf (lowAddr va), key, base, size, loc, leaf⟩ :: q.tlb }) else s

/-- The station of the owner that serves an address holds its page, among the translations of the dies (03 R62). -/
def residentAt (tlbs : List (List TlbEntry)) (key : Nat) (va : W64) : Bool :=
  (tlbFind (tlbs.getD (ownerOf va) []) key (lowAddr va)).isSome

/-- PAGE_WALK_COMPLETE (03 R63, R70, R71): the walk's checks decide; every request merged behind it is answered. -/
def execPageWalkComplete (s : State) : Out :=
  withGop s (fun d t g =>
    match walk s (ownerOf g.va) d.part (lowAddr g.va) d.walkMode with
    | .ok l e base size =>
      if d.relaxed && g.kind != .load && !leafW e && !leafD e then
        s.failGop d t g (.bad 4 (leafLevel (leafSz e)) e (l % 2 ^ 37))
      else
      let p : Place := ⟨locHbm (ownerOf g.va) (leafPa e (lowAddr g.va - base)), leafTag e, leafW e, leafX e,
        leafD e && d.relaxed, some l⟩
      let s1 := s.touchLeaf p (g.kind != .load)
      let s2 := s1.install d.part g.va l (if g.kind = .load then e else e ||| 0x80) base size
      s2.readyGop d g p.loc p.discarded
    | .bad c lv e p => s.failGop d t g (.bad c lv e p))

/-- The translations that the stations hold, die by die. -/
def State.tlbs (s : State) : List (List TlbEntry) := s.dies.map (fun q => q.tlb)

/-- A read of an engine or of the block loader translates an address: a page that the station serving the address
does not hold is walked, its A set, and installed there (03 R62, R63, R71). -/
def State.useRead (s : State) (d : Domain) (va : W64) : State :=
  if residentAt s.tlbs d.part va then s
  else match walk s (ownerOf va) d.part (lowAddr va) d.walkMode with
    | .ok l e b n => if ownerOf va < 4 then (s.writeByte l (s.readByte l ||| 0x40)).install d.part va l e b n else s
    | .bad .. => s

/-- Whether a translation matches an invalidation (03 R72). -/
def tlbMatches (inv : W64) (e : TlbEntry) : Bool :=
  let key := (inv.extractLsb' 48 4).toNat
  let sz := (inv.extractLsb' 8 3).toNat
  let base := (inv.extractLsb' 12 36).toNat * 4096 / pageSize sz * pageSize sz
  (e.key == key || leafKey e.leaf == key) && (inv.getLsbD 62 || (decide (e.base < base + pageSize sz) && decide (base < e.base + e.size)))

/-- TLBINV_GO (03 R72): GO starts an invalidation; SZ 6 and 7 are ignored with GO. A write that finds an invalidation
under way lets its range be dropped first. Assumption 41. -/
def execTlbinvGo (die : Nat) (value : BitVec 64) (s : State) : Out :=
  let sz := (value.extractLsb' 8 3).toNat
  let fields : W64 := value &&& 0x400FFFFFFFFFF700
  let go := value.getLsbD 63 && decide (sz < 6)
  .next (s.updDie die (fun d => { d with
    tlb := if d.tlbinv.getLsbD 63 then d.tlb.filter (fun e => !tlbMatches d.tlbinv e) else d.tlb
    tlbinv := fields ||| (if go then 0x8000000000000000 else d.tlbinv &&& 0x8000000000000000) }))

/-- TLBINV_DONE: every station has dropped the matching entries; walks in flight for them walk again by the tables as
they now stand (03 R72). -/
def execTlbinvDone (s : State) : Out :=
  .next (s.updDie s.cur.die (fun d => { d with
    tlb := d.tlb.filter (fun e => !tlbMatches d.tlbinv e)
    tlbinv := d.tlbinv &&& 0x7FFFFFFFFFFFFFFF }))

end Sys2Proof.Machine
end

