-- ==== Sys2Proof/Machine/Control.lean ====
section
/-!
DEFINITION. Control words: fillers, PREP, LEAP, VOTE, HALT, TRAP (09 R210-R219, 10 R229, 11 R268-R270), and the
deliveries that votes and agreed decisions lead to.
-/

namespace Sys2Proof.Machine

/-! ## Fillers (10 R229) -/

/-- A filler issued at t counts as issued at t + n. -/
def fill (s : State) (n : Nat) : Out :=
  onTile s (fun _ t => { t with streams := upd t.streams (colIdx s.cur.col) (fun st => { st with base := st.base + n }) })

def execSkip (n : BitVec 6) (s : State) : Out := fill s n.toNat
def execSkipl (n : BitVec 20) (s : State) : Out := fill s n.toNat

/-! ## The block loader (09 R205) -/

/-- Start fetching the block at an address for an owner that holds no fetch of it. -/
def Tile.startFetch (t : Tile) (o : FetchFor) (a : W64) : Tile :=
  if t.loader.any (fun f => f.owner == o && f.addr == a) then t
  else { t with loader := t.loader.filter (fun f => f.owner != o) ++ [⟨a, .asked, o⟩] }

/-- A taken decision has fixed the block at an address as the continuation (09 R211). -/
def Tile.fixes (t : Tile) (a : W64) : Bool :=
  match t.decision with
  | some d => d.taken && d.cont == a
  | none => false

/-- The fetch that a target register holds is abandoned, unless a taken LEAP has fixed it (09 R210, R211). -/
def Tile.abandon (t : Tile) (r : BitVec 2) : Tile :=
  { t with loader := t.loader.filterMap (fun f =>
      if f.owner != .target r then some f
      else if t.fixes f.addr then some { f with owner := .fixed }
      else none) }

/-- Load target register r at tick `now` (09 R210): the register's own earlier fetch is abandoned, and the block at the new
address is fetched. -/
def Tile.setTarget (t : Tile) (r : BitVec 2) (a : W64) (now : Nat) (ret : Bool) : Tile :=
  ({ t with targets := upd t.targets r.toNat (fun _ => ⟨a, now + 24, ret, true⟩) }.abandon r).startFetch (.target r) a

/-- A block is entered: of the fetches, those of the target registers stand, and the fall-through's is its own; one that
has failed is asked for again from a new entry (09 R205). -/
def Tile.enterFetches (t : Tile) (b : Block) (again : Bool) : Tile :=
  { t with loader := t.loader.filter (fun f => match f.owner with
      | .target _ => true
      | .fixed => false
      | .fall => f.addr == b.after && (again || (match f.stage with
        | .failed .. => false
        | _ => true))) }.startFetch .fall b.after

def Tile.target (t : Tile) (r : BitVec 2) : TReg := t.targets.getD r.toNat ⟨0, 0, false, false⟩

/-- PREP: the header address plus 8 times the signed offset (09 R210). -/
def execPrep (r : BitVec 2) (o : BitVec 16) (s : State) : Out :=
  onTile s (fun d t => t.setTarget r (t.block.addr + (o.signExtend 64 <<< 3)) d.dtick false)

/-- PREP.S: an address that is not 8-byte aligned or breaks 02 R56 raises an address fault (09 R210). -/
def execPrepS (r : BitVec 2) (a : SSpec) (s : State) : Out :=
  onDom s (fun d t =>
    let x := t.sval a
    if x.toNat % 8 != 0 || !addrOk x then s.raise 0 cAddress 0 x else s.put (t.setTarget r x d.dtick false))

/-- PREP.RET: the top of the return stack, not removed; UNDERFLOW when stack and spill are empty (09 R210). -/
def execPrepRet (r : BitVec 2) (s : State) : Out :=
  onDom s (fun d t =>
    match t.stack with
    | a :: _ => s.put (t.setTarget r a d.dtick true)
    | [] => if t.spills = 0 then s.raise 0 cReturn 2 0 else s.put (t.setTarget r 0 d.dtick true))

/-! ## The return stack (09 R214-R216) -/

/-- The entries of a tile's spill share. -/
def Domain.shareEntries (d : Domain) : Nat := d.spillLen / (8 * d.tiles.length)

/-- The virtual address of slot c of a tile's share. -/
def Domain.shareSlot (d : Domain) (lt c : Nat) : W64 :=
  BitVec.ofNat 64 (d.spillBase + lt * 8 * d.shareEntries + 8 * c)

/-- The location ranges of every tile's share; an area with no room for an entry per tile makes none. -/
def shareRanges (s : State) (d : Domain) : List (Nat × (Nat × Nat)) :=
  if d.shareEntries = 0 then [] else
  d.tiles.flatMap (fun t => (globalRanges s d t true (d.shareSlot t.lt 0) (8 * d.shareEntries)).map (fun r => (t.lt, r)))

/-- The cause by which a share's granule that fails its check is told from a failed walk; its location is the entry's. -/
def flawCause : Nat := 254

/-- An access of the share has failed: a walk, in a lease with a lease fault at the present tick (03 R77) and in open mode
with a TYPE 2 record and a translation fault (03 R81); or the check of its granule, with a data-integrity fault, its
uncorrectable errors counted (18 R433-R435). Assumption 80. -/
def State.shareFault (s : State) (d : Domain) (t : Tile) (wr : Bool) (va : W64) (w : Walk) : State :=
  let (s1, code) : State × Nat := match w with
    | .bad c lv e loc =>
      if c = flawCause then (s.countFlaws [(loc, 8)], cIntegrity)
      else if d.relaxed then (s.openRecord d t 0 wr va 8 (.bad c lv e loc), cTranslation)
      else (s.countWalk va (.bad c lv e loc), cLease)
    | .ok .. => (s, cLease)
  s1.updDom d.seq (fun e => e.raise ⟨d.dtick, t.lt, 0, code, 0⟩ va)

/-- A read from a discarded page (03 R84). -/
def State.countRead (s : State) (part : Nat) : State := s.updPart part (fun p => { p with frstat := p.frstat ||| 4 })
/-- A write to a discarded page (03 R84). -/
def State.countWrite (s : State) (part : Nat) : State := s.updPart part (fun p => { p with dwrite := p.dwrite + 1 })

/-- Entries on chip, those on their way from the share included. -/
def Tile.onChip (t : Tile) : Nat := t.stack.length + t.refill

/-- Push an address; the oldest of eight entries goes to the share, or stays there when it is still on its way
(09 R214). -/
def Tile.pushReturn (t : Tile) (a : W64) : Tile :=
  if t.onChip < 8 then { t with stack := a :: t.stack }
  else if 0 < t.refill then { t with stack := a :: t.stack, refill := t.refill - 1 }
  else { t with stack := a :: t.stack.dropLast, spills := t.spills + 1 }

/-- A push writes the oldest of eight entries on chip to slot c of the share (09 R214). -/
def Tile.spilling (t : Tile) : Bool := decide (8 ≤ t.onChip) && decide (t.refill = 0)

/-- What a push does beside the tile. A word for host memory that no link carries waits for one at the egress, and those
behind it (18 R423). -/
def State.spill (s : State) (d : Domain) (t : Tile) : State :=
  if !t.spilling then s
  else
    match resolveFor s d t true (d.shareSlot t.lt t.spills) with
    | .ok p =>
      let s1 := s.touchLeaf p true
      let x := t.stack.getLastD 0
      if p.discarded then s1.countWrite d.part
      else if s.cutOff p.loc then s1.updTile d.seq t.lt (fun u => { u with owed := u.owed ++ [(p.loc, x)] })
      else s1.writeLE p.loc 8 x.toNat
    | .error _ => s

/-- A push's spill fails: its walk, or the check of the granule that it merges with (18 R433). -/
def State.spillFails (s : State) (d : Domain) (t : Tile) : Option Walk :=
  if !t.spilling then none
  else match resolveFor s d t true (d.shareSlot t.lt t.spills) with
    | .ok p => if p.discarded || s.cutOff p.loc || s.mergeSound (p.loc, 8) then none else some (.bad flawCause 0 0 p.loc)
    | .error w => some w

/-- A link is up again: the spilled words that waited at the egress are in host memory. One that would merge with a granule
failing its check is lost, with a data-integrity fault on its tile (18 R423, R433, R434; assumption 80). -/
def State.spillOut (s : State) (k lt : Nat) : State :=
  match s.dom? k with
  | none => s
  | some d => match d.tile? lt with
    | none => s
    | some t => t.owed.foldl (fun s x =>
        if s.mergeSound (x.1, 8) then s.writeLE x.1 8 x.2.toNat
        else s.shareFault d t true 0 (.bad flawCause 0 0 x.1)) (s.updTile k lt (fun u => { u with owed := [] }))

/-- Pop the top; when seven entries are left and entries are spilled, a refill starts (09 R216). -/
def Tile.popReturn (t : Tile) : Tile :=
  { t with stack := t.stack.tail, refill := if t.onChip = 8 ∧ t.refill < t.spills then t.refill + 1 else t.refill }

/-- RETURN_STACK_REFILL: slot c − 1 of the share returns into the bottom of the stack (09 R216); a failed walk, or a granule
that fails its check (18 R434), raises its fault and leaves the slot to be read again. -/
def execReturnStackRefill (s : State) : Out :=
  onDom s (fun d t =>
    let va := d.shareSlot t.lt (t.spills - 1)
    match resolveFor s d t false va with
    | .ok p =>
      let s1 := s.touchLeaf p false
      if !p.discarded && !s.sound [(p.loc, 8)] then s1.shareFault d t false va (.bad flawCause 0 0 p.loc)
      else
      let x : W64 := if p.discarded then 0 else BitVec.ofNat 64 (s.readLE p.loc 8)
      (if p.discarded then s1.countRead d.part else s1).put
        { t with stack := t.stack ++ [x], spills := t.spills - 1, refill := t.refill - 1 }
    | .error w => s.shareFault d t false va w)

/-! ## Decisions (09 R211, R212, R219) -/

/-- Where the tile goes when its decision is not taken (09 R204). -/
def Tile.notTaken (t : Tile) : W64 :=
  if t.rep < (t.block.hdr.extractLsb' 16 8).toNat then t.block.addr else t.block.after

/-- The effect of a LEAP form on its tile (09 R211, R215): a form that traps acts as not taken, and pushes and pops nothing,
one whose spill has no translation, or no sound granule, among them. -/
def leapForm (s : State) (r : BitVec 2) (p : BitVec 3) (sense link : Bool) (after : State → Domain → Tile → State) :
    Out :=
  onDom s (fun d t =>
    let taken := (t.pred p).value != sense
    let tr := t.target r
    let no : Tile := { t with decision := some ⟨false, t.notTaken⟩ }
    if taken && (!tr.loaded || decide (d.dtick < tr.ready)) then
      after ((s.put no).raise 0 cDecision 0 0) d no
    else if taken && link && decide (8 ≤ t.onChip) && decide (d.shareEntries ≤ t.spills - t.refill) then
      after ((s.put no).raise 0 cReturn 1 0) d no
    else if let some w := (if taken && link then s.spillFails d t else none) then
      after ((s.put no).shareFault d no true (d.shareSlot t.lt t.spills) w) d no
    else if taken then
      let t1 := if link then t.pushReturn t.block.after else t
      let t2 := if tr.ret then t1.popReturn else t1
      let t3 := { t2 with decision := some ⟨true, tr.addr⟩ }
      after (if link then (s.put t3).spill d t else s.put t3) d t3
    else after (s.put no) d no)

def execLeap (r : BitVec 2) (p : BitVec 3) (sense : Bool) (s : State) : Out :=
  leapForm s r p sense false (fun s _ _ => s)

def execLeapl (r : BitVec 2) (p : BitVec 3) (sense : Bool) (s : State) : Out :=
  leapForm s r p sense true (fun s _ _ => s)

/-- LEAP.D also leaves its continuation for the comparison at d + Lv (09 R219). -/
def execLeapD (r : BitVec 2) (p : BitVec 3) (sense : Bool) (s : State) : Out :=
  leapForm s r p sense false (fun s d t =>
    s.updDom d.seq (fun e => { e with choices := e.choices ++
      [⟨t.lt, d.dtick, (match t.decision with
        | some c => c.cont
        | none => t.notTaken), t.wordOfs .sq⟩] }))

/-- Raise a cause on every tile of a domain. -/
def Domain.raiseAll (d : Domain) (det src code detail : Nat) : Domain :=
  d.tiles.foldl (fun d t => d.raise ⟨det, t.lt, src, code, detail⟩ 0) d

/-- LEAP_D_CHECK: the addresses chosen at d are compared over group 0 at d + Lv (09 R219). -/
def execLeapDCheck (s : State) : Out :=
  match s.dom? s.cur.dom with
  | none => .fault .noContext
  | some d =>
    match d.choices with
    | [] => .fault .noContext
    | c :: _ =>
      let same := d.choices.filter (fun x => x.tick == c.tick)
      let agree := d.tiles.all (fun t => same.any (fun x => x.lt == t.lt && x.cont == c.cont))
      .next (s.updDom d.seq (fun e =>
        let e1 := { e with choices := e.choices.filter (fun x => x.tick != c.tick) }
        if agree then e1 else e1.raiseAll (c.tick + d.voteLat) 0 cDivergence 0))

/-! ## Votes (09 R218) -/

/-- VOTE leaves its tile's part for the delivery at t + Lv. -/
def execVote (p : BitVec 3) (w : Bool) (a b : SSpec) (c : VoteOp) (s : State) : Out :=
  onDom s (fun d t => s.updDom d.seq (fun e => { e with ballots := e.ballots ++
    [⟨t.lt, d.dtick, (t.sval b).toNat, c, t.sval a, p, w, t.wordOfs .sq⟩] }))

/-- The members of a group; group 0 is the whole domain (09 R217). -/
def Domain.group (d : Domain) (g : Nat) : List Nat :=
  if g = 0 then d.tiles.map (fun t => t.lt) else assoc d.groups g []

/-- The result of a vote over its members' values (09 R218). -/
def voteResult (op : VoteOp) (vs : List W64) : W64 :=
  match op with
  | .any => if vs.any (· != 0) then 1 else 0
  | .all => if vs.all (· != 0) then 1 else 0
  | .max => vs.tail.foldl (fun x y => if x.slt y then y else x) (vs.headD 0)
  | .min => vs.tail.foldl (fun x y => if y.slt x then y else x) (vs.headD 0)
  | .add => vs.foldl (· + ·) 0

/-- A member's ballot in the vote of `b`. -/
def Domain.ballotOf (d : Domain) (b : Ballot) (lt : Nat) : Option Ballot :=
  d.ballots.find? (fun x => x.lt == lt && x.tick == b.tick && x.group == b.group && x.op == b.op)

/-- Every condition of a vote without fault (09 R218). -/
def Domain.voteOk (d : Domain) (b : Ballot) : Bool :=
  decide (b.group ≤ 255) && (d.group b.group).contains b.lt &&
    (d.group b.group).all (fun m => (d.ballotOf b m).isSome)

/-- The value that the vote of `b` delivers. -/
def Domain.voteValue (d : Domain) (b : Ballot) : W64 :=
  voteResult b.op ((d.group b.group).filterMap (fun m => (d.ballotOf b m).map (fun x => x.value)))

/-- What a member's part writes: a slot, ANDed with its old value under PW, or the SQ queue. -/
def Tile.takeVote (t : Tile) (b : Ballot) (r : W64) : Tile :=
  if b.op.isPred then t.setPred b.slot ((r != 0) && (!b.pw || (t.pred b.slot).value)) else t.pushSq r

/-! ## Guards (11 R276) -/

/-- Squash a record: it is dequeued, its increment takes its place in signal order, and its events, which hold its
footprint for as long as it is open (06 R156), carry no order. -/
def Domain.squash (d : Domain) (lt : Nat) (r : Rec) (now : Nat) : Domain :=
  let d1 := d.updTile lt (fun t => { t with
    recs := t.recs.map (fun x => if x.id = r.id then { x with stage := .squashed, resolved := some now } else x)
    engines := upd t.engines (engIdx r.eng) (fun q => { q with entries := q.entries.filter (fun e => e != .record r.id) }) })
  let d2 := { d1 with evs := d1.evs.map (fun e =>
    if e.ofRecord && e.body == r.ev then { e with cls := none, after := [] } else e) }
  if r.sen then d2.semArrive lt r.ssem r.ev else d2

/-- Resolve the guards of a tile whose slots are written, after the slot writes of the tick. The wait of a record that
executes acknowledges earlier records from its push on (06 R156). -/
def Domain.settleGuards (d : Domain) (lt now : Nat) : Domain :=
  match d.tile? lt with
  | none => d
  | some t => t.recs.foldl (fun d r =>
      match r.guard with
      | some (p, sense) =>
        if r.resolved.isNone && (t.pred p).written then
          if (t.pred p).value != sense then (d.updTile lt (fun t => { t with
            recs := t.recs.map (fun x => if x.id = r.id then { x with resolved := some now } else x) })).closeRecs lt
              (t.waitedFor now r) r.tick
          else d.squash lt r now
        else d
      | none => d) d

/-- The first result due, in column order and then in issue order (10 R237); none while its data has yet to arrive. -/
def firstDue (now : Nat) (fs : List Flight) : Option Flight :=
  ((fs.filter (fun f => decide (f.due ≤ now) && f.cause == 0)).foldl (fun m f => match m with
    | some g => if colIdx f.col < colIdx g.col then some f else some g
    | none => some f) none).filter (fun f => f.gop.isNone)

/-- Some result of the tile is due at `now` or earlier and may enter. -/
def Tile.dueFlight (t : Tile) (now : Nat) : Bool := (firstDue now t.flights).isSome

/-- The latch that a failed vote leaves of a member's result (15 R381, R383). -/
def Ballot.latch (b : Ballot) (lat : Nat) : Flight where
  due := b.tick + lat
  issue := b.tick
  col := .sq
  ofs := b.ofs
  dest := if b.op.isPred then .slot b.slot false else .sq none
  val := 0
  lanes := []
  raised := []
  gop := none
  cause := cVote
  owed := false

/-- The results of failed votes are suppressed. -/
def Domain.failVotes (d : Domain) (p : Ballot → Bool) : Domain :=
  (d.ballots.filter p).foldl (fun e b => e.updTile b.lt (fun t => t.send (b.latch d.voteLat)))
    { d with ballots := d.ballots.filter (fun b => !p b) }

/-- VOTE_DELIVERY: at t + Lv the result of the oldest vote reaches every member, or the vote faults (09 R218). -/
def execVoteDelivery (s : State) : Out :=
  match s.dom? s.cur.dom with
  | none => .fault .noContext
  | some d =>
    match d.ballots with
    | [] => .fault .noContext
    | b :: _ =>
      .next (s.updDom d.seq (fun e =>
        if d.voteOk b then
          let r := d.voteValue b
          let e1 := { e with ballots := e.ballots.filter (fun x =>
            !(x.tick == b.tick && x.group == b.group && x.op == b.op && (d.group b.group).contains x.lt)) }
          (d.group b.group).foldl (fun e m =>
            match d.ballotOf b m with
            | some x =>
              let e2 := e.updTile m (fun t => t.takeVote x r)
              match e2.tile? m with
              | some t => if t.dueFlight d.dtick then e2 else e2.settleGuards m d.dtick
              | none => e2
            | none => e) e1
        else
          (e.failVotes (fun x => x.tick == b.tick && !d.voteOk x)).raiseAll (b.tick + d.voteLat) 0 cVote 0))

/-! ## HALT and TRAP (11 R269, R270) -/

/-- HALT ends the tile's issue; guarded records not yet resolved are squashed. -/
def execHalt (s : State) : Out :=
  onDom s (fun d t => s.updDom d.seq (fun e =>
    let e1 := e.updTile s.cur.lt (fun t => { t with haltTick := some d.dtick })
    t.recs.foldl (fun e r =>
      if r.guard.isSome && r.resolved.isNone then e.squash s.cur.lt r d.dtick else e) e1))

/-- TRAP raises the software trap with its code as detail. -/
def execTrap (i : BitVec 8) (s : State) : Out := trapWord s 0 cTrap i.toNat 0

end Sys2Proof.Machine
end

