-- ==== Sys2Proof/Machine/Sync.lean ====
section
/-!
DEFINITION. Markers, semaphores and class fences (11 R277-R280, 06 R141-R146).
-/

namespace Sys2Proof.Machine

/-- SEMSIG: the increment takes its place with source tick t, and has arrived (11 R280). -/
def execSemsig (k : BitVec 4) (i : BitVec 8) (s : State) : Out :=
  onDom s (fun d t => s.updDom d.seq (fun e =>
    (e.semOp s.cur.lt k ⟨d.dtick, t.lt, .semsig, .add (i.setWidth 16), true, false, d.nextId⟩).addEv
      (newEv d t .sq .semsig)))

/-- The event of a SEMWAIT issued now: later events of the tile are ordered after the increments up to its satisfying point
(06 R145). -/
def Domain.semwaitEv (d : Domain) (t : Tile) (k : BitVec 4) (c : BitVec 16) : Ev :=
  { newEv d t .sq .semwait with
    after := d.withArrival (semSources (t.sem k) d.dtick d.dtick t.lt c.toNat), acquires := true }

/-- SEMWAIT, performed: its event is placed, and the records among its sources are acknowledged (11 R280, 06 R145,
R156). -/
def execSemwait (k : BitVec 4) (c : BitVec 16) (s : State) : Out :=
  onDom s (fun d t => s.updDom d.seq (fun e =>
    let src := semSources (t.sem k) d.dtick d.dtick t.lt c.toNat
    let e1 := e.addEv (d.semwaitEv t k c)
    if c = 0 then e else e1.ackWhere s.cur.lt (fun r => src.contains r.ev) d.dtick))

/-- The engines of a mask, ME in bit 3 to CH in bit 0 (11 R277). -/
def maskEngines (m : BitVec 4) : List Engine :=
  (if m.getLsbD 3 then [.me] else []) ++ (if m.getLsbD 2 then [.gu] else []) ++
    (if m.getLsbD 1 then [.ce] else []) ++ (if m.getLsbD 0 then [.ch] else [])

/-- Events of the records of one engine, and of the markers already placed in its queue. -/
def Domain.queueEvs (d : Domain) (t : Tile) (g : Engine) : List Nat :=
  d.withArrival ((t.recs.filter (fun r => r.eng == g)).map (fun r => r.ev)) ++
    (d.evs.filter (fun e => e.lt == t.lt && (match e.kind with
      | .mark h _ => h == g
      | _ => false))).map (fun e => e.id)

/-- Place marker n behind the records of one queue. -/
def Domain.mark (d : Domain) (lt : Nat) (n : BitVec 16) (g : Engine) : Domain :=
  match d.tile? lt with
  | none => d
  | some t =>
    let d1 := d.updTile lt (fun t => { t with
      engines := upd t.engines (engIdx g) (fun q => { q with entries := q.entries ++ [.marker n d.nextId] }) })
    d1.addEv { newEv d t .sq (.mark g n) with after := d.queueEvs t g }

/-- MARK places a marker in each named queue (11 R277). -/
def execMark (e : BitVec 4) (n : BitVec 16) (s : State) : Out :=
  onDom s (fun d _ => s.updDom d.seq (fun d => (maskEngines e).foldl (fun d g => d.mark s.cur.lt n g) d))

/-- The markers of an engine's queue that have retired, oldest first. -/
def Domain.retiredMarks (d : Domain) (t : Tile) (g : Engine) : List Ev :=
  d.evs.filter (fun e => e.lt == t.lt && (match e.kind with
    | .mark h _ => h == g
    | _ => false) && !(t.engines.getD (engIdx g) ⟨[], none, none⟩).entries.any (fun q => match q with
      | .marker _ ev => ev == e.id
      | _ => false))

/-- The marker n that a released WAITRV n orders after: the last retired one with that number (assumption 11). -/
def Domain.markEv (d : Domain) (t : Tile) (g : Engine) (n : BitVec 16) : Option Ev :=
  (d.retiredMarks t g).reverse.find? (fun e => match e.kind with
    | .mark _ m => m == n
    | _ => false)

/-- The marker n of each named queue, with every record ahead of it (06 R146). -/
def Domain.markSources (d : Domain) (t : Tile) (e : BitVec 4) (n : BitVec 16) : List Nat :=
  (maskEngines e).flatMap (fun g => match d.markEv t g n with
    | some m => m.id :: m.after
    | none => [])

/-- The event of a WAITRV issued now: later events of the tile are ordered after every record ahead of the marker in each
named queue (06 R146). -/
def Domain.waitrvEv (d : Domain) (t : Tile) (e : BitVec 4) (n : BitVec 16) : Ev :=
  { newEv d t .sq .waitrv with after := d.markSources t e n, acquires := true }

/-- WAITRV, performed: its event is placed, and the records ahead of the markers are acknowledged (11 R277, 06 R146,
R156). -/
def execWaitrv (e : BitVec 4) (n : BitVec 16) (s : State) : Out :=
  onDom s (fun d t => s.updDom d.seq (fun d1 =>
    (d1.addEv (d.waitrvEv t e n)).ackWhere s.cur.lt (fun r => (d.markSources t e n).contains r.ev) d.dtick))

/-- A class fence over classes 0-7 or 8-15 (06 R141). -/
def fenceWord (s : State) (mask : BitVec 16) (a : Agent) (sp : BitVec 5) : Out :=
  onDom s (fun d t => s.updDom d.seq (fun e => e.addEv (newEv d t .sq (.fence mask a sp))))

def execCfenceLo (m : BitVec 8) (a : Agent) (sp : BitVec 5) (s : State) : Out := fenceWord s (m.setWidth 16) a sp
def execCfenceHi (m : BitVec 8) (a : Agent) (sp : BitVec 5) (s : State) : Out :=
  fenceWord s (m.setWidth 16 <<< 8) a sp

/-- Apply the first operation not yet applied on semaphore `item` of the tile, once it has arrived (06 R144). -/
def applyFirst : List SemOp → List SemOp
  | [] => []
  | o :: r => if o.applied then o :: applyFirst r else if o.arrived then { o with applied := true } :: r else o :: r

def applySem (s : State) : Out :=
  onTile s (fun _ t => { t with sems := upd t.sems s.cur.item applyFirst })

/-- SEMAPHORE_INCREMENT_APPLY (06 R144). -/
def execSemaphoreIncrementApply (s : State) : Out := applySem s

/-- SEM_CSR_WRITE: the write applies at its place in signal order (11 R279). -/
def execSemCsrWrite (s : State) : Out := applySem s

/-- MARKER_RETIRE: the marker at the head of engine `cur.eng` retires and writes its number into RDV (11 R277, R278). -/
def execMarkerRetire (s : State) : Out :=
  onTile s (fun _ t =>
    let q := t.engines.getD (engIdx s.cur.eng) ⟨[], none, none⟩
    match q.entries with
    | .marker n _ :: r => { t with
        engines := upd t.engines (engIdx s.cur.eng) (fun q => { q with entries := r })
        rdv := upd t.rdv (engIdx s.cur.eng) (fun _ => n) }
    | _ => t)

end Sys2Proof.Machine
end

