-- ==== Sys2Proof/Machine/Bank.lean ====
section
/-!
DEFINITION. Banks: windows, tags, GIVE, BFMT, BMAP and BFREE, and the attaches (04 R85-R99, 11 R282, R283).
-/

namespace Sys2Proof.Machine

def Tile.win (t : Tile) (w : Nat) : Win := t.wins.getD w .empty

/-- The bank attached to a window. -/
def Tile.bank? (t : Tile) (w : Nat) : Option Nat :=
  match t.win w with
  | .att b => some b
  | .pend _ => none
  | .empty => none

def Tile.setWin (t : Tile) (w : Nat) (x : Win) : Tile := { t with wins := upd t.wins w (fun _ => x) }

/-- The location range of a bank, and of its tag. -/
def bankRange (cl b : Nat) : Nat × Nat := (locBank cl b 0, 2 ^ 19)
def bankTag (cl b : Nat) : Nat × Nat := (locTag cl b, 1)

/-- A record names a window: its footprint on the tile lies in the window's bank or tag (04 R95). -/
def namesBank (cl b : Nat) (r : Rec) : Bool := rangesMeet (r.reads ++ r.writes) [bankRange cl b, bankTag cl b]

/-- The drain of a give at tick `now`: live records pushed a lead or more before it that name the bank (04 R95, R96). -/
def Tile.drain (t : Tile) (b lead now : Nat) : List Rec :=
  t.recs.filter (fun r => r.live && decide (r.tick + lead ≤ now) && namesBank t.cluster b r)

def State.tagOf (s : State) (cl b : Nat) : Tag := (s.cluster cl).tags.getD b Tag.raw

def State.setTag (s : State) (cl b : Nat) (g : Tag) : State :=
  s.updCluster cl (fun c => { c with tags := upd c.tags b (fun _ => g) })

/-- The logical tile of index i in the cluster of tile t (02 R41). -/
def Domain.peer (t : Tile) (i : BitVec 2) : Nat := t.lt / 4 * 4 + i.toNat

/-- The target window is occupied at the start of tick t: attached or pending now, or given away in this tick
(04 R94, check 4); a give to it in this tick shows as pending (check 5). -/
def Domain.winBusy (d : Domain) (lt w : Nat) : Bool :=
  (match d.tile? lt with
    | some t => t.win w != .empty
    | none => true) ||
  d.attaches.any (fun a => a.giver == lt && a.fromWin == w && a.due == d.dtick + 32)

/-- GIVE (04 R93-R96): the checks in order; then the window empties, the target's shows pending, and the attach is due
at t + 32. Every record pushed a lead or more before it that names the bank is acknowledged, one that retired before its
drain's probe too: 06 R156 does not say which (DESIGN CHOICE, assumption 107). The target's events from t + 32 on are
ordered after the giver's on the bank (06 R148). -/
def execGive (w : BitVec 3) (i : BitVec 2) (x : BitVec 3) (k : BitVec 4) (s : State) : Out :=
  onDom s (fun d t =>
    let tgt := Domain.peer t i
    match t.bank? w.toNat with
    | none => s.raise 0 cDetached 0 0
    | some b =>
      if tgt = t.lt && x = w then s.raise 0 cGive 1 0
      else if t.recs.any (fun r => decide (d.dtick < r.tick + d.lead) && namesBank t.cluster b r) then
        s.raise 0 cGive 2 0
      else if d.winBusy tgt x.toNat then s.raise 0 cGive 3 0
      else
        let evs := (d.evs.filter (fun e => e.lt == t.lt &&
          rangesMeet (e.reads ++ e.writes) [bankRange t.cluster b, bankTag t.cluster b])).map (fun e => e.id)
        s.updDom d.seq (fun e =>
          let e1 := e.ackWhere s.cur.lt (fun r => namesBank t.cluster b r) d.dtick
          let e2 := e1.updTile s.cur.lt (fun t => t.setWin w.toNat .empty)
          let e3 := e2.updTile tgt (fun t => t.setWin x.toNat (.pend b))
          let e4 := e3.semOp tgt k ⟨d.dtick + 32, t.lt, .give, .add 1, false, false, d.nextId + 1⟩
          let e5 := (e4.addEv (newEv d t .sq .give)).addEv { newEv d t .sq .attach with
            lt := tgt, tick := d.dtick + 32, after := d.nextId :: evs, acquires := true }
          { e5 with attaches := e5.attaches ++
            [⟨d.dtick + 32, t.lt, w.toNat, tgt, x.toNat, b, k, [d.nextId + 1], t.wordOfs .sq⟩] }))

/-- GIVE_ATTACH: at t + 32 the bank attaches and the semaphore's increment arrives (04 R96, R97). -/
def execGiveAttach (s : State) : Out :=
  match s.dom? s.cur.dom with
  | none => .fault .noContext
  | some d =>
    match d.attaches with
    | [] => .fault .noContext
    | a :: rest =>
      .next (s.updDom d.seq (fun e =>
        let e1 : Domain := { e with attaches := rest }
        (e1.updTile a.target (fun t => t.setWin a.win (.att a.bank))).semArrive a.target a.sem (a.evs.headD 0)))

/-- A record of the tile stands in the way of a BFMT of bank b: it names the bank and has not retired (04 R92), or it is
open and reads or sets the tag (06 R157). Assumption 36. -/
def Domain.tagBusy (d : Domain) (t : Tile) (b : Nat) : Bool :=
  t.recs.any (fun r => (r.live && namesBank t.cluster b r) ||
    (openFor d.vg d.dtick true r && rangesMeet (r.reads ++ r.writes) [bankTag t.cluster b]))

/-- BFMT (04 R92): DETACHED when the window is empty, FOOTPRINT while a record stands in the way; else the bank's tag is
set. -/
def execBfmt (w : BitVec 3) (f : Fmt) (b : Blk) (spl : Bool) (s : State) : Out :=
  onDom s (fun d t =>
    match t.bank? w.toNat with
    | none => s.raise 0 cDetached 0 0
    | some k =>
      if d.tagBusy t k then s.raise 0 cFootprint 2 0
      else
        (s.updDom d.seq (fun e => e.addEv { newEv d t .sq .access with
          spaces := spK, writes := [bankTag t.cluster k] })).setTag t.cluster k ⟨f.toBits, b.toBits, spl⟩)

/-! ## The supervisor's bank words (11 R282, R283) -/

/-- The domain and logical tile whose context is active on a physical tile. -/
def State.contextOn (s : State) (cl idx : Nat) (slot : Bool) : Option (Domain × Tile) :=
  s.domains.findSome? (fun d =>
    if d.phase.over || d.phase == .lost then none
    else (d.tiles.find? (fun t => t.cluster == cl && t.idx == idx && t.slot == slot)).map (fun t => (d, t)))

def State.activeSlot (s : State) (cl idx : Nat) : Bool := (s.cluster cl).activeB.getD idx false

/-- A supervisor fault: no effect but SVERR, the detail and the word's halfword offset (11 R271, 15 R388). -/
def svFault (s : State) (t : Tile) (detail : Nat) : State :=
  s.updDie (dieOf t.cluster) (fun q => { q with
    sverr := BitVec.ofNat 64 (t.wordOfs .sq * 65536 + detail) })

/-- The tile runs no domain: its context is halted or parked, or it has none (11 R282). -/
def State.tileIdle (s : State) (cl idx : Nat) : Bool :=
  match s.contextOn cl idx (s.activeSlot cl idx) with
  | none => true
  | some (d, _) => d.phase == .halted

/-- What holds the windows of a physical tile that a supervisor's word names: 0 or 1 the context of slot A or B, the
active one first, else the parked one; 2 the tile itself, without a context (11 R282, R283). -/
def State.holder (s : State) (cl idx : Nat) : Nat :=
  let b := s.activeSlot cl idx
  if (s.contextOn cl idx b).isSome then b.toNat
  else if (s.contextOn cl idx (!b)).isSome then (!b).toNat else 2

/-- The window of a physical tile at a place: 8 times its holder, plus its number. -/
def State.winAt (s : State) (cl idx p : Nat) : Win :=
  if p < 16 then
    match s.contextOn cl idx (p / 8 == 1) with
    | some (_, t) => t.win (p % 8)
    | none => .empty
  else match (s.cluster cl).loose.find? (fun x => x.1 == idx && x.2.1 == p - 16) with
    | some x => x.2.2
    | none => .empty

def State.setWinAt (s : State) (cl idx p : Nat) (x : Win) : State :=
  if p < 16 then
    match s.contextOn cl idx (p / 8 == 1) with
    | some (d, t) => s.updTile d.seq t.lt (fun t => t.setWin (p % 8) x)
    | none => s
  else s.updCluster cl (fun c => { c with
    loose := (idx, p - 16, x) :: c.loose.filter (fun y => !(y.1 == idx && y.2.1 == p - 16)) })

/-- The window that a word of the supervisor names. -/
def State.physWin (s : State) (cl idx w : Nat) : Win := s.winAt cl idx (8 * s.holder cl idx + w)

def State.setPhysWin (s : State) (cl idx w : Nat) (x : Win) : State := s.setWinAt cl idx (8 * s.holder cl idx + w) x

/-- A bank is on its way in a give. -/
def State.inGive (s : State) (cl b : Nat) : Bool :=
  s.domains.any (fun d => d.attaches.any (fun a => a.bank == b && (match d.tile? a.target with
    | some t => t.cluster == cl
    | none => false)))

/-- Bytes of a location range read as an unlisted byte again. -/
def State.clearRange (s : State) (a n : Nat) : State :=
  { s with mem := s.mem.filter (fun c => decide (c.1 < a) || decide (a + n ≤ c.1)), flawed := mended s.flawed a n }

/-- Clear a bank: its bytes are zero, its lines clean and its tag RAW. -/
def State.clearBank (s : State) (cl b : Nat) : State :=
  (s.clearRange (locBank cl b 0) (2 ^ 19)).updCluster cl (fun c => { c with
    tags := upd c.tags b (fun _ => Tag.raw)
    dirty := c.dirty.filter (fun l => decide (l < locBank cl b 0) || decide (locBank cl b 0 + 2 ^ 19 ≤ l))
    counted := c.counted.filter (fun l => decide (l < locBank cl b 0) || decide (locBank cl b 0 + 2 ^ 19 ≤ l)) })

/-- Zero-fill a bank and its shadow image; its lines are clean and its tag RAW (11 R282, 04 R86, 05 R109). -/
def State.zeroBank (s : State) (cl b : Nat) : State :=
  (s.clearBank cl b).clearRange (locShadow cl (b * 2 ^ 19)) (2 ^ 19)

def State.setBank (s : State) (cl b : Nat) (u : BankUse) : State :=
  s.updCluster cl (fun c => { c with banks := upd c.banks b (fun _ => u) })

/-- The banks that a domain still holds: in its windows, or on their way in a give (04 R85, R86). -/
def Domain.heldBanks (d : Domain) (cl : Nat) : List Nat :=
  (d.tiles.filter (fun t => t.cluster == cl)).flatMap (fun t => t.wins.filterMap (fun w => match w with
    | .att b => some b
    | .pend b => some b
    | .empty => none))

/-- A bank of the pool that no domain waiting for recovery, and none that has ended and not yet left, held (04 R85, R86,
05 R132). -/
def State.bankFree (s : State) (cl b : Nat) : Bool :=
  (s.cluster cl).banks.getD b .used == .free &&
    !s.domains.any (fun d => (d.phase == .lost || d.phase.over) && (d.heldBanks cl).contains b)

/-- The conditions shared by BMAP and BFREE: the supervisor's die (OTHERDIE), an idle tile (STATE) (11 R282). -/
def bankWordFault (s : State) (t : Tile) (cl idx : Nat) : Option Nat :=
  if 192 ≤ cl || cl / 48 != dieOf t.cluster then some 1
  else if !s.tileIdle cl idx then some 2 else none

/-- BMAP (11 R282). -/
def execBmap (b : BitVec 4) (i : BitVec 2) (w : BitVec 3) (a : SSpec) (s : State) : Out :=
  onDom s (fun _ t =>
    let cl := (t.sval a).toNat
    match bankWordFault s t cl i.toNat with
    | some e => svFault s t e
    | none =>
      if !s.bankFree cl b.toNat || s.physWin cl i.toNat w.toNat != .empty then svFault s t 2
      else ((s.zeroBank cl b.toNat).setBank cl b.toNat .used).setPhysWin cl i.toNat w.toNat (.pend b.toNat))

/-- BMAP_ATTACH: the zero-filled bank attaches; `cur` names the cluster, tile (lt) and the window's place (item). -/
def execBmapAttach (s : State) : Out :=
  match s.winAt s.cur.cluster s.cur.lt s.cur.item with
  | .pend b => .next (s.setWinAt s.cur.cluster s.cur.lt s.cur.item (.att b))
  | _ => .fault .noContext

/-- BFREE (11 R283): the bank of the window begins to leave. -/
def execBfree (i : BitVec 2) (w : BitVec 3) (a : SSpec) (s : State) : Out :=
  onDom s (fun _ t =>
    let cl := (t.sval a).toNat
    match bankWordFault s t cl i.toNat with
    | some e => svFault s t e
    | none =>
      match s.physWin cl i.toNat w.toNat with
      | .att b => s.setBank cl b .leaving
      | _ => svFault s t 2)

/-- The bank has a frozen line (05 R116). -/
def bankFrozen (c : Cluster) (cl b : Nat) : Bool :=
  c.frozen.any (fun l => decide (locBank cl b 0 ≤ l) && decide (l < locBank cl b 0 + 2 ^ 19))

/-- A fault of a record that nothing has raised yet is raised, on a halted domain as a secondary cause. -/
def Domain.tellFault (d : Domain) (lt : Nat) (r : Rec) : Domain :=
  match r.fault with
  | none => d
  | some (c, x, a) =>
    let d1 := d.updTile lt (fun t => { t with
      recs := t.recs.map (fun y => if y.id = r.id then { y with fault := none } else y) })
    let k : Cause := ⟨d.dtick, lt, 4 + engIdx r.eng, c, x⟩
    if r.told then d else if d.phase == .halted then d1.addCause k a else d1.raise k a

/-- The faults of the records in the drain of a BFREE of bank b are raised on their tiles (13 R345). -/
def State.tellDrain (s : State) (cl b : Nat) : State :=
  { s with domains := s.domains.map (fun d => if d.phase.over then d else
      d.tiles.foldl (fun e t => if t.cluster = cl then
        (t.recs.filter (fun r => namesBank cl b r && r.stage == .complete)).foldl (fun e r => e.tellFault t.lt r) e else e) d) }

/-- BFREE_COMPLETE: drained and without frozen lines, the bank is detached and returns to the pool, to be cleared
(11 R283, 14 R373). -/
def execBfreeComplete (s : State) : Out :=
  match s.winAt s.cur.cluster s.cur.lt s.cur.item with
  | .att b => .next (((s.tellDrain s.cur.cluster b).setWinAt s.cur.cluster s.cur.lt s.cur.item .empty).setBank s.cur.cluster b
      .clearing)
  | _ => .fault .noContext

/-- BANK_CLEAR_DONE: a returned bank has been cleared and counts as free (14 R373). Its shadow image stays until a launch or
a BMAP takes the bank: the supervisor may yet read it (05 R132). Assumption 95. -/
def execBankClearDone (s : State) : Out :=
  .next ((s.clearBank s.cur.cluster s.cur.item).setBank s.cur.cluster s.cur.item .free)

/-! ## Lines (05 R109) -/

/-- The first bytes of the 256-byte lines that a range touches. -/
def linesOf (a n : Nat) : List Nat :=
  if n = 0 then [] else (List.range ((a + n - 1) / 256 - a / 256 + 1)).map (fun i => (a / 256 + i) * 256)

/-- A list with those of another that it lacks. -/
def withNew (l new : List Nat) : List Nat := l ++ new.filter (fun x => !l.contains x)

/-- Mark the lines of a range dirty. -/
def State.markDirty (s : State) (cl a n : Nat) : State :=
  s.updCluster cl (fun c => { c with dirty := withNew c.dirty (linesOf a n) })

/-- An engine writes bytes of a bank, a B store or an accumulator: their lines are dirty. -/
def State.storeEngine (s : State) (cl a : Nat) (bs : List Byte) : State := (s.writeBytes a bs).markDirty cl a bs.length

/-- A column writes bytes of a bank, a B store or an accumulator: their lines are dirty, and count for a volume
(05 R110). -/
def State.storeLocal (s : State) (cl a : Nat) (bs : List Byte) : State :=
  (s.storeEngine cl a bs).updCluster cl (fun c => { c with counted := withNew c.counted (linesOf a bs.length) })

end Sys2Proof.Machine
end

