-- ==== Sys2Proof/Machine/RecordFields.lean ====
section
/-!
DEFINITION. The bits of records and layouts (10 R251, R252; 13 R339-R342, R347-R359) and what a push checks of them
(11 R273, check 3): their bodies, patched, and the bytes they read and write (13 R360).
-/

namespace Sys2Proof.Machine

/-- A fault found: cause, detail, address. -/
abbrev Bad := Nat × Nat × W64

def fieldAt (b : RecordBits) (lo n : Nat) : Nat := (b.extractLsb' lo n).toNat

/-- A record with a field replaced. -/
def setField (b : RecordBits) (lo n x : Nat) : RecordBits :=
  (b &&& ~~~((BitVec.ofNat 256 (2 ^ n - 1)) <<< lo)) ||| (BitVec.ofNat 256 (x % 2 ^ n) <<< lo)

/-- Every field named is zero. -/
def zeroFields (b : RecordBits) (fs : List (Nat × Nat)) : Bool := fs.all (fun f => fieldAt b f.1 f.2 == 0)

/-! ## Kinds (10 R252) -/

def kMma := 0x10
def kMms := 0x11
def kMzero := 0x12
def kAcopy := 0x13
def kMload := 0x14
def kGather := 0x20
def kCopy := 0x30
def kFill := 0x31
def kCopyb := 0x32
def kAg := 0x40
def kRs := 0x41
def kA2a := 0x42
def kBar := 0x43
def kSend := 0x44
def kRecv := 0x45
def kBcast := 0x46

/-- The engine that runs a kind. -/
def kindEngine (k : Nat) : Option Engine :=
  if kMma ≤ k ∧ k ≤ kMload then some .me
  else if k = kGather then some .gu
  else if kCopy ≤ k ∧ k ≤ kCopyb then some .ce
  else if kAg ≤ k ∧ k ≤ kBcast then some .ch
  else none

def isChorus (k : Nat) : Bool := decide (kAg ≤ k) && decide (k ≤ kBcast)

/-- The bit of AEN; none for a kind without an arrival word (13 R342). -/
def aenBit (k : Nat) : Option Nat :=
  if k = kAcopy then some 98 else if k = kGather then some 162 else if k = kCopy then some 115
  else if k = kFill ∨ k = kCopyb then some 117 else if isChorus k then some 120 else none

def Rec.aen (r : Rec) : Bool :=
  match aenBit r.kindCode with
  | some i => r.bits.getLsbD i
  | none => false

def Rec.awin (r : Rec) : Nat := fieldAt r.bits 211 3
def Rec.aoff (r : Rec) : Nat := fieldAt r.bits 214 10
def Rec.aval (r : Rec) : Nat := fieldAt r.bits 224 32

/-- The value that a record's arrival word takes (04 R101). -/
def Rec.arrivalValue (r : Rec) : Nat := if r.fault.isSome then r.aval % 2 ^ 31 + 2 ^ 31 else r.aval

/-- Reserved bits of each kind, and fields that it requires to be zero (13 R342-R359). -/
def reservedFields (k : Nat) : List (Nat × Nat) :=
  if k = kMma then [(154, 102)]
  else if k = kMms then [(154, 102), (119, 8), (128, 26)]
  else if k = kMzero then [(66, 190)]
  else if k = kAcopy then [(99, 112)]
  else if k = kMload then [(81, 175)]
  else if k = kGather then [(163, 48)]
  else if k = kCopy then [(210, 1), (189, 3)]
  else if k = kFill then [(118, 10)]
  else if k = kCopyb then [(162, 49), (124, 4)]
  else if k = kBar then [(72, 48), (121, 90)]
  else if k = kRs then [(121, 7), (152, 59)]
  else [(116, 4), (121, 7), (152, 59)]

/-- The header rules (10 R251), the reserved bits, and an arrival triple of zero without AEN (13 R342). -/
def recordClean (b : RecordBits) : Bool :=
  let k := fieldAt b 0 8
  zeroFields b [(52, 12), (37, 3), (13, 3)] &&
    (b.getLsbD 36 || zeroFields b [(32, 4), (40, 8)]) && (b.getLsbD 12 || zeroFields b [(8, 4), (16, 16)]) &&
    zeroFields b (reservedFields k) &&
    (match aenBit k with
      | some i => b.getLsbD i || zeroFields b [(211, 45)]
      | none => true)

/-! ## Layouts (13 R339-R341) -/

def layBase (b : RecordBits) : Nat := fieldAt b 8 19
def layExtent (b : RecordBits) (d : Nat) : Nat := fieldAt b (64 + 48 * d + 24) 12 + 1
def layStride (b : RecordBits) (d : Nat) : Int := (b.extractLsb' (64 + 48 * d) 24).toInt
def layCount (b : RecordBits) : Nat := layExtent b 0 * layExtent b 1 * layExtent b 2 * layExtent b 3

def layoutClean (b : RecordBits) : Bool :=
  fieldAt b 0 8 == 1 && zeroFields b [(27, 37), (100, 12), (148, 12), (196, 12), (244, 12)]

/-- The n-th address (13 R340). -/
def layAddr (b : RecordBits) (n : Nat) : Int :=
  let e0 := layExtent b 0
  let e1 := layExtent b 1
  let e2 := layExtent b 2
  (layBase b : Int) + layStride b 0 * (n % e0 : Nat) + layStride b 1 * (n / e0 % e1 : Nat) +
    layStride b 2 * (n / (e0 * e1) % e2 : Nat) + layStride b 3 * (n / (e0 * e1 * e2) : Nat)

/-- The strides and extents of a layout, the slowest index first (13 R340). -/
def layDims (b : RecordBits) : List (Int × Nat) := [3, 2, 1, 0].map (fun d => (layStride b d, layExtent b d))

/-- Every address of a box of indices from a base keeps 13 R340: its extremes lie in the bank, and the base and the used
strides are multiples of the size. -/
def boxInside (size : Nat) (base : Int) (dims : List (Int × Nat)) : Bool :=
  let reach (d : Int × Nat) : Int := d.1 * ((d.2 : Int) - 1)
  decide (0 ≤ dims.foldl (fun x d => x + min 0 (reach d)) base) &&
    decide (dims.foldl (fun x d => x + max 0 (reach d)) base + size ≤ 2 ^ 19) && base % (size : Int) == 0 &&
    dims.all (fun d => d.2 == 1 || d.1 % (size : Int) == 0)

/-- The first address of a box, in the order of the layout's index, that breaks 13 R340; the box holds one. -/
def firstBreak (size : Nat) : Int → List (Int × Nat) → Int
  | base, [] => base
  | base, d :: ds =>
    firstBreak size (base + d.1 * (((List.range d.2).find? (fun (i : Nat) => !boxInside size (base + d.1 * (i : Int)) ds)).getD 0 : Nat)) ds

/-- Every address of a layout keeps 13 R340. -/
def layInside (b : RecordBits) (size : Nat) : Bool := boxInside size (layBase b) (layDims b)

/-- The byte ranges of the first n addresses; runs of adjacent elements are one range. -/
def layRanges (b : RecordBits) (size n : Nat) : List (Nat × Nat) :=
  if layStride b 0 = size ∧ layExtent b 0 ≤ n ∧ n % layExtent b 0 = 0 then
    (List.range (n / layExtent b 0)).map (fun q => ((layAddr b (q * layExtent b 0)).toNat, layExtent b 0 * size))
  else (List.range n).map (fun q => ((layAddr b q).toNat, size))

/-! ## Addresses (13 R342, 02 R57) -/

/-- A packed address as a 64-bit address. -/
def unpackAddr (x : Nat) : W64 := BitVec.ofNat 64 (x / 2 ^ 48 % 8 * 2 ^ 61 + x % 2 ^ 48)
def packAddr (a : W64) : Nat := ownerOf a * 2 ^ 48 + lowAddr a

/-- The address agrees with its space code (02 R57). -/
def spaceOk (code : Nat) (a : W64) : Bool :=
  if code = 0 then decide (a.toNat < 2 ^ 22)
  else if code = 1 then addrOk a && ownerOf a != 4
  else if code = 2 then addrOk a && ownerOf a == 4
  else false

/-! ## What a record touches (13 R360) -/

/-- A piece of a footprint, before windows and pages are looked up; `w` for a write. -/
inductive Span where
  | bank (win ofs len : Nat) (w : Bool)
  | tag (win : Nat) (w : Bool)
  | slice (s ofs len : Nat) (w : Bool)
  | sliceTag (s : Nat) (w : Bool)
  | acc (a ofs len : Nat) (w : Bool)
  | glob (va : W64) (len : Nat) (w : Bool)
  deriving DecidableEq, Repr

/-- Bytes of an element by format code (13 R329); TERN5 counts 1. -/
def elemSize (fmt : Nat) : Nat :=
  if fmt = 1 ∨ fmt = 9 then 4 else if fmt = 3 ∨ fmt = 4 then 2 else 1

def isFp8 (fmt : Nat) : Bool := fmt == 5 || fmt == 6

def ceilDiv (a b : Nat) : Nat := (a + b - 1) / b

/-- An address of bank space: a window and an offset in it (02 R52). -/
def windowAddr (w ofs : Nat) : W64 := BitVec.ofNat 64 (w * 2 ^ 19 + ofs)

/-- A B-store address: slice and offset (02 R55). -/
def sliceAddr (j ofs : Nat) : W64 := BitVec.ofNat 64 (j * 2 ^ 14 + ofs)

/-- Rows of a region of a space: a bank row must stay within its bank, and one of G or H within its owner's 2^48 bytes
(02 R56, R60). -/
def rowSpan (space : Nat) (a : W64) (delta len : Nat) (w : Bool) : Except Bad Span :=
  if space = 0 then
    let ofs := a.toNat % 2 ^ 19 + delta
    if 2 ^ 19 < ofs + len then .error (cAddress, 0, a + BitVec.ofNat 64 delta) else .ok (.bank (a.toNat / 2 ^ 19) ofs len w)
  else if 2 ^ 48 < lowAddr a + delta + len then .error (cAddress, 0, a + BitVec.ofNat 64 delta)
  else .ok (.glob (a + BitVec.ofNat 64 delta) len w)

def rowSpans (space : Nat) (a : W64) (pitch len : Nat) (w : Bool) (rows : Nat) : Except Bad (List Span) :=
  (List.range rows).mapM (fun r => rowSpan space a (r * pitch) len w)

/-- Two spans share a byte, before translation. -/
def spanMeets (x y : Span) : Bool :=
  match x, y with
  | .bank a o n _, .bank b p m _ => a == b && rangeMeets (o, n) (p, m)
  | .glob a n _, .glob b m _ => rangeMeets (a.toNat, n) (b.toNat, m)
  | _, _ => false

/-- A layout named by a record on the bank of window w: a layout, patched, with the count it needs (13 R340, R341); an
address fault names the first of its addresses that breaks 13 R340 (15 R386). -/
def useLayout (w : Nat) (b : RecordBits) (k0 : W64) (need : Option Nat) (limit : Option Nat) (size : Nat) :
    Except Bad RecordBits :=
  if !layoutClean b then .error (cRecord, 0, 0)
  else
    let base := BitVec.ofNat 64 (layBase b) + k0
    if 2 ^ 19 ≤ base.toNat then .error (cAddress, 0, windowAddr w 0 + base)
    else
      let b1 := setField b 8 19 base.toNat
      let n := layCount b1
      if (match need with
          | some k => n != k
          | none => false) || (match limit with
          | some k => decide (k < n)
          | none => false) then .error (cRecord, 0, 0)
      else if !layInside b1 size then
        .error (cAddress, 0, windowAddr w 0 + BitVec.ofInt 64 (firstBreak size (layBase b1) (layDims b1)))
      else .ok b1

/-- A record's patched bits, its layouts and its footprint, the arrival word last. -/
structure Derived where
  bits : RecordBits
  lay1 : RecordBits
  lay2 : RecordBits
  spans : List Span
  deriving DecidableEq, Repr

/-- The arrival word's checks and span (04 R100). -/
def arrivalSpan (b : RecordBits) : Except Bad (List Span) :=
  match aenBit (fieldAt b 0 8) with
  | none => .ok []
  | some i =>
    if !b.getLsbD i then .ok []
    else if fieldAt b 214 10 % 4 != 0 then .error (cAlign, 0, windowAddr (fieldAt b 211 3) (fieldAt b 214 10))
    else if b.getLsbD 255 then .error (cRecord, 0, 0)
    else .ok [.bank (fieldAt b 211 3) (fieldAt b 214 10) 4 true]

/-- Elements i < M, j < N of an accumulator tile, row by row. -/
def accSpans (acc m n : Nat) (w : Bool) : List Span :=
  (List.range m).map (fun i => .acc acc (512 * i) (8 * n) w)

/-- The first n elements of an accumulator tile, row-major. -/
def accFirst (acc n : Nat) (w : Bool) : List Span := [.acc acc 0 (8 * n) w]

/-- MMA and MMS (13 R347-R350). `lay` reads the layout in a record slot. -/
def deriveMatrix (lay : Nat → RecordBits) (b : RecordBits) (k0 : W64) : Except Bad Derived := do
  let mma := fieldAt b 0 8 == kMma
  let m := fieldAt b 93 6 + 1
  let n := fieldAt b 99 6 + 1
  let k := fieldAt b 105 14 + 1
  let fa := fieldAt b 119 4
  let fb := fieldAt b 123 4
  let bs := fieldAt b 77 14
  let scale := fieldAt b 140 14
  let aw := fieldAt b 64 3
  if mma && !((isFp8 fa && isFp8 fb) || (fa == fb && (fa == 1 || fa == 3))) then throw (cRecord, 0, 0)
  let sz := if mma then elemSize fa else 1
  let l1 ← useLayout aw (lay (fieldAt b 67 10)) k0 (if mma then none else some (m * k)) none sz
  let asc := fieldAt b 130 10
  let l2 ← if asc = 0 then .ok 0 else useLayout aw (lay asc) 0 none none 1
  let span := if mma then k * sz + (if isFp8 fb then ceilDiv k 16 else 0) else ceilDiv k 5
  if 2 ^ 14 < bs + span then throw (cAddress, 0, sliceAddr 0 bs)
  if scale != 0 && decide (2 ^ 14 < scale + ceilDiv k 16) then throw (cAddress, 0, sliceAddr 0 scale)
  let aSpans := (layRanges l1 sz (layCount l1)).map (fun r => Span.bank aw r.1 r.2 false)
  let sSpans := if asc = 0 then [] else (layRanges l2 1 (layCount l2)).map (fun r => Span.bank aw r.1 r.2 false)
  let bSpans := (List.range n).flatMap (fun j => [Span.slice j bs span false, Span.sliceTag j false] ++
    (if scale = 0 then [] else [Span.slice j scale (ceilDiv k 16) false]))
  let acc := fieldAt b 91 2
  pure ⟨b, l1, l2, aSpans ++ sSpans ++ [.tag aw false] ++ bSpans ++
    (if b.getLsbD 127 then accSpans acc m n false else []) ++ accSpans acc m n true⟩

/-- ACOPY (13 R352). -/
def deriveAcopy (lay : Nat → RecordBits) (b : RecordBits) (k0 : W64) (arr : List Span) : Except Bad Derived := do
  let word := fieldAt b 66 2
  let df := fieldAt b 93 4
  if word ≤ 2 && !(df == 1 || df == 3 || df == 4 || df == 5 || df == 6) then throw (cRecord, 0, 0)
  if word == 3 && (!(df == 9 || df == 7) || fieldAt b 81 12 != 0) then throw (cRecord, 0, 0)
  let dw := fieldAt b 68 3
  let l ← useLayout dw (lay (fieldAt b 71 10)) k0 none (some 4096) (elemSize df)
  pure ⟨b, l, 0, accFirst (fieldAt b 64 2) (layCount l) false ++
    (layRanges l (elemSize df) (layCount l)).map (fun r => Span.bank dw r.1 r.2 true) ++ [.tag dw true] ++ arr⟩

/-- MLOAD (13 R353). -/
def deriveMload (lay : Nat → RecordBits) (b : RecordBits) (k0 : W64) : Except Bad Derived := do
  if fieldAt b 66 2 == 2 then throw (cRecord, 0, 0)
  let sw := fieldAt b 68 3
  let l ← useLayout sw (lay (fieldAt b 71 10)) k0 none (some 4096) 4
  pure ⟨b, l, 0, (layRanges l 4 (layCount l)).map (fun r => Span.bank sw r.1 r.2 false) ++
    accFirst (fieldAt b 64 2) (layCount l) true⟩

/-- GATHER (13 R354, R355). -/
def deriveGather (b : RecordBits) (k0 : W64) (arr : List Span) : Except Bad Derived := do
  let fmt := fieldAt b 158 4
  if !(fmt == 1 || fmt == 3 || fmt == 5 || fmt == 6 || fmt == 10) then throw (cRecord, 0, 0)
  let rows := fieldAt b 130 14 + 1
  let rp := fieldAt b 67 19
  let ci := fieldAt b 89 19
  let bs := fieldAt b 144 14
  let val := BitVec.ofNat 64 (fieldAt b 111 19) + k0
  if rp % 4 != 0 then throw (cAlign, 0, windowAddr (fieldAt b 64 3) rp)
  let span := if fmt == 10 then ceilDiv rows 5 else rows * elemSize fmt
  if 2 ^ 19 ≤ val.toNat then throw (cAddress, 0, windowAddr (fieldAt b 108 3) 0 + val)
  if 2 ^ 19 < rp + 4 * rows + 4 then throw (cAddress, 0, windowAddr (fieldAt b 64 3) rp)
  if 2 ^ 14 < bs + span then throw (cAddress, 0, sliceAddr 0 bs)
  pure ⟨setField b 111 19 val.toNat, 0, 0,
    [.bank (fieldAt b 64 3) rp (4 * rows + 4) false, .bank (fieldAt b 86 3) ci (2 ^ 19 - ci) false,
      .bank (fieldAt b 108 3) val.toNat (2 ^ 19 - val.toNat) false] ++
    (List.range 64).flatMap (fun j => [Span.slice j bs span true, Span.sliceTag j true]) ++ arr⟩

/-- COPY (13 R356). -/
def deriveCopy (b : RecordBits) (k0 : W64) (arr : List Span) : Except Bad Derived := do
  let sa := unpackAddr (fieldAt b 64 51) + k0
  let da := unpackAddr (fieldAt b 128 51)
  let ss := fieldAt b 179 2
  let ds := fieldAt b 181 2
  let rows := fieldAt b 183 6 + 1
  let bytes := fieldAt b 116 12 + 1
  let spitch := 128 * fieldAt b 192 9
  let dpitch := 128 * fieldAt b 201 9
  if !spaceOk ss sa then throw (cAddress, 0, sa)
  if !spaceOk ds da then throw (cAddress, 0, da)
  if 1 < rows && decide (dpitch < bytes) then throw (cRecord, 0, 0)
  let src ← rowSpans ss sa spitch bytes false rows
  let dst ← rowSpans ds da dpitch bytes true rows
  if src.any (fun x => dst.any (spanMeets x)) then throw (cRecord, 0, 0)
  pure ⟨setField b 64 51 (packAddr sa), 0, 0, src ++ dst ++
    (if ds = 0 then [.tag (da.toNat / 2 ^ 19) true] else []) ++ arr⟩

/-- FILL (13 R357). -/
def deriveFill (b : RecordBits) (k0 : W64) (arr : List Span) : Except Bad Derived := do
  let da := unpackAddr (fieldAt b 64 51) + k0
  let ds := fieldAt b 115 2
  if !spaceOk ds da then throw (cAddress, 0, da)
  let dst ← rowSpan ds da 0 (fieldAt b 192 19 + 1) true
  pure ⟨setField b 64 51 (packAddr da), 0, 0, dst :: arr⟩

/-- COPYB (13 R358). -/
def deriveCopyb (b : RecordBits) (k0 : W64) (arr : List Span) : Except Bad Derived := do
  let sa := unpackAddr (fieldAt b 64 51) + k0
  let ss := fieldAt b 115 2
  let rows := fieldAt b 118 6 + 1
  let rb := fieldAt b 148 14 + 1
  let s0 := fieldAt b 142 6
  let o0 := fieldAt b 128 14
  if !spaceOk ss sa then throw (cAddress, 0, sa)
  if decide (64 < s0 + rows) || decide (2 ^ 14 < o0 + rb) then throw (cAddress, 0, sliceAddr s0 o0)
  let src ← rowSpans ss sa rb rb false rows
  pure ⟨setField b 64 51 (packAddr sa), 0, 0, src ++
    (List.range rows).flatMap (fun r => [Span.slice (s0 + r) o0 rb true, Span.sliceTag (s0 + r) true]) ++ arr⟩

/-- Bytes that member m of n reads and writes in a collective (13 R360). -/
def chorusBytes (kind n m c : Nat) : Nat × Nat :=
  if kind = kAg then (c, n * c) else if kind = kRs then (n * c, c) else if kind = kA2a then (n * c, n * c)
  else if kind = kSend then (c, 0) else if kind = kRecv then (0, c)
  else if kind = kBcast then (if m = 0 then c else 0, c) else (0, 0)

/-- A chorus record; `members` are its group's tiles and m the pusher's index, if any (13 R359). DESIGN CHOICE: a COUNT
that is not a multiple of 4, or lies outside 4 to 524,288, raises an illegal-record fault, since 13 R359 names none for it
(assumption 117). -/
def deriveChorus (members : List Nat) (m : Option Nat) (b : RecordBits) (k0 : W64) (arr : List Span) :
    Except Bad Derived := do
  let kind := fieldAt b 0 8
  let c := fieldAt b 128 24
  match m with
  | none => throw (cRecord, 0, 0)
  | some m =>
    let n := members.length
    if (kind == kSend || kind == kRecv) && n != 2 then throw (cRecord, 0, 0)
    if decide (4 ≤ fieldAt b 116 4) then throw (cRecord, 0, 0)
    if kind != kBar && (c % 4 != 0 || decide (c < 4) || decide (524288 < c)) then throw (cRecord, 0, 0)
    let so := BitVec.ofNat 64 (fieldAt b 75 19) + (if kind = kRecv then 0 else k0)
    let dof := BitVec.ofNat 64 (fieldAt b 97 19) + (if kind = kRecv then k0 else 0)
    let (rd, wr) := chorusBytes kind n m c
    if decide (2 ^ 19 ≤ so.toNat) || decide (2 ^ 19 < so.toNat + rd) then
      throw (cAddress, 0, windowAddr (fieldAt b 72 3) 0 + so)
    if decide (2 ^ 19 ≤ dof.toNat) || decide (2 ^ 19 < dof.toNat + wr) then
      throw (cAddress, 0, windowAddr (fieldAt b 94 3) 0 + dof)
    pure ⟨setField (setField b 75 19 so.toNat) 97 19 dof.toNat, 0, 0,
      (if rd = 0 then [] else [Span.bank (fieldAt b 72 3) so.toNat rd false]) ++
      (if wr = 0 then [] else [Span.bank (fieldAt b 94 3) dof.toNat wr true]) ++ arr⟩

/-- A kind with a patch field (11 R275). -/
def hasPatch (kind : Nat) : Bool := kind != kMzero && kind != kBar

/-- Check 3 of a push (11 R273). -/
def deriveRecord (lay : Nat → RecordBits) (members : List Nat) (m : Option Nat) (b : RecordBits) (k0 : W64) :
    Except Bad Derived := do
  let kind := fieldAt b 0 8
  let arr ← arrivalSpan b
  if kind = kMma ∨ kind = kMms then deriveMatrix lay b k0
  else if kind = kMzero then pure ⟨b, 0, 0, accFirst (fieldAt b 64 2) 4096 true⟩
  else if kind = kAcopy then deriveAcopy lay b k0 arr
  else if kind = kMload then deriveMload lay b k0
  else if kind = kGather then deriveGather b k0 arr
  else if kind = kCopy then deriveCopy b k0 arr
  else if kind = kFill then deriveFill b k0 arr
  else if kind = kCopyb then deriveCopyb b k0 arr
  else deriveChorus members m b k0 arr

end Sys2Proof.Machine
end

