-- ==== Sys2Proof/Machine/Push.lean ====
section
/-!
DEFINITION. The pushes MQ, GQ, CQ and HQ (11 R272-R276): the checks in order, the footprint in locations, and the
record's events, queue entry and signal.
-/

namespace Sys2Proof.Machine

/-- Slot n of a tile's record store. -/
def State.slotBits (s : State) (t : Tile) (n : Nat) : RecordBits :=
  BitVec.ofNat 256 (s.readLE (locRec t.cluster t.idx t.slot (32 * n)) 32)

/-- A span as physical byte ranges of a tile; an empty window has none. -/
def spanRanges (s : State) (d : Domain) (t : Tile) (x : Span) : List (Nat × Nat) :=
  match x with
  | .bank w o n _ => match t.bank? w with
    | some b => [(locBank t.cluster b o, n)]
    | none => []
  | .tag w _ => match t.bank? w with
    | some b => [(locTag t.cluster b, 1)]
    | none => []
  | .slice j o n _ => [(locB t.cluster t.idx t.slot (j * 2 ^ 14 + o), n)]
  | .sliceTag j _ => [(locSliceTag t.cluster t.idx t.slot j, 1)]
  | .acc a o n _ => [(locAcc t.cluster t.idx t.slot (a * 2 ^ 15 + o), n)]
  | .glob va n w => globalRanges s d t w va n

def Span.writes : Span → Bool
  | .bank _ _ _ w => w
  | .tag _ w => w
  | .slice _ _ _ w => w
  | .sliceTag _ w => w
  | .acc _ _ _ w => w
  | .glob _ _ w => w

/-- A range of virtual addresses, apart from every location. -/
def virtualRange (va : W64) (n : Nat) : Nat × Nat := (region (2 ^ 20) + va.toNat, n)

/-- A span as the checks of a push take it: G and H in virtual addresses (13 R360). -/
def spanPushed (s : State) (d : Domain) (t : Tile) (x : Span) : List (Nat × Nat) :=
  match x with
  | .glob va n _ => [virtualRange va n]
  | .bank .. => spanRanges s d t x
  | .tag .. => spanRanges s d t x
  | .slice .. => spanRanges s d t x
  | .sliceTag .. => spanRanges s d t x
  | .acc .. => spanRanges s d t x

/-- Every tile's spill share, as the checks of a push take it (09 R216). -/
def Domain.sharesPushed (d : Domain) : List (Nat × Nat) :=
  if d.shareEntries = 0 then [] else d.tiles.map (fun t => virtualRange (d.shareSlot t.lt 0) (8 * d.shareEntries))

/-- The space bit of a span (06 R141). -/
def Span.space : Span → BitVec 5
  | .bank .. => spK
  | .tag .. => spK
  | .slice .. => spB
  | .sliceTag .. => spB
  | .acc .. => spA
  | .glob va _ _ => if ownerOf va = 4 then spH else spG

/-- The windows that a record names (04 R95). -/
def spanWindow : Span → Option Nat
  | .bank w _ _ _ => some w
  | .tag w _ => some w
  | _ => none

/-- The tag of the page that holds an address; RAW where there is none. -/
def pageTag (s : State) (d : Domain) (t : Tile) (va : W64) : Tag :=
  match resolveFor s d t false va with
  | .ok p => p.tag
  | .error _ => Tag.raw

/-- The tag of a source: page, host or bank (04 R90). -/
def sourceTag (s : State) (d : Domain) (t : Tile) (space : Nat) (va : W64) : Tag :=
  if space = 0 then (match t.bank? (va.toNat / 2 ^ 19) with
    | some b => s.tagOf t.cluster b
    | none => Tag.raw)
  else if space = 1 then pageTag s d t va else Tag.raw

/-- The tag that a record will set, when it sets one value (04 R90). -/
def recordTag (s : State) (d : Domain) (t : Tile) (b : RecordBits) : Option Tag :=
  let k := fieldAt b 0 8
  if k = kAcopy then some ⟨BitVec.ofNat 4 (fieldAt b 93 4), 0, false⟩
  else if k = kGather then some ⟨BitVec.ofNat 4 (fieldAt b 158 4), 0, false⟩
  else if k = kCopy ∧ fieldAt b 181 2 = 0 then
    some (sourceTag s d t (fieldAt b 179 2) (unpackAddr (fieldAt b 64 51)))
  else if k = kCopyb then
    let rb := fieldAt b 148 14 + 1
    let tags := (List.range (fieldAt b 118 6 + 1)).map (fun r =>
      sourceTag s d t (fieldAt b 115 2) (unpackAddr (fieldAt b 64 51) + BitVec.ofNat 64 (r * rb)))
    match tags with
    | g :: r => if r.all (· == g) then some g else none
    | [] => none
  else none

/-- The index of a tile in a group. -/
def Domain.memberIndex (d : Domain) (g lt : Nat) : Option Nat := firstIdx (fun x => x == lt) (d.group g)

/-- Checks 1 to 3 of a push (11 R273). -/
def checkRecord (s : State) (d : Domain) (t : Tile) (eng : Engine) (b : RecordBits) (ovr : Bool) :
    Except Bad Derived := do
  let k := fieldAt b 0 8
  if kindEngine k != some eng || !recordClean b then throw (cRecord, 0, 0)
  if ovr && !hasPatch k then throw (cRecord, 0, 0)
  let g := fieldAt b 64 8
  deriveRecord (fun n => s.slotBits t n) (d.group g) (d.memberIndex g t.lt) b (if ovr then t.sval (.k 0) else 0)

/-- Checks 4 and 5 of a push (11 R273). -/
def checkSpans (s : State) (d : Domain) (t : Tile) (spans : List Span) : Option Bad :=
  if spans.any (fun x => match spanWindow x with
      | some w => (t.bank? w).isNone
      | none => false) then some (cDetached, 0, 0)
  else match spans.find? (fun x => match x with
      | .glob va n w => !leaseOk s d w va n
      | _ => false) with
    | some (.glob va _ _) => some (cLease, 0, va)
    | _ => none

/-- Place a record in its queue, with its events, its signal and its guard (11 R274-R276, 06 R144, R156). -/
def Domain.place (d : Domain) (lt : Nat) (r : Rec) (es : List Ev) : Domain :=
  let d1 := d.updTile lt (fun t => { t with
    recs := t.recs ++ [r]
    engines := upd t.engines (engIdx r.eng) (fun q => { q with entries := q.entries ++ [.record r.id] }) })
  let d2 := es.foldl Domain.addEv d1
  if r.sen then d2.semOp lt r.ssem ⟨r.tick, lt, .record, .add (r.sinc.setWidth 16), false, false, r.ev⟩ else d2

/-- The spaces of the spans. -/
def spacesOf (l : List Span) : BitVec 5 := l.foldl (fun x y => x ||| y.space) 0

/-- A guard whose slot is written already and has the value of GSENSE: the record is squashed at its push and makes no
access (11 R276). -/
def Tile.refuses (t : Tile) (guard : Option (BitVec 3 × Bool)) : Bool :=
  match guard with
  | some (p, sense) => (t.pred p).written && (t.pred p).value == sense
  | none => false

/-- The record that a push makes of a checked one. One that its guard refuses names its banks still (04 R95). -/
def newRec (s : State) (d : Domain) (t : Tile) (eng : Engine) (p : BitVec 3) (gen sense : Bool) (v : Derived) : Rec :=
  let guard := if gen then some (p, sense) else none
  let rs (w : Bool) : List (Nat × Nat) := (v.spans.filter (fun x => x.writes == w)).flatMap (spanRanges s d t)
  { id := d.nextId, eng := eng, tick := d.dtick, bits := v.bits, lay1 := v.lay1, lay2 := v.lay2,
    guard := guard, resolved := if gen then none else some d.dtick,
    stage := .queued, flags := 0, fault := none, told := false, ack := none,
    reads := rs false, writes := rs true, coll := 0, progress := 0, ev := d.nextId }

/-- Its events (06 R135): its reads, its writes, and its arrival word when it has one. They hold its footprint for as long
as it is open for some tile, a refused record's too (06 R156); a squashed record has no class. -/
def recordEvs (s : State) (d : Domain) (t : Tile) (eng : Engine) (r : Rec) (v : Derived) : List Ev :=
  let arrive := match arrivalSpan v.bits with
    | .ok l => l
    | .error _ => []
  let main := v.spans.take (v.spans.length - arrive.length)
  let rd := main.filter (fun x => !x.writes)
  let wr := main.filter (fun x => x.writes)
  let base := { newEv d t .sq (.record eng) with cls := if t.refuses r.guard then none else some r.cls }
  let reads : Ev := { base with
    spaces := spacesOf rd, reads := rd.flatMap (spanRanges s d t), pushReads := rd.flatMap (spanPushed s d t) }
  let writes : Ev := { base with
    id := d.nextId + 1, kind := .recWrite d.nextId, spaces := spacesOf wr, writes := wr.flatMap (spanRanges s d t)
    pushWrites := wr.flatMap (spanPushed s d t), tagv := recordTag s d t v.bits }
  let word : Ev := { base with
    id := d.nextId + 2, kind := .arrival d.nextId, spaces := spK, writes := arrive.flatMap (spanRanges s d t)
    pushWrites := arrive.flatMap (spanPushed s d t) }
  [reads, writes] ++ (if arrive.isEmpty then [] else [word])

/-- The domain with the record and its events, its queue as it was: what the push's footprint check looks at. -/
def Domain.withRec (d : Domain) (lt : Nat) (r : Rec) (es : List Ev) : Domain :=
  { d.updTile lt (fun t => { t with recs := t.recs ++ [r] }) with evs := d.evs ++ es }

/-- The push of the record in slot n (11 R272, R273): the checks in order; then the record is placed, its guard resolves
when its slot is written, and the wait of a record that executes acknowledges earlier records (06 R156). A record that
its guard refuses races nothing at its own push. Assumptions 43, 44. -/
def pushWord (s : State) (eng : Engine) (n : BitVec 10) (p : BitVec 3) (gen sense ovr : Bool) : Out :=
  onDom s (fun d t =>
    match checkRecord s d t eng (s.slotBits t n.toNat) ovr with
    | .error (c, det, a) => s.raise 0 c det a
    | .ok v =>
      match checkSpans s d t v.spans with
      | some (c, det, a) => s.raise 0 c det a
      | none =>
        let r := newRec s d t eng p gen sense v
        let es := recordEvs s d t eng r v
        if !t.refuses r.guard && (d.withRec t.lt r es).recordRaces t.lt es d.sharesPushed then s.raise 0 cFootprint 1 0
        else s.updDom d.seq (fun e =>
          let e1 := e.place t.lt r es
          let e2 := if gen then e1.settleGuards t.lt d.dtick else e1.closeRecs t.lt (t.waitedFor d.dtick r) d.dtick
          e2.pushRaces es))

def execMq (n : BitVec 10) (p : BitVec 3) (e g o : Bool) (s : State) : Out := pushWord s .me n p e g o
def execGq (n : BitVec 10) (p : BitVec 3) (e g o : Bool) (s : State) : Out := pushWord s .gu n p e g o
def execCq (n : BitVec 10) (p : BitVec 3) (e g o : Bool) (s : State) : Out := pushWord s .ce n p e g o
def execHq (n : BitVec 10) (p : BitVec 3) (e g o : Bool) (s : State) : Out := pushWord s .ch n p e g o

end Sys2Proof.Machine
end

