-- ==== Sys2Proof/Machine/LoadStore.lean ====
section
/-!
DEFINITION. The words of the LS column (13 R323-R338, 04 R103): bank, global and accumulator accesses, atomics and
waits; and the events that serve global requests (03 R84, 06 R151).
-/

namespace Sys2Proof.Machine

/-! ## Events and faults of an access -/

/-- Records of a tile whose arrival word is among the bytes read and stands there with its value (06 R147). -/
def Domain.arrivedIn (s : State) (d : Domain) (t : Tile) (rd : List (Nat × Nat)) : List Rec :=
  t.recs.filter (fun r => r.stage == .complete && d.evs.any (fun e => (match e.kind with
    | .arrival o => o == r.ev
    | _ => false) && e.writes.any (fun w => rangesMeet [w] rd && s.readLE w.1 4 == r.arrivalValue)))

/-- The column access of the current word, checked for races (06 R135, R157) and recorded. What it reads of arrival words
orders it for later events; it does not excuse the access itself (06 R147, R156). -/
def State.access (s : State) (d : Domain) (t : Tile) (cls : BitVec 4) (sp : BitVec 5) (rd wr : List (Nat × Nat)) :
    State :=
  let e : Ev := { newEv d t .ls .access with cls := some cls, spaces := sp, reads := rd, writes := wr }
  let arr := d.withArrival ((d.arrivedIn s t rd).map (fun r => r.ev))
  let shares := shareRanges s d
  s.updDom d.seq (fun x => (x.addEv { e with after := arr }).columnRaces e shares)

/-- The destination of a scalar result. -/
def toSq : Dest := .sq none

/-- The lanes of a result before its data is there. -/
def destLanes : Dest → Lanes
  | .ls => zeroLanes
  | _ => []

/-- A load that faults leaves its result suppressed in its latch, owed when the fault is recoverable (13 R327, 15 R381,
R384). -/
def owe (s : State) (d : Domain) (t : Tile) (lat : Nat) (dest : Dest) (bad : Bad) : State :=
  let f : Flight := { scalarFlight t d.dtick lat .ls dest 0 with
    lanes := destLanes dest, cause := bad.1, owed := !fatalCode bad.1 }
  (s.put (t.send f)).raise 3 bad.1 bad.2.1 bad.2.2

/-- A recoverable fault of a load that is raised at its completion tick, its latch owed (13 R327). -/
def State.lateFault (s : State) (d : Domain) (t : Tile) (lat : Nat) (dest : Dest) (code : Nat) (va : W64) : State :=
  let f : Flight := { scalarFlight t d.dtick lat .ls dest 0 with
    lanes := destLanes dest, cause := code, owed := true }
  (s.put (t.send f)).updDom d.seq (fun x =>
    { x with deferred := x.deferred ++ [⟨d.dtick + lat, t.lt, 3, code, 0, va, none⟩] })

/-- A load's result under way. -/
def Tile.deliver (t : Tile) (now lat : Nat) (dest : Dest) (val : W64) (x : Lanes) (fl : Flg) : Tile :=
  t.send { scalarFlight t now lat .ls dest val with lanes := x, raised := (if fl = 0 then [] else [fl]) }

/-- A store that faults only raises its cause. -/
def refuseStore (s : State) (bad : Bad) : State := s.raise 3 bad.1 bad.2.1 bad.2.2

/-- A bank or accumulator load's result, or the data-integrity fault of bytes that fail their check (13 R327, 18 R434). -/
def State.deliverSound (s : State) (d : Domain) (t : Tile) (lat : Nat) (dest : Dest) (val : W64) (x : Lanes) (fl : Flg)
    (rs : List (Nat × Nat)) (va : W64) : State :=
  if s.sound rs then s.put (t.deliver d.dtick lat dest val x fl)
  else (s.countFlaws rs).lateFault d t lat dest cIntegrity va

/-- A store of a range, which checks the granules that it writes in part: a mismatch raises its fault at t (13 R327,
18 R433). -/
def State.storeSound (s : State) (cl : Nat) (r : Nat × Nat) (bs : List Byte) (va : W64) : State :=
  if s.mergeSound r then s.storeLocal cl r.1 bs else refuseStore (s.countFlaws [r]) (cIntegrity, 0, va)

/-! ## Bank accesses (02 R52) -/

/-- The bank and offset of an access of n bytes: address, alignment, window (02 R52, R60). -/
def bankAt (t : Tile) (a : W64) (n : Nat) : Except Bad (Nat × Nat) :=
  if 2 ^ 22 ≤ a.toNat then .error (cAddress, 0, a)
  else if a.toNat % n != 0 then .error (cAlign, 0, a)
  else match t.bank? (a.toNat / 2 ^ 19) with
    | none => .error (cDetached, 0, a)
    | some b => .ok (b, a.toNat % 2 ^ 19)

/-- The address of a word: base plus unit times OFS5 (13 R325). -/
def lsAddr (t : Tile) (b : SSpec) (unit : Nat) (o : BitVec 5) : W64 := t.sval b + BitVec.ofNat 64 (unit * o.toNat)

/-- A raw bank load of n bytes (13 R328). -/
def loadBank (s : State) (c : BitVec 4) (b : SSpec) (o : BitVec 5) (n : Nat) (dest : Dest) : Out :=
  onDom s (fun d t =>
    match bankAt t (lsAddr t b n o) n with
    | .error bad => owe s d t 6 dest bad
    | .ok (k, ofs) =>
      let bs := s.readBytes (locBank t.cluster k ofs) n
      (s.deliverSound d t 6 dest (if n = 128 then 0 else BitVec.ofNat 64 (fromLE bs))
        (if n = 128 then lanesOf bs else []) 0 [(locBank t.cluster k ofs, n)] (lsAddr t b n o)).access d t c spK
        [(locBank t.cluster k ofs, n)] [])

/-- A raw bank store (13 R328). -/
def storeBank (s : State) (c : BitVec 4) (b : SSpec) (o : BitVec 5) (n : Nat) (data : Tile → List Byte) : Out :=
  onDom s (fun d t =>
    match bankAt t (lsAddr t b n o) n with
    | .error bad => refuseStore s bad
    | .ok (k, ofs) =>
      (s.storeSound t.cluster (locBank t.cluster k ofs, n) (data t) (lsAddr t b n o)).access d t c spK []
        [(locBank t.cluster k ofs, n)])

def execLdsV (c : BitVec 4) (b : SSpec) (o : BitVec 5) (s : State) : Out := loadBank s c b o 128 .ls
def execLdsW32 (c : BitVec 4) (b : SSpec) (o : BitVec 5) (s : State) : Out := loadBank s c b o 4 toSq
def execLdsW64 (c : BitVec 4) (b : SSpec) (o : BitVec 5) (s : State) : Out := loadBank s c b o 8 toSq
def execStsV (c : BitVec 4) (v : VSpec) (b : SSpec) (o : BitVec 5) (s : State) : Out :=
  storeBank s c b o 128 (fun t => bytesOf (t.vval v))
def execStsW32 (c : BitVec 4) (v b : SSpec) (o : BitVec 5) (s : State) : Out :=
  storeBank s c b o 4 (fun t => toLE 4 (t.sval v).toNat)
def execStsW64 (c : BitVec 4) (v b : SSpec) (o : BitVec 5) (s : State) : Out :=
  storeBank s c b o 8 (fun t => toLE 8 (t.sval v).toNat)

/-! ## Decoding and encoding (13 R329-R332) -/

/-- Element bytes and access size of a tag; none where it has no form. TERN5 has elements of 0 bytes here. -/
def elemForm (g : Tag) (store gather : Bool) : Option (Nat × Nat) :=
  let f := g.fmt.toNat
  if g.spl || (g.blk != 0 && f != 5 && f != 6) then none
  else if f = 10 then (if store || gather then none else some (0, 8))
  else if f = 0 then (if gather then some (4, 4) else none)
  else if f = 2 ∨ 11 ≤ f then none
  else some (elemSize f, 32 * elemSize f)

/-- One element as a lane (08 R186). Assumption 42. -/
def decodeElem (f x : Nat) : W32 :=
  if f = 3 then BitVec.ofNat 32 (x * 2 ^ 16)
  else if f = 4 then BitVec.ofNat 32 (fp16ToFp32 x).1
  else if f = 5 then BitVec.ofNat 32 (e4m3ToFp32 x)
  else if f = 6 then BitVec.ofNat 32 (e5m2ToFp32 x)
  else if f = 7 then (BitVec.ofNat 8 x).signExtend 32
  else BitVec.ofNat 32 x

/-- 32 elements from an access, with IWT for a TERN5 byte of 243 or more (13 R329, R330). -/
def decodeAccess (g : Tag) (bs : List Byte) : Lanes × Flg :=
  let f := g.fmt.toNat
  if f = 10 then
    ((List.range 32).map (fun i => BitVec.ofInt 32 (tritOf (bs.getD (i / 5) 0).toNat (i % 5))),
      flagIf ((bs.take 7).any (fun b => decide (243 ≤ b.toNat))) fIWT)
  else
    let n := elemSize f
    ((List.range 32).map (fun i => decodeElem f (fromLE ((bs.drop (n * i)).take n))), 0)

/-- One lane as an element (13 R331). -/
def encodeElem (f : Nat) (x : W32) : Nat × Flg :=
  if f = 3 then bf16F.convert fp32F .rne x.toNat
  else if f = 4 then fp16F.convert fp32F .rne x.toNat
  else if f = 5 then fp32ToFp8 false true x.toNat
  else if f = 6 then fp32ToFp8 true true x.toNat
  else if f = 7 then ((BitVec.ofInt 8 (max (-128) (min 127 x.toInt))).toNat, 0)
  else if f = 8 then ((max 0 (min 255 x.toInt)).toNat, 0)
  else (x.toNat, 0)

/-- The bank, offset, tag and access size of LDS.D and STS.E (13 R325, R329). -/
def taggedAt (s : State) (t : Tile) (b : SSpec) (o : BitVec 5) (store : Bool) :
    Except Bad (Nat × Nat × Tag × Nat) :=
  let base := t.sval b
  if 2 ^ 22 ≤ base.toNat then .error (cAddress, 0, base)
  else match t.bank? (base.toNat / 2 ^ 19) with
    | none => .error (cDetached, 0, base)
    | some k =>
      let g := s.tagOf t.cluster k
      match elemForm g store false with
      | none => .error (cFormat, 0, base)
      | some (_, n) =>
        let a := base + BitVec.ofNat 64 (n * o.toNat)
        if a.toNat / 2 ^ 19 != base.toNat / 2 ^ 19 then .error (cAddress, 0, a)
        else if a.toNat % n != 0 then .error (cAlign, 0, a)
        else .ok (k, a.toNat % 2 ^ 19, g, n)

/-- The address of a byte of the window that an address names. -/
def inWindow (base : W64) (ofs : Nat) : W64 := BitVec.ofNat 64 (base.toNat / 2 ^ 19 * 2 ^ 19 + ofs)

/-- The read of the tag that a format, alignment or crossing fault rests on is an access as well (04 R91, 06 R157). -/
def State.tagRead (s : State) (d : Domain) (t : Tile) (cls : BitVec 4) (b : SSpec) : State :=
  if 2 ^ 22 ≤ (t.sval b).toNat then s
  else match t.bank? ((t.sval b).toNat / 2 ^ 19) with
    | none => s
    | some k => s.access d t cls spK [bankTag t.cluster k] []

/-- LDS.D (13 R330). -/
def execLdsD (c : BitVec 4) (b : SSpec) (o : BitVec 5) (s : State) : Out :=
  onDom s (fun d t =>
    match taggedAt s t b o false with
    | .error bad => (owe s d t 7 .ls bad).tagRead d t c b
    | .ok (k, ofs, g, n) =>
      let r := decodeAccess g (s.readBytes (locBank t.cluster k ofs) n)
      (s.deliverSound d t 7 .ls 0 r.1 r.2 [(locBank t.cluster k ofs, n)] (inWindow (t.sval b) ofs)).access d t c spK
        [(locBank t.cluster k ofs, n), bankTag t.cluster k] [])

/-- STS.E: the elements are written, then the flags enter (13 R331). -/
def execStsE (c : BitVec 4) (v : VSpec) (b : SSpec) (o : BitVec 5) (s : State) : Out :=
  onDom s (fun d t =>
    match taggedAt s t b o true with
    | .error bad => (refuseStore s bad).tagRead d t c b
    | .ok (k, ofs, g, n) =>
      let es := (t.vval v).map (encodeElem g.fmt.toNat)
      let bs := es.flatMap (fun e => toLE (n / 32) e.1)
      ((s.storeSound t.cluster (locBank t.cluster k ofs, n) bs (inWindow (t.sval b) ofs)).access d t c spK [bankTag t.cluster k]
        [(locBank t.cluster k ofs, n)]).updDom d.seq (fun x => x.enterStoreFlags t.lt (orFlags (es.map (fun e => e.2)))))

/-! ## Gather and scatter (13 R332, R333, 04 R105) -/

/-- Conflicts of a set of offsets: lines of a sub-bank beyond its first. -/
def subBankConflicts (ofs : List Nat) : Nat :=
  (ofs.map (· / 2 ^ 7)).eraseDups.length - (ofs.map (· / 2 ^ 15)).eraseDups.length

def Tile.countConflicts (t : Tile) (ofs : List Nat) : Tile :=
  { t with confl := BitVec.ofNat 32 (min 0xFFFFFFFF (t.confl.toNat + subBankConflicts ofs)) }

/-- The window and start offset of a gather or scatter of elements of n bytes. -/
def gatherAt (t : Tile) (base : W64) : Except Bad (Nat × Nat) :=
  if 2 ^ 22 ≤ base.toNat then .error (cAddress, 0, base)
  else match t.bank? (base.toNat / 2 ^ 19) with
    | none => .error (cDetached, 0, base)
    | some k => .ok (k, base.toNat % 2 ^ 19)

/-- The offsets that an index vector names (13 R332). -/
def gatherOffsets (o n : Nat) (idx : Lanes) : List Nat := idx.map (fun x => (o + n * x.toNat) % 2 ^ 19)

/-- LDS.G (13 R332). -/
def execLdsG (c : BitVec 4) (v : VSpec) (b : SSpec) (s : State) : Out :=
  onDom s (fun d t =>
    match gatherAt t (t.sval b) with
    | .error bad => owe s d t 7 .ls bad
    | .ok (k, o) =>
      let g := s.tagOf t.cluster k
      match elemForm g false true with
      | none => (owe s d t 7 .ls (cFormat, 0, t.sval b)).tagRead d t c b
      | some (n, _) =>
        if o % n != 0 then (owe s d t 7 .ls (cAlign, 0, t.sval b)).tagRead d t c b
        else
          let ofs := gatherOffsets o n (t.vval v)
          let x := ofs.map (fun a => decodeElem g.fmt.toNat (s.readLE (locBank t.cluster k a) n))
          let first := (ofs.find? (fun a => !s.sound [(locBank t.cluster k a, n)])).getD o
          (s.deliverSound d (t.countConflicts ofs) 7 .ls 0 x 0 (ofs.map (fun a => (locBank t.cluster k a, n)))
            (inWindow (t.sval b) first)).access d t c spK
            (bankTag t.cluster k :: ofs.map (fun a => (locBank t.cluster k a, n))) [])

/-- STS.S: lanes are written in ascending order (13 R333). Those that would merge with a granule failing its check are not,
and raise one fault, at the address of the first of them (18 R433, R434). -/
def execStsS (c : BitVec 4) (v : VSpec) (b : SSpec) (i : BitVec 4) (s : State) : Out :=
  onDom s (fun d t =>
    match gatherAt t (t.sval b) with
    | .error bad => refuseStore s bad
    | .ok (k, o) =>
      if o % 4 != 0 then refuseStore s (cAlign, 0, t.sval b)
      else
        let ofs := gatherOffsets o 4 (t.vreg i)
        let at_ (a : Nat) : Nat × Nat := (locBank t.cluster k a, 4)
        let s1 := ((ofs.zip (t.vval v)).filter (fun p => s.mergeSound (at_ p.1))).foldl (fun s p =>
          s.storeLocal t.cluster (at_ p.1).1 (toLE 4 p.2.toNat)) (s.put (t.countConflicts ofs))
        let bad := ofs.filter (fun a => !s.mergeSound (at_ a))
        let s2 := match bad with
          | [] => s1
          | a :: _ => refuseStore (s1.countFlaws (bad.map at_)) (cIntegrity, 0, inWindow (t.sval b) a)
        s2.access d t c spK [] (ofs.map (fun a => (locBank t.cluster k a, 4))))

/-! ## Atomics (13 R334) -/

/-- Bytes of an atomic's word. -/
def aopSize : Aop → Nat
  | .fadd32 => 4
  | .fmax32 => 4
  | _ => 8

/-- The new value and the flags: m the old value, d the data, k the value of k0 (13 R334). -/
def aopNew (o : Aop) (m d k : W64) : W64 × Flg :=
  match o with
  | .add => (m + d, 0)
  | .sub => (m - d, 0)
  | .min => (if d.slt m then d else m, 0)
  | .max => (if m.slt d then d else m, 0)
  | .minu => (if d.ult m then d else m, 0)
  | .maxu => (if m.ult d then d else m, 0)
  | .and => (m &&& d, 0)
  | .or => (m ||| d, 0)
  | .xor => (m ^^^ d, 0)
  | .swap => (d, 0)
  | .cas => (if m = k then d else m, 0)
  | .fadd32 =>
    let r := fp32F.add .rne false m.toNat (d.toNat % 2 ^ 32)
    (BitVec.ofNat 64 r.1, r.2)
  | .fmax32 =>
    let r := fp32F.minmax true m.toNat (d.toNat % 2 ^ 32)
    (BitVec.ofNat 64 r.1, r.2)

/-- AMOS performs at its issue tick (13 R334). -/
def execAmos (c : BitVec 4) (v b : SSpec) (o : Aop) (s : State) : Out :=
  onDom s (fun d t =>
    match bankAt t (t.sval b) (aopSize o) with
    | .error bad => owe s d t 10 toSq bad
    | .ok (k, ofs) =>
      let a := locBank t.cluster k ofs
      let m := BitVec.ofNat 64 (s.readLE a (aopSize o))
      let r := aopNew o m (t.sval v) (t.sval (.k 0))
      (if s.sound [(a, aopSize o)] then
        (s.put (t.deliver d.dtick 10 toSq m [] r.2)).storeLocal t.cluster a (toLE (aopSize o) r.1.toNat)
      else (s.countFlaws [(a, aopSize o)]).lateFault d t 10 toSq cIntegrity (t.sval b)).access d t c spK
        [(a, aopSize o)] [(a, aopSize o)])

/-! ## Global requests (13 R326, 06 R151) -/

/-- Address, alignment and lease of a global access (02 R56, 13 R325, 03 R76). -/
def globCheck (s : State) (d : Domain) (va : W64) (n : Nat) (wr noHost : Bool) : Option Bad :=
  if !addrOk va || (noHost && ownerOf va == 4) then some (cAddress, 0, va)
  else if va.toNat % n != 0 then some (cAlign, 0, va)
  else if !leaseOk s d wr va n then some (cLease, 0, va)
  else none

/-- The space of a global address. -/
def globSpace (va : W64) : BitVec 5 := if ownerOf va = 4 then spH else spG

/-- Latency of a global load by timing class (13 R323). -/
def latGlobal (d : Domain) : Nat := if d.wide then 900 else 600

/-- A request on its way, with the flight that waits for it and its event. -/
def State.request (s : State) (d : Domain) (t : Tile) (c : BitVec 4) (g : GOp) (flight : Option Flight) (rd wr : Bool) :
    State :=
  let rs := globalRanges s d t wr g.va g.size
  let t1 := match flight with
    | some f => t.send { f with gop := some d.nextId }
    | none => t
  let e : Ev := { newEv d t .ls .access with
    id := d.nextId + 1, cls := some c, spaces := globSpace g.va
    reads := (if rd then rs else []), writes := (if wr then rs else []) }
  let shares := shareRanges s d
  (s.put t1).updDom d.seq (fun x =>
    let due := match flight with
      | some f => f.due
      | none => d.dtick + d.vg
    let x1 : Domain := { x with gops := x.gops ++ [{ g with id := d.nextId, due := due }], nextId := d.nextId + 1 }
    (x1.addEv e).columnRaces e shares)

def newGop (d : Domain) (t : Tile) (k : GKind) (va : W64) (n : Nat) : GOp :=
  { id := 0, kind := k, lt := t.lt, tick := d.dtick, va := va, size := n, data := [], aop := .add, operand := 0,
    compare := 0, stage := .asked, decode := false, due := 0, seen := false }

/-- A raw global load (13 R328). -/
def loadGlobal (s : State) (c : BitVec 4) (b : SSpec) (o : BitVec 5) (n : Nat) (dest : Dest) : Out :=
  onDom s (fun d t =>
    let va := lsAddr t b n o
    match globCheck s d va n false false with
    | some bad => owe s d t (latGlobal d) dest bad
    | none => s.request d t c (newGop d t .load va n) 
      (some { scalarFlight t d.dtick (latGlobal d) .ls dest 0 with lanes := destLanes dest }) true false)

def execLdgW64 (c : BitVec 4) (b : SSpec) (o : BitVec 5) (s : State) : Out := loadGlobal s c b o 8 toSq
def execLdgV (c : BitVec 4) (b : SSpec) (o : BitVec 5) (s : State) : Out := loadGlobal s c b o 128 .ls

/-- LDG.D: the page of value(BASE) gives the format and the access size (13 R329, R330). DESIGN CHOICE: where that page has
no translation, the request that will fail is of one byte at the base (assumption 81). -/
def execLdgD (c : BitVec 4) (b : SSpec) (o : BitVec 5) (s : State) : Out :=
  onDom s (fun d t =>
    let lat := latGlobal d + 1
    let base := t.sval b
    match globCheck s d base 1 false false with
    | some bad => owe s d t lat .ls bad
    | none =>
      match resolveFor s d t false base with
      | .error _ => s.request d t c { newGop d t .load base 1 with decode := true }
          (some { scalarFlight t d.dtick lat .ls .ls 0 with lanes := zeroLanes }) true false
      | .ok p =>
        match elemForm p.tag false false with
        | none => (s.useRead d base).lateFault d t lat .ls cFormat base
        | some (_, n) =>
          let va := base + BitVec.ofNat 64 (n * o.toNat)
          match globCheck s d va n false false with
          | some bad => owe s d t lat .ls bad
          | none =>
            if (match resolveFor s d t false va with
                | .ok q => q.tag != p.tag
                | .error _ => false) then ((s.useRead d base).useRead d va).lateFault d t lat .ls cFormat va
            else (s.useRead d base).request d t c { newGop d t .load va n with decode := true }
              (some { scalarFlight t d.dtick lat .ls .ls 0 with lanes := zeroLanes }) true false)

/-- The launch port as a supervisor tile reaches it (14 R377). -/
def portAddr : Nat := 0x0000FFFFFFFFF000

/-- A supervisor store to the port posts its bytes (14 R362, R377). -/
def postsPacket (d : Domain) (va : W64) : Bool :=
  d.sup && decide (ownerOf va < 4) && va.extractLsb' 48 13 == 0 && decide (lowAddr va / 128 = portAddr / 128)

/-- A raw global store: its data is read at t (13 R326, R328). -/
def storeGlobal (s : State) (c : BitVec 4) (b : SSpec) (o : BitVec 5) (n : Nat) (data : Tile → List Byte) : Out :=
  onDom s (fun d t =>
    let va := lsAddr t b n o
    if postsPacket d va && va.toNat % n == 0 then
      { s with inputs := s.inputs ++
        [.launchPost (ownerOf va) (masterOf t.cluster) (lowAddr va % 128) (data t)] }
    else
    match globCheck s d va n true false with
    | some bad => refuseStore s bad
    | none => s.request d t c { newGop d t .store va n with data := data t } none false true)

def execStgW64 (c : BitVec 4) (v b : SSpec) (o : BitVec 5) (s : State) : Out :=
  storeGlobal s c b o 8 (fun t => toLE 8 (t.sval v).toNat)
def execStgV (c : BitVec 4) (v : VSpec) (b : SSpec) (o : BitVec 5) (s : State) : Out :=
  storeGlobal s c b o 128 (fun t => bytesOf (t.vval v))

/-- AMOG performs at the vault; its result waits for the answer (13 R334, R335). -/
def execAmog (c : BitVec 4) (v b : SSpec) (o : Aop) (s : State) : Out :=
  onDom s (fun d t =>
    let lat := if d.wide then 1200 else 900
    let va := t.sval b
    match globCheck s d va (aopSize o) true true with
    | some bad => owe s d t lat toSq bad
    | none => s.request d t c { newGop d t .amo va (aopSize o) with
        aop := o, operand := t.sval v, compare := t.sval (.k 0) }
        (some (scalarFlight t d.dtick lat .ls toSq 0)) true true)

/-! ## Serving global requests -/

/-- The bytes of a request as its event holds them: two addresses of one page are one set of locations (06 R137). -/
def Domain.gopBytes (d : Domain) (g : GOp) : List (Nat × Nat) :=
  match d.evs.find? (fun e => e.id == g.id + 1) with
  | some e => e.reads ++ e.writes
  | none => []

/-- Two requests touch a common byte and one of them writes. -/
def Domain.gopMeets (d : Domain) (g h : GOp) : Bool :=
  (g.kind != .load || h.kind != .load) &&
    (rangeMeets (g.va.toNat, g.size) (h.va.toNat, h.size) || rangesMeet (d.gopBytes g) (d.gopBytes h))

/-- The request may perform: no earlier conflicting request of its domain is pending (06 R155). Assumption 39. -/
def Domain.mayPerform (d : Domain) (g : GOp) : Bool :=
  d.gops.all (fun h => decide (g.id ≤ h.id) || !h.pending || !d.gopMeets g h)

/-- Give an answer to the flight that waits for request `id`. -/
def Tile.answer (t : Tile) (id : Nat) (val : W64) (x : Lanes) (fl : Flg) : Tile :=
  { t with flights := t.flights.map (fun f => if f.gop = some id then
      { f with gop := none, val := val, lanes := x, raised := (if fl = 0 then [] else [fl]) } else f) }

/-- The page tag of a request's address, for LDG.D. Assumption 46. -/
def gopTag (s : State) (d : Domain) (t : Tile) (g : GOp) : Tag := pageTag s d t g.va

/-- Finish request g: it is done, and its flight takes the answer. -/
def State.finishGop (s : State) (d : Domain) (g : GOp) (val : W64) (x : Lanes) (fl : Flg) : State :=
  s.updDom d.seq (fun e => (e.setGop { g with stage := .done }).updTile g.lt (fun t => t.answer g.id val x fl))

/-- Data that fails its check at the tile: the latch is owed, and the fault is raised at the completion tick, or stands
beside the causes of a halt (13 R327, 15 R384, 18 R434). A store that would merge with a granule failing its check at the
vault writes nothing, and its fault is raised when it should have performed, Vg after its issue (18 R433, 13 R327;
assumption 103). -/
def State.spoilGop (s : State) (d : Domain) (g : GOp) : State :=
  let due := if g.kind = .store then g.due else
    match (d.tile? g.lt).bind (fun t => t.flights.find? (fun f => f.gop == some g.id)) with
    | some f => f.due
    | none => d.dtick
  s.updDom d.seq (fun e =>
    let e1 := (e.setGop { g with stage := if g.kind = .store then .failed cIntegrity else .done }).updTile g.lt (fun t => { t with
      flights := t.flights.map (fun f =>
        if f.gop = some g.id then { f with gop := none, cause := cIntegrity, owed := true } else f) })
    if e.phase == .halted then e1.addCause ⟨due, g.lt, 3, cIntegrity, 0⟩ g.va
    else { e1 with deferred := e1.deferred ++ [⟨due, g.lt, 3, cIntegrity, 0, g.va, none⟩] })

/-- GLOBAL_LOAD_DATA_ARRIVAL: a load or an AMOG is served and its data reaches the tile (13 R326, R334, 03 R84). DESIGN
CHOICE: an AMOG of a discarded page counts its dropped write alone and leaves DREAD: 03 R84's line on AMOs names no read
(assumption 100). -/
def execGlobalLoadDataArrival (s : State) : Out :=
  withGop s (fun d t g =>
    match g.stage with
    | .ready loc gone =>
      if !gone && !s.sound [(loc, g.size)] then (s.countFlaws [(loc, g.size)]).spoilGop d g
      else
      let s1 := if gone then s.countRead d.part else s
      let bs := if gone then List.replicate g.size 0 else s.readBytes loc g.size
      match g.kind with
      | .amo =>
        let m := BitVec.ofNat 64 (fromLE bs)
        let r := aopNew g.aop m g.operand g.compare
        let s2 := if gone then s.countWrite d.part else s.writeBytes loc (toLE g.size r.1.toNat)
        s2.finishGop d g m [] r.2
      | _ =>
        if g.decode then
          let r := decodeAccess (gopTag s d t g) bs
          s1.finishGop d g 0 r.1 r.2
        else if g.size = 128 then s1.finishGop d g 0 (lanesOf bs) 0
        else s1.finishGop d g (BitVec.ofNat 64 (fromLE bs)) [] 0
    | _ => s)

/-- GLOBAL_STORE_PERFORMED: the store reaches its location and has performed for DOMAIN (06 R143, R151). -/
def execGlobalStorePerformed (s : State) : Out :=
  withGop s (fun d _ g =>
    match g.stage with
    | .ready loc gone =>
      if gone then (s.countWrite d.part).finishGop d g 0 [] 0
      else if s.mergeSound (loc, g.size) then (s.writeBytes loc g.data).finishGop d g 0 [] 0
      else (s.countFlaws [(loc, g.size)]).spoilGop d g
    | _ => s)

/-! ## Waits (04 R103, 13 R336) -/

def waitHolds {w : Nat} (c : WaitCond) (m v : BitVec w) : Bool :=
  match c with
  | .eq => m == v
  | .geu => v.ule m

/-- WAITW, its condition met: a read of its class that acknowledges the records whose arrival value it reads and is
ordered after them (04 R103, 06 R147, R156). -/
def execWaitw (c : BitVec 4) (_v b : SSpec) (_e : WaitCond) (s : State) : Out :=
  onDom s (fun d t =>
    match bankAt t (t.sval b) 4 with
    | .error bad => refuseStore s bad
    | .ok (k, ofs) =>
      let loc := locBank t.cluster k ofs
      if !s.sound [(loc, 4)] then refuseStore (s.countFlaws [(loc, 4)]) (cIntegrity, 0, t.sval b)
      else
      let rs := d.arrivedIn s t [(loc, 4)]
      let ids := d.withArrival (rs.map (fun r => r.ev))
      let e : Ev := { newEv d t .ls .access with cls := some c, spaces := spK, reads := [(loc, 4)], after := ids }
      let shares := shareRanges s d
      s.updDom d.seq (fun x =>
        ((x.ackWhere t.lt (fun r => rs.any (fun q => q.id == r.id)) d.dtick).addEv e).columnRaces e shares))

/-- WAITG, its condition met or its walk failed: a read of its class, or the fault of its walk (13 R327, R336). DESIGN
CHOICE: the samples of one that waits use the page but set no DREAD for a discarded one; its read, which performs, does
(03 R84; assumption 118). -/
def execWaitg (c : BitVec 4) (_v b : SSpec) (_e : WaitCond) (s : State) : Out :=
  onDom s (fun d t =>
    let va := t.sval b
    match globCheck s d va 8 false false with
    | some bad => refuseStore s bad
    | none =>
      match resolveFor s d t false va with
      | .error w =>
        if d.relaxed then (s.openRecord d t 0 false va 8 w).raise 3 cTranslation 0 va
        else (s.countWalk va w).raise 3 cLease 0 va
      | .ok p =>
        if !p.discarded && !s.sound [(p.loc, 8)] then refuseStore (s.countFlaws [(p.loc, 8)]) (cIntegrity, 0, va)
        else
          let s1 := s.useRead d va
          let e : Ev := { newEv d t .ls .access with
            cls := some c, spaces := globSpace va, reads := [(p.loc, 8)], waited := true }
          let shares := shareRanges s d
          (if p.discarded then s1.countRead d.part else s1).updDom d.seq (fun x => (x.addEv e).columnRaces e shares))

/-! ## Accumulators (13 R337, R338) -/

/-- The location of element e of row r, column c of accumulator a: sum word, then error word (05 R108). -/
def accLoc (t : Tile) (a r c : Nat) : Nat := locAcc t.cluster t.idx t.slot (a * 2 ^ 15 + r * 512 + 8 * c)

/-- Accumulator tile and row of an address (02 R53). -/
def accAt (x : W64) : Except Bad (Nat × Nat) :=
  if 2 ^ 8 ≤ x.toNat then .error (cAddress, 0, x) else .ok (x.toNat / 64, x.toNat % 64)

/-- The word that LDA reads (13 R337). -/
def accWord (w : AccWord) (sum err : Nat) : W32 :=
  match w with
  | .sum => BitVec.ofNat 32 sum
  | .err => BitVec.ofNat 32 err
  | .rn => BitVec.ofNat 32 (fp32F.add .rne false sum err).1
  | .i32 => BitVec.ofNat 32 sum

/-- Records that LDA is interlocked against: ME records of the tile, pushed before the tick, that write the half-row and
whose acknowledgement has not been performed (13 R338). -/
def Tile.accWriters (t : Tile) (now loc : Nat) : List Rec :=
  t.recs.filter (fun r => r.eng == .me && r.stage != .squashed && !r.told && decide (r.tick < now) &&
    rangesMeet r.writes [(loc, 256)])

/-- LDA (13 R337, R338). -/
def execLda (c : BitVec 4) (b : SSpec) (w : AccWord) (h : Bool) (s : State) : Out :=
  onDom s (fun d t =>
    match accAt (t.sval b) with
    | .error bad => owe s d t 8 .ls bad
    | .ok (a, r) =>
      let loc := accLoc t a r (if h then 32 else 0)
      let x : Lanes := (List.range 32).map (fun e => accWord w (s.readLE (loc + 8 * e) 4) (s.readLE (loc + 8 * e + 4) 4))
      let done := (t.accWriters d.dtick loc).filter (fun r => r.stage == .complete)
      let ids := d.withArrival (done.map (fun r => r.ev))
      let e : Ev := { newEv d t .ls .access with cls := some c, spaces := spA, reads := [(loc, 256)], after := ids }
      let shares := shareRanges s d
      (s.deliverSound d t 8 .ls 0 x 0 [(loc, 256)] (t.sval b)).updDom d.seq (fun x =>
        ((x.ackWhere t.lt (fun r => done.any (fun q => q.id == r.id)) d.dtick).addEv e).columnRaces e shares))

/-- STA: the lanes and error words of +0 (13 R337). -/
def execSta (c : BitVec 4) (v : VSpec) (b : SSpec) (h : Bool) (s : State) : Out :=
  onDom s (fun d t =>
    match accAt (t.sval b) with
    | .error bad => refuseStore s bad
    | .ok (a, r) =>
      let loc := accLoc t a r (if h then 32 else 0)
      (s.storeLocal t.cluster loc ((t.vval v).flatMap (fun x => toLE 4 x.toNat ++ [0, 0, 0, 0]))).access d t c spA []
        [(loc, 256)])

end Sys2Proof.Machine
end

