-- ==== Sys2Proof/Machine/Crypto.lean ====
section
/-!
DEFINITION. The hashes and the signature that the manual names: CRC-32C (18 R433), SHA-256 (08 R197, R199; 18 R437) and
RSASSA-PSS (18 R437), of the standards FIPS 180-4 and RFC 8017.
-/

namespace Sys2Proof.Machine

/-! ## CRC-32C: reflected, initial and final value all ones (18 R433) -/

def crcBits : Nat → BitVec 32 → BitVec 32
  | 0, c => c
  | n + 1, c => crcBits n (if c.getLsbD 0 then (c >>> 1) ^^^ 0x82F63B78 else c >>> 1)

def crcFrom (c : BitVec 32) (bs : List Byte) : BitVec 32 := bs.foldl (fun c b => crcBits 8 (c ^^^ b.setWidth 32)) c

def crc32c (bs : List Byte) : BitVec 32 := ~~~(crcFrom 0xFFFFFFFF bs)

/-! ## SHA-256, its words packed first word highest -/

/-- Word j of n packed words. -/
def packed {n : Nat} (x : BitVec n) (j : Nat) : W32 := x.extractLsb' (n - 32 * (j + 1)) 32

/-- The 64 round constants, eight to a row. -/
def shaRow : Nat → BitVec 256
  | 0 => 0x428a2f9871374491b5c0fbcfe9b5dba53956c25b59f111f1923f82a4ab1c5ed5
  | 1 => 0xd807aa9812835b01243185be550c7dc372be5d7480deb1fe9bdc06a7c19bf174
  | 2 => 0xe49b69c1efbe47860fc19dc6240ca1cc2de92c6f4a7484aa5cb0a9dc76f988da
  | 3 => 0x983e5152a831c66db00327c8bf597fc7c6e00bf3d5a7914706ca635114292967
  | 4 => 0x27b70a852e1b21384d2c6dfc53380d13650a7354766a0abb81c2c92e92722c85
  | 5 => 0xa2bfe8a1a81a664bc24b8b70c76c51a3d192e819d6990624f40e3585106aa070
  | 6 => 0x19a4c1161e376c082748774c34b0bcb5391c0cb34ed8aa4a5b9cca4f682e6ff3
  | _ => 0x748f82ee78a5636f84c878148cc7020890befffaa4506cebbef9a3f7c67178f2

/-- The initial hash value. -/
def shaStart : BitVec 256 := 0x6a09e667bb67ae853c6ef372a54ff53a510e527f9b05688c1f83d9ab5be0cd19

/-- Two rotations of a word and a third rotation, or a shift, added without carries. -/
def whirl (x : W32) (i j : Nat) (third : W32) : W32 := third ^^^ (x.rotateRight i ^^^ x.rotateRight j)

/-- Big-endian number of a byte list. -/
def fromBE (l : List Byte) : Nat := fromLE l.reverse
def toBE (n x : Nat) : List Byte := (toLE n x).reverse

/-- The window of sixteen schedule words moves on by one. -/
def slide (w : BitVec 512) : BitVec 512 :=
  let x := packed w 1
  let y := packed w 14
  let next := packed w 0 + packed w 9 + whirl x 7 18 (x >>> 3) + whirl y 17 19 (y >>> 10)
  (w <<< 32) ||| next.setWidth 512

/-- Round i on the eight working words, with the first word of the window. -/
def shaStep (v : BitVec 256) (i : Nat) (w : W32) : BitVec 256 :=
  let a := packed v 0
  let e := packed v 4
  let chosen := packed v 6 ^^^ (e &&& (packed v 5 ^^^ packed v 6))
  let most := (a &&& packed v 1) ||| (packed v 2 &&& (a ||| packed v 1))
  let up := packed v 7 + w + packed (shaRow (i / 8)) (i % 8) + chosen + whirl e 6 11 (e.rotateRight 25)
  let top := up + most + whirl a 2 13 (a.rotateRight 22)
  top ++ (v.extractLsb' 160 96 ++ ((packed v 3 + up) ++ v.extractLsb' 32 96))

/-- The rounds from i on. -/
def shaRounds : Nat → Nat → BitVec 512 → BitVec 256 → BitVec 256
  | 0, _, _, v => v
  | n + 1, i, w, v => shaRounds n (i + 1) (slide w) (shaStep v i (packed w 0))

/-- The eight words of two packed values added one by one. -/
def addWords (x y : BitVec 256) : BitVec 256 :=
  (List.range 8).foldl (fun r j => (r <<< 32) ||| (packed x j + packed y j).setWidth 256) 0

/-- The hash value after the first n blocks of a message. -/
def shaOver : Nat → BitVec 256 → List Byte → BitVec 256
  | 0, h, _ => h
  | n + 1, h, m => shaOver n (addWords h (shaRounds 64 0 (BitVec.ofNat 512 (fromBE (m.take 64))) h)) (m.drop 64)

/-- A message, a 1 bit, zeros, and its length in bits, in whole blocks. -/
def shaPadded (bs : List Byte) : List Byte :=
  let zeros := 63 - (bs.length + 8) % 64
  bs ++ 0x80 :: (List.replicate zeros 0 ++ toBE 8 (8 * bs.length))

def sha256 (bs : List Byte) : List Byte :=
  toBE 32 (shaOver ((bs.length + 8) / 64 + 1) shaStart (shaPadded bs)).toNat

/-- A digest as a number of 256 bits, first byte lowest. -/
def digestBits (bs : List Byte) : BitVec 256 := BitVec.ofNat 256 (fromLE bs)

/-! ## RSASSA-PSS verification over SHA-256, MGF1 and a 32-byte salt (18 R437) -/

/-- b to the power e modulo n, e of at most `fuel` bits. -/
def powMod (n : Nat) : Nat → Nat → Nat → Nat → Nat
  | 0, _, _, acc => acc
  | fuel + 1, b, e, acc => powMod n fuel (b * b % n) (e / 2) (if e % 2 = 1 then acc * b % n else acc)

def mgf1 (seed : List Byte) (len : Nat) : List Byte :=
  ((List.range (len / 32 + 1)).flatMap (fun i => sha256 (seed ++ toBE 4 i))).take len

/-- EMSA-PSS-VERIFY of an encoded message of 384 bytes and 3071 bits. -/
def pssOk (em msg : List Byte) : Bool :=
  let db := em.take 351
  let h := (em.drop 351).take 32
  let un := List.zipWith (· ^^^ ·) db (mgf1 h 351)
  let un0 := match un with
    | b :: r => (b &&& 0x7F) :: r
    | [] => []
  em.length == 384 && em.getD 383 0 == 0xBC && (db.getD 0 0) &&& 0x80 == 0 &&
    un0.take 318 == List.replicate 318 0 && un0.getD 318 0 == 1 &&
    h == sha256 (List.replicate 8 0 ++ sha256 msg ++ un0.drop 319)

/-- The signature of a message under a modulus and an exponent. -/
def rsaPssOk (modulus exponent : Nat) (sig msg : List Byte) : Bool :=
  let s := fromBE sig
  decide (1 < modulus) && decide (s < modulus) && pssOk (toBE 384 (powMod modulus 32 s exponent 1)) msg

end Sys2Proof.Machine
end

