-- ==== Sys2Proof/Machine/Persist.lean ====
section
/-!
DEFINITION. The shadow plane and persist epochs (05 R107-R126): volumes, PFENCE and its cut, line records, seals, and the
events that make an epoch durable and apply it.
-/

namespace Sys2Proof.Machine

/-! ## Places in the plane (05 R107) -/

/-- Assumption 63. -/
def planeBank (b : Nat) : Nat := b * 2 ^ 19
def planeB (tile : Nat) : Nat := 2 ^ 23 + tile * 2 ^ 20
def planeSlot (tile : Nat) (slot : Bool) : Nat := 12 * 2 ^ 20 + (2 * tile + slot.toNat) * 192 * 1024
def planeJournal : Nat := 27 * 2 ^ 19
def planeSeal (tile : Nat) (slot : Bool) (buf : Nat) : Nat :=
  35 * 2 ^ 19 + 256 * tile + 128 * slot.toNat + 64 * buf

/-! ## Scopes and volumes (05 R109, R110) -/

/-- Bits of a SCOPE: T, K, B, A from bit 3 down (05 R120). -/
def scT : BitVec 4 := 8
def scK : BitVec 4 := 4
def scB : BitVec 4 := 2
def scA : BitVec 4 := 1
def scAll : BitVec 4 := 15

/-- The lines of a list that lie in a location range, rising. -/
def linesIn (ls : List Nat) (a n : Nat) : List Nat := rising (ls.filter (fun l => decide (a ≤ l) && decide (l < a + n)))

/-- The banks that a tile's epoch covers: attached to it, or pending in a give of its own. -/
def Domain.banksOf (d : Domain) (t : Tile) : List Nat :=
  (List.range 16).filter (fun b => (List.range 8).any (fun w => t.bank? w == some b) ||
    d.attaches.any (fun a => a.giver == t.lt && a.bank == b))

/-- The lines of a list that a tile's scope covers, in journal order: slot, B store, banks (05 R119). Assumption 54. -/
def Domain.scopeIn (d : Domain) (t : Tile) (sc : BitVec 4) (ls : List Nat) : List Nat :=
  (if sc &&& (scT ||| scA) != 0 then linesIn ls (locAcc t.cluster t.idx t.slot 0) (2 ^ 17) else []) ++
  (if sc &&& scB != 0 then linesIn ls (locB t.cluster t.idx t.slot 0) (2 ^ 20) else []) ++
  (if sc &&& scK != 0 then (d.banksOf t).flatMap (fun b => linesIn ls (locBank t.cluster b 0) (2 ^ 19)) else [])

/-- The dirty lines in scope. -/
def scopeLines (s : State) (d : Domain) (t : Tile) (sc : BitVec 4) : List Nat :=
  d.scopeIn t sc (s.cluster t.cluster).dirty

/-- Bytes of an epoch of some lines, the control lines of scope T with them (05 R110). -/
def bytesOfLines (sc : BitVec 4) (ls : List Nat) : Nat := 272 * (ls.length + (if sc &&& scT != 0 then 68 else 0))

/-- The lines of a tile's scope that a PFENCE freezes: those that its columns have written and those that its records may
have, since a PFENCE last took them. What an engine has written yet, and when a park takes place, follow wall time, so that
these stand for the dirty lines (05 R109, R114; 00 R2, R3; assumption 89). -/
def fenceLines (s : State) (d : Domain) (t : Tile) (sc : BitVec 4) : List Nat :=
  d.scopeIn t sc (s.cluster t.cluster).counted

/-- Bytes of a tile's PFENCE epoch, of the lines that it freezes (05 R110), and of a domain-wide one over one cluster. -/
def volume (s : State) (d : Domain) (t : Tile) (sc : BitVec 4) : Nat := bytesOfLines sc (fenceLines s d t sc)

def clusterVolume (s : State) (d : Domain) (cl : Nat) (sc : BitVec 4) : Nat :=
  ((d.tiles.filter (fun t => t.cluster == cl)).map (fun t => volume s d t sc)).sum

/-- Bytes of a tile's sealing epoch, of the lines that are dirty now (05 R110, R129). -/
def sealVolume (s : State) (d : Domain) (t : Tile) : Nat := bytesOfLines scAll (scopeLines s d t scAll)

/-- The lines of banks, B stores and accumulators that a record writes (05 R109). -/
def Rec.lines (r : Rec) : List Nat :=
  (r.writes.filter (fun x => decide (region 3 ≤ x.1) && decide (x.1 < region 6))).flatMap (fun x => linesOf x.1 x.2)

/-- A record that executes, its lines not yet counted. -/
def Rec.toCount (r : Rec) : Bool := r.resolved.isSome && r.stage != .squashed && !r.counted && !r.dropped

/-- A record that a fault stopped is acknowledged: those of its lines that nothing wrote count no more. -/
def Rec.toDrop (r : Rec) : Bool := r.counted && r.told && r.fault.isSome && !r.dropped

/-- The lines of a cluster's records that may still write, or wrote all of theirs. -/
def Domain.linesHeld (d : Domain) (cl : Nat) : List Nat :=
  (d.tiles.filter (fun t => t.cluster == cl)).flatMap (fun t =>
    (t.recs.filter (fun r => r.counted && !r.dropped && !r.toDrop)).flatMap (fun r => r.lines))

/-- Take from the count the lines of stopped records that are clean and that no other record of the domain holds. -/
def State.dropRecords (s : State) (k : Nat) : State :=
  match s.dom? k with
  | none => s
  | some d =>
    if d.tiles.all (fun t => t.recs.all (fun r => !r.toDrop)) then s
    else (d.tiles.foldl (fun s t =>
        let ls := (t.recs.filter (fun r => r.toDrop)).flatMap (fun r => r.lines)
        let held := d.linesHeld t.cluster
        s.updCluster t.cluster (fun c => { c with
          counted := c.counted.filter (fun l => !ls.contains l || c.dirty.contains l || held.contains l) })) s).updDom k
      (fun d => { d with tiles := d.tiles.map (fun t => { t with
        recs := t.recs.map (fun r => if r.toDrop then { r with dropped := true } else r) }) })

/-- The lines of the records that have been pushed, and whose guards have resolved, count from the end of the tick on. -/
def State.countRecords (s : State) (k : Nat) : State :=
  match s.dom? k with
  | none => s
  | some d =>
    if d.tiles.all (fun t => t.recs.all (fun r => !r.toCount)) then s
    else (d.tiles.foldl (fun s t => s.updCluster t.cluster (fun c => { c with
        counted := withNew c.counted ((t.recs.filter (fun r => r.toCount)).flatMap (fun r => r.lines)) })) s).updDom k
      (fun d => { d with tiles := d.tiles.map (fun t => { t with
        recs := t.recs.map (fun r => if r.toCount then { r with counted := true } else r) }) })

/-- After a cut, the records not yet acknowledged may go on writing: they count again. -/
def Tile.recount (t : Tile) : Tile := { t with recs := t.recs.map (fun r => { r with counted := r.counted && r.told }) }

/-- The largest volume an epoch may have in a cluster (05 R114). -/
def volumeLimit : Nat := 4194304

/-- PDIRTY (05 R111). Assumption 89. -/
def pdirty (s : State) (d : Domain) (t : Tile) : W64 :=
  BitVec.ofNat 64 (clusterVolume s d t.cluster scAll * 2 ^ 32 + volume s d t scAll)

/-! ## PFENCE (05 R113-R115) -/

/-- PFENCE registers its cut, taken at the end of the tick. -/
def execPfence (k : BitVec 4) (a : Agent) (n : BitVec 4) (s : State) : Out :=
  onDom s (fun d t => s.updDom d.seq (fun e =>
    (e.updTile t.lt (fun t => { t with cuts := t.cuts ++ [⟨k, a == .domain, n, d.nextId⟩] })).addEv
      (newEv d t .sq .pfence)))

/-- The clusters of a domain. -/
def Domain.clusterList (d : Domain) : List Nat := (d.tiles.map (fun t => t.cluster)).eraseDups

/-- The control state of a tile as a slot image keeps it: of its loop buffers the tags alone (05 R108). -/
def Tile.tagsOnly (t : Tile) : Tile := { t with loader := t.loader.map (fun f => { f with stage := .asked }) }

/-- Start an epoch of one cluster over some of its tiles, with its scope, resume tick and semaphores: lines freeze and
turn clean, and the counts rise (05 R114). A PFENCE, which names a semaphore, freezes the lines of its volume and takes them
from the count; a park or a SEAL, whose moment is wall time, freezes the lines that are dirty and leaves the count
(assumption 89). -/
def State.freeze (s : State) (d : Domain) (cl : Nat) (tiles : List (Tile × Option (BitVec 4))) (sc : BitVec 4)
    (wide sealing : Bool) (halt cutTick : Nat) : State :=
  let sc := if sc &&& scT != 0 then sc ||| scA else sc
  let count (t : Tile) : Tile :=
    { t with epoch := t.epoch + 1, depoch := if wide then t.depoch + 1 else t.depoch, cuts := [] }
  let base := { d with tiles := d.tiles.map (fun t => if tiles.any (fun x => x.1.lt == t.lt) then count t else t) }
  let old := (s.cluster cl).counted
  let gone := tiles.flatMap (fun x => if x.2.isSome then d.scopeIn x.1 sc old else [])
  let counted := old.filter (fun l => !gone.contains l)
  let parts := tiles.map (fun x =>
    let t := count x.1
    let image : Image := ⟨t.idx, t.slot, t.tagsOnly, base, (s.cluster cl).tags, (s.cluster cl).slices,
      d.scopeIn t scAll counted⟩
    ({ tile := t.idx, slot := t.slot, lt := t.lt, ctrl := if sc &&& scT != 0 then some image else none,
       sem := x.2, cutTick := cutTick, lines := if x.2.isSome then fenceLines s d x.1 sc else scopeLines s d x.1 sc, epoch := t.epoch, depoch := t.depoch } : EpochPart))
  let lines := parts.flatMap (fun p => p.lines)
  let e : Epoch := ⟨d.seq, wide, sc, halt, parts, .waiting, sealing⟩
  (s.updCluster cl (fun c => { c with
    dirty := c.dirty.filter (fun l => !lines.contains l)
    counted := counted
    frozen := c.frozen ++ lines
    epochs := c.epochs ++ [e] })).updDom d.seq (fun x => { x with
      froze := x.froze ++ parts.map (fun p => (cutTick, p.lt, p.lines))
      tiles := x.tiles.map (fun t => if tiles.any (fun y => y.1.lt == t.lt) then
        { t with epoch := t.epoch + 1, depoch := if wide then t.depoch + 1 else t.depoch } else t) })

/-- A PFENCE's increment takes its place in signal order (05 R114, 06 R144). -/
def Domain.fenceSem (d : Domain) (lt tick : Nat) (c : Cut) : Domain :=
  d.semOp lt c.sem ⟨tick, lt, .pfence, .add 1, false, false, c.ev⟩

/-- The tile-agent cuts of a domain's tick, in tile order. -/
def State.takeTileCut (s : State) (k tick : Nat) (lt : Nat) (c : Cut) : State :=
  match s.dom? k with
  | none => s
  | some d =>
    match d.tile? lt with
    | none => s
    | some t =>
      let v := volume s d t c.scope
      if volumeLimit < v then s.updDom k (fun e => e.raise ⟨tick, lt, 0, cOverflow, v / 272⟩ 0)
      else
        let s1 := s.updDom k (fun e => e.fenceSem lt tick c)
        match (s1.dom? k).bind (fun d => (d.tile? lt).map (fun t => (d, t))) with
        | some (d1, t1) => s1.freeze d1 t.cluster [(t1, some c.sem)] c.scope false false (tick + 1) tick
        | none => s1

/-- The domain-wide cut of a tick: every tile must agree, and every cluster's part must fit (05 R114, R115). -/
def State.takeWideCut (s : State) (d : Domain) (tick : Nat) : State :=
  let cut (t : Tile) : Option Cut := t.cuts.find? (fun c => c.domain)
  match d.tiles.findSome? cut with
  | none => s
  | some c0 =>
    if !d.tiles.all (fun t => match cut t with
        | some c => c.scope == c0.scope
        | none => false) then s.updDom d.seq (fun e => e.raiseAll tick 0 cVote 0)
    else
      let vs := d.clusterList.map (fun cl => clusterVolume s d cl c0.scope)
      let v := vs.foldl max 0
      if volumeLimit < v then s.updDom d.seq (fun e => e.raiseAll tick 0 cOverflow (v / 272))
      else
        let s1 := s.updDom d.seq (fun e => d.tiles.foldl (fun e t => match cut t with
          | some c => e.fenceSem t.lt tick c
          | none => e) e)
        d.clusterList.foldl (fun s cl =>
          match s.dom? d.seq with
          | some e => s.freeze e cl ((e.tiles.filter (fun t => t.cluster == cl)).map (fun t =>
              (t, (cut t).map (fun c => c.sem)))) c0.scope true false (tick + 1) tick
          | none => s) s1

/-- Take the cuts of the tick that has ended (05 R114), whose records count. Assumption 53. -/
def State.takeCuts (s : State) (k tick : Nat) : State :=
  let s := (s.countRecords k).dropRecords k
  match s.dom? k with
  | none => s
  | some d =>
    if d.tiles.all (fun t => t.cuts.isEmpty) then s
    else
      let s1 := s.takeWideCut d tick
      let s2 := d.tiles.foldl (fun s t => (t.cuts.filter (fun c => !c.domain)).foldl (fun s c =>
        s.takeTileCut k tick t.lt c) s) s1
      (s2.updDom k (fun e => { e with tiles := e.tiles.map (fun t => { t.recount with cuts := [] }) })).countRecords k

/-! ## Line records (05 R119) -/

/-- A line's image code, index, slot bit and line number, from its location. -/
def lineName (cl l : Nat) : Nat × Nat × Nat × Nat :=
  if l < region 4 then (0, (l - locBank cl 0 0) / 2 ^ 19, 0, (l - locBank cl 0 0) % 2 ^ 19 / 256)
  else if l < region 5 then
    let o := l - locAcc cl 0 false 0
    (2, o / 2 ^ 18, o / 2 ^ 17 % 2, o % 2 ^ 17 / 256)
  else (1, (l - locB cl 0 false 0) / 2 ^ 21, 0, (l - locB cl 0 false 0) % 2 ^ 20 / 256)

/-- Line records begin with this word. -/
def lineHeader (seq : Nat) (nm : Nat × Nat × Nat × Nat) : Nat :=
  seq % 2 ^ 32 * 2 ^ 32 + nm.2.2.2 * 2 ^ 12 + nm.2.2.1 * 64 + nm.2.1 * 4 + nm.1

def lineRecord (seq : Nat) (nm : Nat × Nat × Nat × Nat) (payload : List Byte) : List Byte :=
  let h := toLE 8 (lineHeader seq nm)
  h ++ toLE 4 (crc32c (h ++ payload)).toNat ++ toLE 4 0 ++ payload

/-- Free bytes, from the counter. -/
def freeBytes (k n : Nat) : List Byte := (List.range n).map (fun i => Config.freeByte (k + i))

/-- Bytes padded with zeros, or cut, to n. -/
def sized (n : Nat) (l : List Byte) : List Byte := (l ++ List.replicate n 0).take n

/-- An area of a slot image for whose inside 05 R108 gives no layout: its bytes are a function of what it holds that the
manual does not give (assumption 9). -/
def areaBytes (area n : Nat) (content : List Nat) : List Byte :=
  (List.range n).map (fun i => Config.slotByte area content i)

def SemOp.content (o : SemOp) : List Nat :=
  [o.tick, o.lt, (match o.kind with
    | .record => 0
    | .give => 1
    | .semsig => 2
    | .pfence => 3
    | .csr => 4), (match o.act with
    | .add n => n.toNat
    | .set n => 2 ^ 16 + n.toNat
    | .or n => 2 ^ 17 + n.toNat
    | .clear n => 2 ^ 18 + n.toNat), o.arrived.toNat, o.applied.toNat]

def Win.content : Win → Nat
  | .empty => 0
  | .pend b => 16 + b
  | .att b => 32 + b

/-- 0x20100: target registers, predicate slots, return stack and spill count. -/
def Tile.controlArea (t : Tile) : List Nat :=
  t.targets.flatMap (fun x => [x.addr.toNat, x.ready, x.ret.toNat, x.loaded.toNat]) ++
    t.preds.flatMap (fun p => [p.value.toNat, p.written.toNat]) ++ t.stack.map (fun x => x.toNat) ++ [t.spills, t.refill]

/-- 0x21C00: CSR state. -/
def Tile.csrArea (d : Domain) (t : Tile) : List Nat :=
  [t.flags.toNat, t.trapen.toNat, t.rmdyn.toNat, t.laneflg.toNat] ++ t.sems.flatMap (fun l => l.flatMap SemOp.content) ++
    [field d.pkt 8 4, field d.pkt 12 4, d.holdcnt, t.confl.toNat] ++ t.rdv.map (fun x => x.toNat) ++
    t.wins.map Win.content ++ t.pace.map (fun x => x.toNat) ++ [t.epoch.toNat, t.depoch.toNat]

/-- 0x22000: engine queues, progress and guards. -/
def Tile.engineArea (t : Tile) : List Nat :=
  t.engines.flatMap (fun q => [q.entries.length, q.run.getD 0, q.lastDeq.getD 0] ++ q.entries.map (fun e => match e with
    | .record id => id
    | .marker n _ => 2 ^ 32 + n.toNat)) ++
  t.recs.flatMap (fun r => [r.id, r.tick, r.bits.toNat, r.lay1.toNat, r.lay2.toNat, r.progress, r.resolved.getD 0,
    r.flags.toNat])

/-- 0x23000: result latches and the attaches of the tile's gives. -/
def Tile.latchArea (d : Domain) (t : Tile) : List Nat :=
  t.flights.flatMap (fun f => [f.due, f.issue, colIdx f.col, f.ofs, f.val.toNat, f.cause, f.owed.toNat] ++
    f.lanes.map (fun x => x.toNat)) ++
  (d.attaches.filter (fun a => a.giver == t.lt)).flatMap (fun a => [a.due, a.target, a.win, a.bank])

/-- 0x24000: the block frame and the loop-buffer tags. -/
def Tile.blockArea (t : Tile) : List Nat :=
  [t.block.addr.toNat, t.btick, t.rep, (match t.decision with
    | none => 0
    | some c => 1 + c.taken.toNat), (match t.decision with
    | none => 0
    | some c => c.cont.toNat)] ++ t.loader.map (fun f => f.addr.toNat)

/-- The control lines of a slot image, 0x20000 to 0x243FF (05 R108). -/
def controlBytes (d : Domain) (t : Tile) : List Byte :=
  t.s.flatMap (fun x => toLE 8 x.toNat) ++ areaBytes 1 256 t.controlArea ++
    sized 512 (t.sqQ.flatMap (fun x => toLE 8 x.toNat)) ++ t.v.flatMap bytesOf ++ sized 2048 (t.vxQ.flatMap bytesOf) ++
    sized 1024 (t.xcQ.flatMap bytesOf) ++ sized 1024 (t.lsQ.flatMap bytesOf) ++ areaBytes 7 1024 (Tile.csrArea d t) ++
    areaBytes 8 4096 t.engineArea ++ areaBytes 9 4096 (Tile.latchArea d t) ++ areaBytes 10 1024 t.blockArea

/-- The line records of a tile's part, in journal order (05 R119). -/
def partRecords (s : State) (cl seq : Nat) (p : EpochPart) : List Byte :=
  let one (l : Nat) : List Byte := lineRecord seq (lineName cl l) (s.readBytes l 256)
  let slot := p.lines.filter (fun l => decide (region 4 ≤ l) && decide (l < region 5))
  let rest := p.lines.filter (fun l => !(decide (region 4 ≤ l) && decide (l < region 5)))
  let ctrl := match p.ctrl with
    | none => []
    | some i =>
      let bs := controlBytes i.base i.ctrl
      (List.range 68).flatMap (fun j =>
        lineRecord seq (2, p.tile, p.slot.toNat, 512 + j) ((bs.drop (256 * j)).take 256))
  slot.flatMap one ++ ctrl ++ rest.flatMap one

/-! ## Seal records (05 R120, R121) -/

def State.seal (s : State) (cl tile : Nat) (slot : Bool) (buf : Nat) : List Byte :=
  s.readBytes (locShadow (s.seatOf cl) (planeSeal tile slot buf)) 64

def sealValid (b : List Byte) : Bool := field b 56 4 == (crc32c (b.take 56)).toNat && field b 60 4 != 3

/-- The buffer that holds the latest valid seal of a slot. -/
def State.latestSeal (s : State) (cl tile : Nat) (slot : Bool) : Option Nat :=
  let a := s.seal cl tile slot 0
  let b := s.seal cl tile slot 1
  if sealValid a && (!sealValid b || decide (field b 0 8 ≤ field a 0 8)) then some 0
  else if sealValid b then some 1 else none

/-- The SEQ of the next seal of a slot. -/
def State.nextSealSeq (s : State) (cl tile : Nat) (slot : Bool) : Nat :=
  match s.latestSeal cl tile slot with
  | some i => field (s.seal cl tile slot i) 0 8 + 1
  | none => 1

def State.setSealState (s : State) (cl tile : Nat) (slot : Bool) (buf x : Nat) : State :=
  s.writeLE (locShadow (s.seatOf cl) (planeSeal tile slot buf) + 60) 4 x

def sealBytes (seq launch : Nat) (e : Epoch) (p : EpochPart) (jstart : Nat) (records : List Byte) : List Byte :=
  let head := toLE 8 seq ++ toLE 8 e.halt ++ toLE 4 p.epoch.toNat ++ toLE 4 p.depoch.toNat ++
    toLE 1 (if e.domain then 2 else 0) ++ toLE 1 e.scope.toNat ++ toLE 2 0 ++ toLE 4 jstart ++
    toLE 4 records.length ++ toLE 4 (crc32c records).toNat ++ toLE 8 launch ++ toLE 8 0
  head ++ toLE 4 (crc32c head).toNat ++ toLE 4 (if e.domain then 0 else 1)

/-- A flawed granule that n bytes are read from goes on as a mismatch of the granules that they are written to. -/
def flawsMoved (src dst n : Nat) (f : Nat × Bool) : List (Nat × Bool) :=
  let lo := dst + (max src (128 * f.1) - src)
  let hi := dst + (min (src + n) (128 * f.1 + 128) - src)
  (List.range ((hi - 1) / 128 + 1 - lo / 128)).map (fun i => (lo / 128 + i, false))

/-- Bytes read from `src` have been written to `dst`: their uncorrectable errors count, and a granule that failed its check
stays one that fails it, whose fault its consumer raises (18 R433-R435; assumption 120). -/
def State.moveFlaws (s : State) (src dst n : Nat) : State :=
  let new := (s.flawsIn [(src, n)]).flatMap (flawsMoved src dst n)
  if new.isEmpty then s
  else
    let s1 := s.countFlaws [(src, n)]
    { s1 with flawed := new ++ s1.flawed.filter (fun f => !new.any (fun g => g.1 == f.1)) }

/-- Copy n bytes, with the flaws that their granules have. -/
def State.copyOver (s : State) (src dst n : Nat) : State :=
  (s.writeBytes dst (s.readBytes src n)).moveFlaws src dst n

/-- The lines of a part in the order of its records; none for a control line. -/
def EpochPart.recordLines (p : EpochPart) : List (Option Nat) :=
  let inSlot (l : Nat) : Bool := decide (region 4 ≤ l) && decide (l < region 5)
  (p.lines.filter inSlot).map some ++ (if p.ctrl.isSome then List.replicate 68 none else []) ++
    (p.lines.filter (fun l => !inSlot l)).map some

/-- The flaws of the journaled lines, in the journal. -/
def State.journalFlaws (s : State) (cl : Nat) (p : EpochPart) (jstart : Nat) : State :=
  (p.recordLines.zipIdx).foldl (fun s x => match x.1 with
    | some l => s.moveFlaws l (locShadow cl (planeJournal + jstart + 272 * x.2 + 16)) 256
    | none => s) s

/-- Journal and seal one part: its records at an offset, then its seal in the buffer that holds no latest valid one. -/
def State.commitPart (s : State) (cl : Nat) (e : Epoch) (p : EpochPart) (jstart : Nat) (records : List Byte) : State :=
  let seq := s.nextSealSeq cl p.tile p.slot
  let buf := match s.latestSeal cl p.tile p.slot with
    | some 0 => 1
    | some _ => 0
    | none => 0
  ((s.writeBytes (locShadow cl (planeJournal + jstart)) records).writeBytes
    (locShadow (s.seatOf cl) (planeSeal p.tile p.slot buf)) (sealBytes seq (s.seqOf e.seq) e p jstart records)).updCluster (s.seatOf cl) (fun c => { c with
      cpseal := BitVec.ofNat 64 (p.tile * 2 ^ 32 + p.epoch.toNat) })

/-- Raise the PFENCE semaphores of an epoch that has become durable (05 R125). -/
def State.durable (s : State) (e : Epoch) : State :=
  e.parts.foldl (fun s p => match p.sem with
    | none => s
    | some n => s.updDom e.seq (fun d => d.updTile p.lt (fun t => { t with
        sems := upd t.sems n.toNat (fun l => l.map (fun o =>
          if o.kind = .pfence ∧ o.tick = p.cutTick ∧ o.lt = p.lt then { o with arrived := true } else o)) }))) s

/-- The stage of the epoch at the head of a cluster's queue. -/
def Cluster.headEpoch (c : Cluster) : Option Epoch := c.epochs.head?

def State.setHeadStage (s : State) (cl : Nat) (x : EpochStage) : State :=
  s.updCluster cl (fun c => { c with epochs := match c.epochs with
    | e :: r => { e with stage := x } :: r
    | [] => [] })

/-- EPOCH_JOURNAL: the head epoch's line records are written, its lines released, its seals committed; a tile's epoch is
then durable (05 R123-R125). -/
def execEpochJournal (s : State) : Out :=
  let cl := s.cur.cluster
  match (s.cluster cl).headEpoch with
  | none => .fault .noContext
  | some e =>
    let w := e.parts.foldl (fun (x : State × Nat) p =>
      let rs := partRecords x.1 cl (x.1.nextSealSeq cl p.tile p.slot) p
      ((x.1.commitPart cl e p x.2 rs).journalFlaws cl p x.2, x.2 + rs.length)) (s, 0)
    let lines := e.parts.flatMap (fun p => p.lines)
    let s1 := w.1.updCluster cl (fun c => { c with
      frozen := c.frozen.filter (fun l => !lines.contains l)
      journal := c.journal ++ e.parts.filterMap (fun p => p.ctrl) })
    .next (if e.domain then s1.setHeadStage cl .committed else (s1.setHeadStage cl .confirmed).durable e)

/-- A domain-wide epoch whose every cluster has committed the seals of one DEPOCH may be confirmed (05 R124). -/
def State.confirmable (s : State) (d : Domain) : Bool :=
  d.clusterList.all (fun cl => match (s.cluster cl).headEpoch with
    | some e => e.domain && e.seq == d.seq && e.stage == .committed &&
        e.parts.all (fun p => match d.tiles.head? with
          | some _ => d.clusterList.all (fun c2 => match (s.cluster c2).headEpoch with
              | some f => f.parts.all (fun q => q.depoch == p.depoch)
              | none => false)
          | none => false)
    | none => false)

/-- Write a STATE into the latest seals of an epoch's parts. -/
def State.markSeals (s : State) (cl : Nat) (e : Epoch) (x : Nat) : State :=
  e.parts.foldl (fun s p => match s.latestSeal cl p.tile p.slot with
    | some b => s.setSealState cl p.tile p.slot b x
    | none => s) s

/-- EPOCH_CONFIRM: STATE 1 in every cluster of the domain; the epoch is durable (05 R124, R125). -/
def execEpochConfirm (s : State) : Out :=
  match s.dom? s.cur.dom with
  | none => .fault .noContext
  | some d =>
    .next (d.clusterList.foldl (fun s cl => match (s.cluster cl).headEpoch with
      | some e => (((s.markSeals cl e 1).setHeadStage cl .confirmed).durable e)
      | none => s) s)

/-- Where a line record's payload goes (05 R119). -/
def State.homeOf (s : State) (cl h : Nat) : Nat :=
  let img := h % 4
  let index := h / 4 % 16
  let line := h / 2 ^ 12 % 2 ^ 20
  if img = 0 then locShadow cl (planeBank index + 256 * line)
  else if img = 1 then locShadow cl (planeB index + 256 * line)
  else locShadow (s.seatOf cl) (planeSlot index (h / 64 % 2 == 1) + 256 * line)

/-- Copy line records of the journal into the home images (05 R124, R131). -/
def State.replay (s : State) (cl : Nat) : Nat → Nat → State
  | 0, _ => s
  | n + 1, j =>
    let at_ := locShadow cl (planeJournal + j)
    State.replay (s.copyOver (at_ + 16) (s.homeOf cl (s.readLE at_ 8)) 256) cl n (j + 272)

/-- The control images of the journal become those of their slots. -/
def Cluster.takeImages (c : Cluster) (is : List Image) : Cluster :=
  { c with images := is ++ c.images.filter (fun i => !is.any (fun j => j.tile == i.tile && j.slot == i.slot)) }

/-- The module clusters that a domain runs on: its own, and the hosts of those fused off (02 R49). -/
def State.runsOn (s : State) (d : Domain) : List Nat := d.clusterList ++ d.clusterList.filterMap s.hostOf

/-- A domain, not yet ended, runs on a cluster. -/
def State.onCluster (s : State) (d : Domain) (cl : Nat) : Bool := !d.phase.over && (s.runsOn d).contains cl

/-- Some sealing epoch of a domain is not yet applied. -/
def State.sealPending (s : State) (seq : Nat) : Bool :=
  s.clusters.any (fun c => c.2.epochs.any (fun e => e.sealing && e.seq == seq))

/-- SEALED rises on the clusters whose SEAL has every epoch applied (05 R129, 11 R288). -/
def State.raiseSealed (s : State) : State :=
  { s with clusters := s.clusters.map (fun c =>
      if c.2.sealReq && !s.domains.any (fun d => s.onCluster d c.1 && s.sealPending d.seq)
      then (c.1, { c.2 with sealReq := false, sealed := c.2.qack }) else c) }

/-- No epoch of the domain waits in any cluster. -/
def State.drained (s : State) (d : Domain) : Bool :=
  d.clusterList.all (fun c => !(s.cluster c).epochs.any (fun e => e.seq == d.seq))

/-- Domains whose task-end event is applied and whose epochs are all applied leave; their banks return to the pool, to be
cleared (05 R118, R125, 04 R86, 14 R373). -/
def State.releaseFreed (s : State) : State :=
  let gone := s.domains.filter (fun d => d.phase == .freed && s.drained d)
  let s1 := gone.foldl (fun s d => d.clusterList.foldl (fun s c =>
    (d.heldBanks c).foldl (fun s b => s.setBank c b .clearing) s) s) s
  { s1 with domains := s1.domains.filter (fun d => !gone.any (fun g => g.seq == d.seq)) }

/-- EPOCH_APPLY_DONE: the line records are in the homes and the seals read 2; the next epoch may start (05 R123, R124). -/
def execEpochApplyDone (s : State) : Out :=
  let cl := s.cur.cluster
  match (s.cluster cl).headEpoch with
  | none => .fault .noContext
  | some e =>
    let n := (e.parts.map (fun p => p.lines.length + (if p.ctrl.isSome then 68 else 0))).sum
    let s1 := (s.replay cl n 0).markSeals cl e 2
    .next (s1.updCluster cl (fun c =>
      { (c.takeImages (e.parts.filterMap (fun p => p.ctrl))) with epochs := c.epochs.tail, journal := [] })).raiseSealed.releaseFreed

/-! ## Parks and SEAL -/

/-- A park's epoch: scope T, agent TILE, resume tick the halt tick (05 R122, R130). Assumption 55. -/
def State.park (s : State) (seq lt : Nat) : State :=
  match s.dom? seq with
  | none => s
  | some d => match d.tile? lt with
    | none => s
    | some t => s.freeze d t.cluster [(t, none)] scT false false d.dtick d.dtick

/-- Every tile of the domain holds its context: its slot is the active one. -/
def State.contextsHeld (s : State) (d : Domain) : Bool :=
  d.tiles.all (fun t => s.activeSlot t.cluster t.idx == t.slot)

/-- The domain's contexts are parked: by a quantum end, or by a SLOT (14 R375, 11 R289). -/
def State.parkedOut (s : State) (d : Domain) : Bool := d.parked || !s.contextsHeld d

/-- The tiles of a domain on a cluster: its own, and the partner's that it hosts (02 R49). -/
def State.tilesOn (s : State) (d : Domain) (cl : Nat) : List Tile :=
  d.tiles.filter (fun t => t.cluster == cl || s.seatOf t.cluster == cl)

/-- The epochs of a SEAL: for each domain active on the cluster a domain-wide one over all of its clusters, and for each
parked context one of its own (05 R129, 11 R288). -/
def State.sealDomain (s : State) (cl : Nat) (d : Domain) : State :=
  if s.parkedOut d then
    (s.tilesOn d cl).foldl (fun s t =>
      match s.dom? d.seq with
      | some e => s.freeze e t.cluster (((e.tile? t.lt).map (fun t => (t, none))).toList) scAll false true d.dtick d.dtick
      | none => s) s
  else d.clusterList.foldl (fun s c =>
    match s.dom? d.seq with
    | some e => s.freeze e c ((e.tiles.filter (fun t => t.cluster == c)).map (fun t => (t, none))) scAll true true
        d.dtick d.dtick
    | none => s) s

end Sys2Proof.Machine
end

