-- ==== Sys2Proof/Machine/Trap.lean ====
section
/-!
DEFINITION. The halt, the frame and its latches, and the ends of a task (15 R379-R391, 14 R368): DOMAIN_HALT, the
requests, the frame's reads and writes, completion records, and RTE.
-/

namespace Sys2Proof.Machine

/-! ## The primary cause (15 R382) -/

/-- A list of keys comes first. -/
def lexLess : List Nat → List Nat → Bool
  | a :: as, b :: bs => decide (a < b) || (a == b && lexLess as bs)
  | _, _ => false

def Cause.rank (c : Cause) : Nat := if fatalCode c.code then 0 else if requestCode c.code then 2 else 1

def Cause.keys (c : Cause) : List Nat := [c.det, c.rank, c.lt, c.src, c.code]

/-- The first cause by the keys among those that satisfy p. -/
def firstCause (p : Cause → Bool) (l : List Cause) : Option Cause :=
  (l.filter p).foldl (fun m c => match m with
    | some x => if lexLess c.keys x.keys then some c else some x
    | none => some c) none

/-- The primary cause: the first of those detected up to the halt, fixed there (15 R382). -/
def Domain.primary (d : Domain) : Option Cause :=
  match d.chief with
  | some c => some c
  | none => firstCause (fun c => decide (c.det ≤ d.dtick)) d.causes

/-- The secondary causes of a tile; requests are raised by no tile (15 R382). -/
def Domain.secondary (d : Domain) (lt : Nat) : List Cause :=
  (match d.primary with
    | some p => d.causes.erase p
    | none => d.causes).filter (fun c => c.lt == lt && !requestCode c.code)

/-! ## Latches (15 R383, R387) -/

/-- One latch of a halted tile: its key, its header fields, and the issue tick of its flight, if it holds a result. -/
structure LatchView where
  rem : Nat
  owed : Bool
  dest : Nat
  reg : Nat
  nw : Nat
  cause : Nat
  col : Nat
  ofs : Nat
  issue : Nat
  /-- Index in the flights of the tile. -/
  flight : Option Nat
  data : List W64
  deriving DecidableEq, Repr

/-- DEST, REG and NW of a result (15 R387). -/
def destView : Dest → Nat × Nat × Nat
  | .sq (some n) => (0, n.toNat, 1)
  | .sq none => (0, 63, 1)
  | .sreg n => (0, n.toNat, 1)
  | .vx (some n) => (1, n.toNat, 16)
  | .vx none => (1, 63, 16)
  | .vreg n => (1, n.toNat, 16)
  | .xc => (2, 63, 16)
  | .ls => (3, 63, 16)
  | .slot p _ => (4, p.toNat, 1)
  | .clear _ => (4, 63, 1)

def Flight.words (f : Flight) : List W64 :=
  match destView f.dest with
  | (_, _, 1) => [f.val]
  | _ => (List.range 16).map (fun i => (f.lanes.getD (2 * i + 1) 0) ++ (f.lanes.getD (2 * i) 0))

def flightView (h : Nat) (i : Nat) (f : Flight) : LatchView :=
  let v := destView f.dest
  ⟨f.due - h, f.owed, v.1, v.2.1, v.2.2, f.cause, colIdx f.col, f.ofs, f.issue, some i, f.words⟩

/-- Latches in ascending REM, then source order, then issue order (15 R386). -/
def latchLe (a b : LatchView) : Bool := !lexLess [b.rem, b.col, b.issue] [a.rem, a.col, a.issue]

/-- The latches of a tile of a halted domain: results still to be written, its votes, its LEAP.D comparison, and the
attaches of its gives. -/
def Domain.latches (d : Domain) (t : Tile) : List LatchView :=
  let h := d.dtick
  let results := (t.flights.zipIdx).map (fun x => flightView h x.2 x.1)
  let votes := (d.ballots.filter (fun b => b.lt == t.lt)).map (fun b =>
    (⟨b.tick + d.voteLat - h, false, if b.op.isPred then 4 else 0, if b.op.isPred then b.slot.toNat else 63, 1, 0, 0,
      b.ofs, b.tick, none, [0]⟩ : LatchView))
  let checks := (d.choices.filter (fun c => c.lt == t.lt)).map (fun c =>
    (⟨c.tick + d.voteLat - h, false, 6, 63, 1, 0, 0, c.ofs, c.tick, none, [c.cont]⟩ : LatchView))
  let gives := (d.attaches.filter (fun a => a.giver == t.lt)).map (fun a =>
    (⟨a.due - h, false, 5, 63, 1, 0, 0, a.ofs, a.due - 32, none, [0]⟩ : LatchView))
  sortBy latchLe (results ++ votes ++ checks ++ gives)

def latchHeader (x : LatchView) : W64 :=
  BitVec.ofNat 64 (x.rem % 2 ^ 16 * 2 ^ 48 + x.owed.toNat * 2 ^ 47 + x.dest * 2 ^ 44 + x.reg * 2 ^ 38 + x.nw * 2 ^ 32 +
    x.cause * 2 ^ 24 + x.col * 2 ^ 16 + x.ofs % 2 ^ 16)

/-- Every in-flight load of a tile has delivered or is owed (15 R384). -/
def Tile.latchesReady (t : Tile) : Bool := t.flights.all (fun f => f.gop.isNone)

/-! ## The frame (15 R386) -/

/-- The halted domain and tile that SVSEL of a die names. -/
def State.frameOf (s : State) (die : Nat) : Option (Domain × Tile) :=
  let p := (s.die die).svsel.toNat
  match s.contextOn (p / 4) (p % 4) (s.activeSlot (p / 4) (p % 4)) with
  | some (d, t) => if d.phase == .halted then some (d, t) else none
  | none => none

def fcauseOf (d : Domain) : W64 :=
  match d.primary with
  | none => 0
  | some c => BitVec.ofNat 64 (d.fatal.toNat * 2 ^ 63 + (d.causes.any (fun c => requestCode c.code)).toNat * 2 ^ 62 +
      (if requestCode c.code then 0 else c.lt) * 2 ^ 52 + c.src * 2 ^ 48 + c.code * 2 ^ 40 + c.detail % 2 ^ 16 * 2 ^ 24)

def fsecOf (d : Domain) (t : Tile) : W64 :=
  let l := d.secondary t.lt
  BitVec.ofNat 64 (min 65535 l.length * 2 ^ 48) ||| l.foldl (fun m c => m ||| (1 <<< c.code)) 0

def fnlatOf (d : Domain) (t : Tile) : W64 :=
  let l := d.latches t
  BitVec.ofNat 64 (t.latchesReady.toNat * 2 ^ 63 + (l.filter (fun x => x.owed)).length * 2 ^ 16 + l.length)

def btickOf (t : Tile) : W64 := BitVec.ofNat 64 (t.rep * 2 ^ 16 + t.btick)

/-- A block's length and repetitions. -/
def Block.len (b : Block) : Nat := (b.hdr.extractLsb' 0 16).toNat + 1
def Block.rpt (b : Block) : Nat := (b.hdr.extractLsb' 16 8).toNat + 1

/-- The continuation of a tile whose repetition ends, and its repetition index (09 R204). -/
def Tile.continuation (t : Tile) : W64 × Nat :=
  match t.decision with
  | some c => if c.taken then (c.cont, 0)
    else if t.rep + 1 < t.block.rpt then (t.block.addr, t.rep + 1) else (t.block.after, 0)
  | none => if t.rep + 1 < t.block.rpt then (t.block.addr, t.rep + 1) else (t.block.after, 0)

/-- The tile's block has ended. A failed block does not end: RTE resumes the tile in it (09 R209). -/
def Tile.atBoundary (t : Tile) : Bool := t.haltTick.isNone && !t.badBlock && t.btick == t.block.len

/-- Where a halted tile stands: a tile held at a boundary stands at the start of its continuation, whose first tick is the
halt tick (09 R204, 15 R386). Assumption 96. -/
def Tile.standing (t : Tile) : W64 × W64 :=
  if t.atBoundary then (t.continuation.1, BitVec.ofNat 64 (t.continuation.2 * 2 ^ 16)) else (t.block.addr, btickOf t)

/-- The latch that LATSEL selects. -/
def Domain.selectedLatch (d : Domain) (t : Tile) : Option LatchView := (d.latches t)[(t.latsel.extractLsb' 0 16).toNat]?

/-- A frame CSR, 0x050 to 0x05D, of a halted tile. -/
def frameRead (d : Domain) (t : Tile) (n : Nat) : W64 :=
  match n with
  | 0x50 => fcauseOf d
  | 0x51 => fsecOf d t
  | 0x52 => BitVec.ofNat 64 d.dtick
  | 0x53 => (match d.primary with
    | some c => BitVec.ofNat 64 c.det
    | none => 0)
  | 0x54 => t.standing.1
  | 0x55 => t.standing.2
  | 0x56 => t.flags.setWidth 64
  | 0x57 => t.laneflg
  | 0x58 => t.faddr
  | 0x59 => fnlatOf d t
  | 0x5A => t.latsel
  | 0x5B => (match d.selectedLatch t with
    | some x => latchHeader x
    | none => 0)
  | 0x5C => (match d.selectedLatch t with
    | some x => x.data.getD (t.latsel.extractLsb' 16 5).toNat 0
    | none => 0)
  | _ => 0

/-- Change the flight of the latch that SVSEL and LATSEL of a die select, when the latch is owed. -/
def State.onOwedLatch (s : State) (die : Nat) (f : W64 → Flight → Flight) : State :=
  match s.frameOf die with
  | none => s
  | some (d, t) => match d.selectedLatch t with
    | none => s
    | some x => match x.flight with
      | none => s
      | some i => if x.owed then s.updTile d.seq t.lt (fun t => { t with flights := upd t.flights i (f t.latsel) })
        else s

/-- A result with data word w replaced. -/
def Flight.setWord (f : Flight) (w : Nat) (x : W64) : Flight :=
  match destView f.dest with
  | (_, _, 1) => if w = 0 then { f with val := x } else f
  | _ => if w < 16 then { f with
      lanes := upd (upd f.lanes (2 * w) (fun _ => x.setWidth 32)) (2 * w + 1) (fun _ => (x >>> 32).setWidth 32) } else f

/-- LATDATA_WRITE (15 R386). -/
def execLatdataWrite (die : Nat) (value : BitVec 64) (s : State) : Out :=
  .next (s.onOwedLatch die (fun sel f => f.setWord (sel.extractLsb' 16 5).toNat value))

/-- LATHDR_OWED_CLEAR (15 R387). -/
def execLathdrOwedClear (die : Nat) (s : State) : Out :=
  .next (s.onOwedLatch die (fun _ f => { f with owed := false }))

/-- FEND: the halted task is to end as fatal with its primary cause (15 R386). -/
def execFend (die : Nat) (s : State) : Out :=
  .next (match s.frameOf die with
    | some (d, _) => s.updDom d.seq (fun e => { e with
        fatal := true
        endCode := match e.endCode, d.primary with
          | some c, _ => some c
          | none, some p => some p.code
          | none, none => some 0 })
    | none => s)

/-! ## Requests (15 R390) -/

/-- Latch a halt request of a domain at its present tick. -/
def Domain.request (d : Domain) (code : Nat) : Domain :=
  if d.phase == .running then d.raise ⟨d.dtick, 0, 8, code, 0⟩ 0 else d

/-- PREEMPTION_REQUEST for a launch. -/
def execPreemptionRequest (launch : Nat) (s : State) : Out := .next (s.updDom launch (fun d => d.request cPreempt))

/-! ## The halt (15 R379, R383, R388) -/

/-- The physical tile of a tile, for SVSEL: 4 times its cluster plus its index (11 R287). Assumption 52. -/
def Tile.ptile (t : Tile) : Nat := 4 * t.cluster + t.idx

/-- The notice of a halt for one die. -/
def haltNotice (d : Domain) (die : Nat) : Option W64 :=
  (d.tiles.find? (fun t => dieOf t.cluster == die)).map (fun t =>
    BitVec.ofNat 64 (2 ^ 63 + d.fatal.toNat * 2 ^ 62 +
      (match d.primary with
        | some c => c.code
        | none => 0) * 2 ^ 40 + t.ptile % 1024))

def State.postNotices (s : State) (d : Domain) : State :=
  { s with dies := (s.dies.zipIdx).map (fun x => match haltNotice d x.2 with
      | some n => { x.1 with svhalt := x.1.svhalt ++ [n] }
      | none => x.1) }

/-- Faults of owed loads that were still to be raised count as secondary causes of this halt (15 R384). -/
def Domain.foldOwed (d : Domain) : Domain :=
  let owed (x : Deferred) : Bool := d.tiles.any (fun t => t.lt == x.lt && t.flights.any (fun f =>
    f.owed && f.due == x.tick && f.cause == x.cause))
  (d.deferred.filter owed).foldl (fun d x => d.addCause ⟨x.tick, x.lt, x.src, x.cause, x.detail⟩ x.addr)
    { d with deferred := d.deferred.filter (fun x => !owed x) }

/-- A parked pre-emption leaves the tiles to the other slots: a park for each tile, and the slots change (14 R375,
05 R130). -/
def State.parkDomain (s : State) (d : Domain) : State :=
  d.tiles.foldl (fun s t => (s.park d.seq t.lt).updCluster t.cluster (fun c => { c with
    activeB := upd c.activeB t.idx (fun _ => !t.slot) })) s

/-- The domain halts at its present tick: the frame stands, its primary cause fixed; a quantum's park stands when requests
alone caused the halt. -/
def Domain.halt (d : Domain) : Domain :=
  let d1 : Domain := { d with
    phase := .halted, hold := none, released := false, resume := false, chief := d.primary
    parked := d.parked && d.causes.all (fun c => requestCode c.code) }
  d1.foldOwed

/-- Read and remove the oldest notice. -/
def State.popNotice (s : State) (die : Nat) : W64 × State :=
  ((s.die die).svhalt.headD 0, s.updDie die (fun q => { q with svhalt := q.svhalt.tail }))

/-- SVHALT_READ (15 R388). -/
def execSvhaltRead (die : Nat) (s : State) : Out :=
  let r := s.popNotice die
  .next { r.2 with answers := r.2.answers ++ [.data (toLE 8 r.1.toNat)] }

/-! ## Global accesses of the distributor (14 R366, R368; 18 R432) -/

/-- Write bytes by the page tables of a partition under a master, piece by piece, leaving A and M alone (03 R71); a piece with
no translation, on a discarded page, that no link carries to the host, or that would merge with a granule failing its check
is lost (18 R423, R433). Assumption 59. -/
def State.writeGlobal (s : State) (part master : Nat) : Nat → W64 → List Byte → State
  | 0, _, _ => s
  | fuel + 1, va, bs =>
    if bs.isEmpty then s
    else
      let n := min bs.length (4096 - lowAddr va % 4096)
      let s1 := match resolve s part master .report true va with
        | .ok p =>
          if p.discarded then s.countWrite part
          else if s.cutOff p.loc then s
          else if !s.mergeSound (p.loc, n) then s.countFlaws [(p.loc, n)]
          else s.writeBytes p.loc (bs.take n)
        | .error w => s.countWalk va w
      s1.writeGlobal part master fuel (va + BitVec.ofNat 64 n) (bs.drop n)

/-- Read bytes in the same way, discarded pages as `mode` has them: with what the read leaves, its bytes; none when some byte
has no translation, cannot be reached, or fails its check (18 R423, R434). -/
def State.readGlobal (s : State) (mode : WalkMode) (part master : Nat) : Nat → W64 → Nat → State × Option (List Byte)
  | 0, _, _ => (s, none)
  | fuel + 1, va, len =>
    if len = 0 then (s, some [])
    else
      let n := min len (4096 - lowAddr va % 4096)
      match resolve s part master mode false va with
      | .error w => (s.countWalk va w, none)
      | .ok p =>
        if s.cutOff p.loc then (s, none)
        else if !p.discarded && !s.sound [(p.loc, n)] then (s.countFlaws [(p.loc, n)], none)
        else
          let bs := if p.discarded then List.replicate n (0 : Byte) else s.readBytes p.loc n
          let r := (if p.discarded then s.countRead part else s).readGlobal mode part master fuel
            (va + BitVec.ofNat 64 n) (len - n)
          (r.1, r.2.map (fun l => bs ++ l))

/-- The distributor's master on a die. -/
def distributor (die : Nat) : Nat := 0x101 + 16 * die

/-! ## Completion records (14 R368, 08 R199) -/

def completionBytes (pkt : List Byte) (seq status code tick hold : Nat) (digest : List Byte) : List Byte :=
  (pkt.drop 72).take 8 ++ toLE 8 seq ++ toLE 1 status ++ toLE 1 code ++ toLE 2 0 ++ toLE 4 tick ++ toLE 8 hold ++
    (digest ++ List.replicate 32 0).take 32

def State.writeCompletion (s : State) (pkt : List Byte) (part die seq status code tick hold : Nat)
    (digest : List Byte) : State :=
  s.writeGlobal part (distributor die) 2 (BitVec.ofNat 64 (field pkt 64 8))
    (completionBytes pkt (s.seqOf seq) status code tick hold digest)

/-- The output ranges of a descriptor, base and length (14 R366). -/
def descOutputs (desc : List Byte) : List (Nat × Nat) :=
  (List.range (field desc 6 2)).map (fun i =>
    let o := 64 + 16 * field desc 4 2 + 16 * i
    (field desc o 8, field desc (o + 8) 8))

/-- The bytes of the outputs, in ascending base address, read as the task's own accesses are (03 R83, R84), and what the
reads leave. DESIGN CHOICE: a range with a byte that has no translation at retirement, or that fails its check, is left out
of the digest as a whole: 08 R199 does not say what stands for it (assumption 101). -/
def State.outputBytes (s : State) (mode : WalkMode) (part die : Nat) (outs : List (Nat × Nat)) : State × List Byte :=
  (sortBy (fun a b => decide (a.1 ≤ b.1)) outs).foldl (fun x o =>
    let r := x.1.readGlobal mode part (distributor die) (pieces o.2) (BitVec.ofNat 64 o.1) o.2
    (r.1, x.2 ++ r.2.getD [])) (s, [])

/-- The die of a domain's logical tile 0. Assumption 58. -/
def Domain.homeDie (d : Domain) : Nat :=
  match d.tiles with
  | t :: _ => dieOf t.cluster
  | [] => 0

/-- The handle of a task that waits in a queue. -/
def Task.handle (k : Task) : Nat := field k.pkt 6 2

/-- A packet is refused: its record is written (14 R367, R368). -/
def State.refuse (s : State) (pkt : List Byte) (part seq code : Nat) : State :=
  s.writeCompletion pkt part 0 seq 2 code 0 0 []

/-- Waiting launches that name a handle are refused with code 7. Assumption 64. -/
def State.refuseWaiting (s : State) (handle : Nat) : State :=
  let waits (k : Task) : Bool := field k.pkt 3 1 == 0 && k.handle == handle
  let s1 := (s.queues.filter waits).foldl (fun s k => s.refuse k.pkt k.part k.seq 7) s
  { s1 with
    queues := s1.queues.filter (fun k => !waits k)
    selected := (match s1.selected with
      | some q => if s.queues.any (fun k => k.seq == q && waits k) then none else some q
      | none => none) }

/-- The task that ends leaves its lease: the last user of an ENDING handle empties it, and launches that wait for it are
refused (03 R75). -/
def State.leaveLease (s : State) (d : Domain) : State :=
  let last := !s.domains.any (fun e => e.seq != d.seq && !e.phase.over && !e.relaxed && e.handle == d.handle)
  if !d.relaxed && last && s.leases.any (fun l => l.handle == d.handle && l.state == .ending) then
    ({ s with leases := s.leases.filter (fun l => l.handle != d.handle) }).refuseWaiting d.handle
  else s

/-- A supervisor launch that ends gives its tile back to the firmware (14 R377). -/
def State.freeFirmware (s : State) (d : Domain) : State :=
  if d.sup then s.updDie d.homeDie (fun q => { q with fwParked := false }) else s

/-- The module cluster of a domain's lowest logical tile. -/
def Domain.homeCluster (d : Domain) : Nat :=
  match d.tiles with
  | t :: _ => t.cluster
  | [] => 0

/-- End a task: its record is written, then its task-end event goes to the launch port (14 R364, R368). -/
def State.endTask (s : State) (d : Domain) (status code tick : Nat) (digest : List Byte) : State :=
  let s1 := s.writeCompletion d.pkt d.part d.homeDie d.seq status code tick d.holdcnt digest
  let s2 := s1.updDom d.seq (fun e => { e with phase := .ended, haltAt := none, hold := none })
  let s3 := (s2.leaveLease d).freeFirmware d
  { s3 with arrivals := s3.arrivals ++ [.taskEnd d.homeCluster d.seq] }

/-- The first fatal cause by the keys, or the code that FEND or a restore fault gave (15 R382, R386). -/
def Domain.fatalCodeOf (d : Domain) : Nat :=
  match d.endCode with
  | some c => c
  | none => match firstCause (fun c => fatalCode c.code) d.causes with
    | some c => c.code
    | none => 0

/-- FATAL_TASK_END: STATUS 1, the halt tick, no digest (15 R389, 14 R368). -/
def execFatalTaskEnd (s : State) : Out :=
  match s.dom? s.cur.dom with
  | none => .fault .noContext
  | some d => .next (s.endTask d 1 d.fatalCodeOf d.dtick [])

/-- The tick of the last HALT. -/
def Domain.lastHalt (d : Domain) : Nat := (d.tiles.map (fun t => t.haltTick.getD 0)).foldl max 0

/-- Faults of records that no acknowledgement has raised enter at retirement (13 R345, 08 R189). Assumption 62. -/
def Domain.tellAll (d : Domain) : Domain :=
  d.tiles.foldl (fun d t => t.recs.foldl (fun d r =>
    if r.stage == .complete && !r.told then d.ackRec t.lt r d.lastHalt else d) d) d

/-- TASK_RETIRE: records' flags and faults enter; a fault replaces the retirement; else the digest and the record are
written and the task ends (09 R225, 08 R199). -/
def execTaskRetire (s : State) : Out :=
  match s.dom? s.cur.dom with
  | none => .fault .noContext
  | some d =>
    let d1 := d.tellAll
    if d1.causes.length != d.causes.length then .next (s.updDom d.seq (fun _ => d1))
    else
      let out := (s.updDom d.seq (fun _ => d1)).outputBytes (if d1.relaxed then .report else .lease) d1.part d1.homeDie
        (descOutputs d1.desc)
      .next (out.1.endTask d1 0 0 d1.lastHalt (sha256 out.2))

end Sys2Proof.Machine
end

