-- ==== Sys2Proof/Machine/Blocks.lean ====
section
/-!
DEFINITION. Blocks: their bytes (10 R227-R232), the issue ticks of their words (10 R228), the ten checks of block
validation (09 R206-R208), and entering a block (09 R203, R204).
-/

namespace Sys2Proof.Machine

/-! ## Fetching a block (09 R205, 03 R76, R81, R82) -/

/-- The failure of a fetch from a page with X = 0: cause 11, and the leaf that the walk read (03 R80, R82). -/
def noExec (s : State) (p : Place) : Walk :=
  match p.leafLoc with
  | some l =>
    let e : W64 := BitVec.ofNat 64 (s.readLE l 8)
    .bad 11 (leafLevel (leafSz e)) e (l % 2 ^ 37)
  | none => .bad 11 0 0 0

/-- Bytes of code: in the lease, translated, in pages with X = 1; zeros from a discarded page in relaxed mode (03 R84). DESIGN
CHOICE: there a discarded page with X = 0 refuses the fetch with cause 11 (03 R82), though R84 would read zeros from it and
write no record: the two rules do not say which goes before (assumption 121).
The failure: a walk's cause of 03 R80, 0 outside the lease, 255 for an address that breaks 02 R56, 254 for bytes that fail
their check (18 R433); and the address. -/
def fetchBytes (s : State) (d : Domain) (t : Tile) : Nat → W64 → Nat → Except (Walk × W64) (List Byte)
  | 0, va, _ => .error (.bad 0 0 0 0, va)
  | fuel + 1, va, len =>
    if len = 0 then .ok []
    else
      let n := min len (4096 - lowAddr va % 4096)
      if !addrOk va then .error (.bad 255 0 0 0, va)
      else if !leaseOk s d false va n then .error (.bad 0 0 0 0, va)
      else match resolveFor s d t false va with
        | .error w => .error (w, va)
        | .ok p =>
          if !p.x then .error (noExec s p, va)
          else if !p.discarded && !s.sound [(p.loc, n)] then .error (.bad 254 0 0 0, va + BitVec.ofNat 64 (s.firstFlaw p.loc n))
          else match fetchBytes s d t fuel (va + BitVec.ofNat 64 n) (len - n) with
            | .ok r => .ok ((if p.discarded then List.replicate n 0 else s.readBytes p.loc n) ++ r)
            | .error e => .error e

/-- The pages of a fetch are translated, marked as used and installed, and reads of discarded ones are counted (03 R71,
R84). -/
def touchCode (d : Domain) (t : Tile) : Nat → W64 → Nat → State → State
  | 0, _, _, s => s
  | fuel + 1, va, len, s =>
    if len = 0 then s
    else
      let n := min len (4096 - lowAddr va % 4096)
      let s1 := match resolveFor s d t false va with
        | .ok p => if p.discarded then (s.useRead d va).countRead d.part else s.useRead d va
        | .error _ => s
      touchCode d t fuel (va + BitVec.ofNat 64 n) (len - n) s1

/-- The code that a failed fetch raises: address, data integrity, or the walk or lease. -/
def fetchCode (d : Domain) (cause : Nat) : Nat :=
  if cause = 255 then cAddress else if cause = 254 then cIntegrity else if d.relaxed then cTranslation else cLease

/-- A failed fetch is a failed walk, which relaxed mode records (03 R81). -/
def fetchRecorded (d : Domain) (cause : Nat) : Bool := d.relaxed && decide (cause < 254)

def Walk.code : Walk → Nat
  | .bad c _ _ _ => c
  | .ok .. => 0

/-- The halfwords of a byte list. -/
def halvesOf : List Byte → List Half
  | b0 :: b1 :: r => BitVec.ofNat 16 (fromLE [b0, b1]) :: halvesOf r
  | _ => []

/-- The streams of the columns from c on: the lists, and the address after them. -/
def fetchStreams (s : State) (d : Domain) (t : Tile) (hdr : W64) : Nat → Nat → W64 →
    Except (Walk × W64) (List (List Half) × W64)
  | 0, _, va => .ok ([], va)
  | fuel + 1, c, va =>
    if !hdr.getLsbD (24 + c) then
      match fetchStreams s d t hdr fuel (c + 1) va with
      | .ok (l, a) => .ok ([] :: l, a)
      | .error e => .error e
    else match fetchBytes s d t 3 va 2 with
      | .error e => .error e
      | .ok lb =>
        let n := fromLE lb
        match fetchBytes s d t (pieces (2 * n) + 1) (va + 2) (2 * n) with
        | .error e => .error e
        | .ok bs =>
          match fetchStreams s d t hdr fuel (c + 1) (va + 2 + BitVec.ofNat 64 (2 * n)) with
          | .ok (l, a) => .ok (halvesOf bs :: l, a)
          | .error e => .error e

/-- Bits of a header that must be zero are zero and its MAGIC is right (09 R206, check 1). -/
def headerOk (va hdr : W64) : Bool :=
  va.toNat % 8 == 0 && hdr.extractLsb' 48 16 == 0xB10C && hdr.extractLsb' 34 14 == 0 && hdr.extractLsb' 28 4 == 0 &&
    (!hdr.getLsbD 33 || hdr.getLsbD 32)

/-- The block at an address. A header that is no header has no streams; padding must be zero (10 R232). DESIGN CHOICE: either
failure reports halfword offset 0 of column 7, for which 10 R232 names the column alone (assumption 122). -/
def fetchBlock (s : State) (d : Domain) (t : Tile) (va : W64) : Except (Walk × W64) Block :=
  match fetchBytes s d t 3 va 8 with
  | .error e => .error e
  | .ok hb =>
    let hdr : W64 := BitVec.ofNat 64 (fromLE hb)
    if !headerOk va hdr then .ok ⟨va, hdr, [[], [], [], []], va + 8, some (1, 7, 0)⟩
    else match fetchStreams s d t hdr 4 0 (va + 8) with
      | .error e => .error e
      | .ok (l, a) =>
        let pad := (8 - a.toNat % 8) % 8
        match fetchBytes s d t 3 a pad with
        | .error e => .error e
        | .ok ps => .ok ⟨va, hdr, l, a + BitVec.ofNat 64 pad, if ps.all (· == 0) then none else some (1, 7, 0)⟩

/-! ## Words and their ticks (10 R228) -/

/-- A word of a stream: its tick, the tick it counts as issued at, its offset, and its decoding. -/
structure Timed where
  tick : Nat
  counts : Nat
  ofs : Nat
  word : Except DecodeErr Instr

/-- The gap of a word, from its first halfword, and its length in halfwords. -/
def gapOf (h : Half) : Nat × Nat :=
  if h.getLsbD 15 then ((h.extractLsb' 11 4).toNat, 2) else ((h.extractLsb' 12 3).toNat, 1)

/-- Ticks that a filler covers beyond its own (10 R229). -/
def fillOf : Except DecodeErr Instr → Nat
  | .ok (.skip _ n) => n.toNat
  | .ok (.skipl _ n) => n.toNat
  | _ => 0

/-- The words of a stream. -/
def timedWords (c : Column) : Nat → List Half → Nat → Nat → List Timed
  | 0, _, _, _ => []
  | _ + 1, [], _, _ => []
  | fuel + 1, h :: rest, ofs, base =>
    let g := gapOf h
    let w : Except DecodeErr Instr := match decodeWord c (h :: rest) with
      | .ok (i, _) => .ok i
      | .error e => .error e
    let t := base + g.1
    ⟨t, t + fillOf w, ofs, w⟩ :: timedWords c fuel (rest.drop (g.2 - 1)) (ofs + g.2) (t + fillOf w + 1)

/-- The decision flags of a block's header (10 R231). -/
def Block.hasDec (b : Block) : Bool := b.hdr.getLsbD 32
def Block.domDec (b : Block) : Bool := b.hdr.getLsbD 33

def columns : List Column := [.sq, .vx, .xc, .ls]

def Block.words (b : Block) (c : Column) : List Timed :=
  let hs := b.streams.getD (colIdx c) []
  timedWords c (hs.length + 1) hs 0 0

/-! ## The checks (09 R206-R208) -/

/-- A failed check: code, column, offset. -/
abbrev Failed := Nat × Nat × Nat

def failedLe (a b : Failed) : Bool := !lexLess [b.1, b.2.1, b.2.2] [a.1, a.2.1, a.2.2]

/-- Target register and DOM of a LEAP form. A word of its opcode that is no form of 09 R211 is none: 09 R206 leaves it open
whether check 2 counts it (DESIGN CHOICE, assumption 104). -/
def leapOf : Except DecodeErr Instr → Option (BitVec 2 × Bool)
  | .ok (.leap _ t _ _) => some (t, false)
  | .ok (.leapl _ t _ _) => some (t, false)
  | .ok (.leapD _ t _ _) => some (t, true)
  | _ => none

def prepOf : Except DecodeErr Instr → Option (BitVec 2)
  | .ok (.prep _ t _) => some t
  | .ok (.prepS _ t _) => some t
  | .ok (.prepRet _ t) => some t
  | _ => none

/-- Checks 2, 3 and 4. -/
def decisionChecks (b : Block) : List Failed :=
  let ws := b.words .sq
  let leaps := ws.filter (fun w => (leapOf w.word).isSome)
  if !b.hasDec then (leaps.take 1).map (fun w => (2, 0, w.ofs))
  else match leaps with
    | [] => [(2, 0, 0)]
    | l :: more =>
      (more.take 1).map (fun w => (2, 0, w.ofs)) ++
      (if l.tick + 16 == b.len && decide (17 ≤ b.len) then [] else [(2, 0, l.ofs)]) ++
      (match leapOf l.word with
        | some (t, dom) =>
          (if dom == b.domDec then [] else [(3, 0, l.ofs)]) ++
          (ws.filter (fun w => prepOf w.word == some t && decide (w.tick < l.tick) &&
            decide (l.tick < w.tick + 24))).map (fun w => (4, 0, w.ofs))
        | none => [])

/-- The V-specs of a word (09 R207), and the index register of STS.S, which is one read as well (13 R324). -/
def vspecs : Instr → List VSpec
  | .ffma _ _ a b c _ => [a, b, c]
  | .ffms _ _ a b c _ => [a, b, c]
  | .fnfma _ _ a b c _ => [a, b, c]
  | .fnfms _ _ a b c _ => [a, b, c]
  | .dfma _ _ a b c _ => [a, b, c]
  | .dfms _ _ a b c _ => [a, b, c]
  | .imad _ a b c _ => [a, b, c]
  | .vxSel _ a b c _ => [a, b, c]
  | .fadd _ _ a b _ => [a, b]
  | .fsub _ _ a b _ => [a, b]
  | .fmul _ _ a b _ => [a, b]
  | .fmin _ a b _ => [a, b]
  | .fmax _ a b _ => [a, b]
  | .fminn _ a b _ => [a, b]
  | .fmaxn _ a b _ => [a, b]
  | .fcpysgn _ a b _ => [a, b]
  | .fceq _ a b _ => [a, b]
  | .fclt _ a b _ => [a, b]
  | .fcle _ a b _ => [a, b]
  | .fcun _ a b _ => [a, b]
  | .fabs _ a _ => [a]
  | .fneg _ a _ => [a]
  | .frint _ _ a _ => [a]
  | .fscalb _ _ a b _ => [a, b]
  | .dadd _ _ a b _ => [a, b]
  | .dsub _ _ a b _ => [a, b]
  | .dmul _ _ a b _ => [a, b]
  | .dmin _ a b _ => [a, b]
  | .dmax _ a b _ => [a, b]
  | .dceq _ a b _ => [a, b]
  | .dclt _ a b _ => [a, b]
  | .dcle _ a b _ => [a, b]
  | .dcun _ a b _ => [a, b]
  | .dabs _ a _ => [a]
  | .dneg _ a _ => [a]
  | .drint _ _ a _ => [a]
  | .iadd _ a b _ => [a, b]
  | .isub _ a b _ => [a, b]
  | .imul _ a b _ => [a, b]
  | .imulh _ a b _ => [a, b]
  | .imulhu _ a b _ => [a, b]
  | .imin _ a b _ => [a, b]
  | .imax _ a b _ => [a, b]
  | .iminu _ a b _ => [a, b]
  | .imaxu _ a b _ => [a, b]
  | .iand _ a b _ => [a, b]
  | .ior _ a b _ => [a, b]
  | .ixor _ a b _ => [a, b]
  | .iandn _ a b _ => [a, b]
  | .ishl _ a b _ => [a, b]
  | .ishr _ a b _ => [a, b]
  | .isar _ a b _ => [a, b]
  | .iceq _ a b _ => [a, b]
  | .iclt _ a b _ => [a, b]
  | .icltu _ a b _ => [a, b]
  | .iadds _ a b _ => [a, b]
  | .isubs _ a b _ => [a, b]
  | .iabs _ a _ => [a]
  | .cvtF32I32 _ _ a _ => [a]
  | .cvtI32F32 _ _ a _ => [a]
  | .cvtF64F32 _ a _ => [a]
  | .cvtF32F64 _ _ a _ => [a]
  | .cvtBf16F32 _ _ a b _ => [a, b]
  | .cvtF32Bf16 _ a _ _ => [a]
  | .vext _ a _ => [a]
  | .vextW64 _ a _ => [a]
  | .vperm _ a b => [a, b]
  | .vrot _ a _ => [a]
  | .vredf _ a _ => [a]
  | .vredi _ a _ => [a]
  | .vredd _ a _ => [a]
  | .qnt8 _ _ _ _ a b c => [a, b, c]
  | .dq8 _ _ _ a => [a]
  | .cvth _ a b => [a, b]
  | .cvthu _ a _ => [a]
  | .vclass _ a => [a]
  | .exp _ _ a => [a]
  | .exp2 _ _ a => [a]
  | .log _ _ a => [a]
  | .log2 _ _ a => [a]
  | .erf _ _ a => [a]
  | .erfc _ _ a => [a]
  | .sqrt _ _ a => [a]
  | .rsqrt _ _ a => [a]
  | .rcp _ _ a => [a]
  | .tanh _ _ a => [a]
  | .sigm _ _ a => [a]
  | .expm1 _ _ a => [a]
  | .log1p _ _ a => [a]
  | .divF32 _ _ a b => [a, b]
  | .expF64 _ _ a => [a]
  | .exp2F64 _ _ a => [a]
  | .logF64 _ _ a => [a]
  | .log2F64 _ _ a => [a]
  | .erfF64 _ _ a => [a]
  | .erfcF64 _ _ a => [a]
  | .sqrtF64 _ _ a => [a]
  | .rsqrtF64 _ _ a => [a]
  | .rcpF64 _ _ a => [a]
  | .tanhF64 _ _ a => [a]
  | .sigmF64 _ _ a => [a]
  | .expm1F64 _ _ a => [a]
  | .log1pF64 _ _ a => [a]
  | .divF64 _ _ a b => [a, b]
  | .stsV _ _ v _ _ => [v]
  | .stsE _ _ v _ _ => [v]
  | .ldsG _ _ v _ => [v]
  | .stsS _ _ v _ i => [v, .v i]
  | .stgV _ _ v _ _ => [v]
  | .sta _ _ v _ _ => [v]
  | _ => []

/-- The named registers that a word reads, each once. -/
def namedReads (i : Instr) : List (BitVec 4) :=
  ((vspecs i).filterMap (fun v => match v with
    | .v n => some n
    | _ => none)).eraseDups

/-- Every decoded word of the block: column, word. -/
def Block.all (b : Block) : List (Column × Timed) := columns.flatMap (fun c => (b.words c).map (fun w => (c, w)))

/-- Check 7: ticks that read more than two registers of one bank; the words of such a tick that read that bank. DESIGN CHOICE,
here and in checks 8 and 9: a word that fails check 10 counts for none of them (assumption 104). -/
def portChecks (b : Block) : List Failed :=
  let reads := b.all.filterMap (fun x => match x.2.word with
    | .ok i => if (namedReads i).isEmpty then none else some (x.1, x.2.tick, x.2.ofs, namedReads i)
    | .error _ => none)
  let bank (p : Bool) (l : List (BitVec 4)) : Nat := (l.filter (fun n => n.getLsbD 0 == p)).length
  reads.flatMap (fun r => [false, true].flatMap (fun p =>
    let n := (reads.filter (fun q => q.2.1 == r.2.1)).map (fun q => bank p q.2.2.2)
    if 2 < n.sum && 0 < bank p r.2.2.2 then [(7, colIdx r.1, r.2.2.1)] else []))

/-- An FP64 word of the XC column (09 R206, check 8). -/
def isXcF64 : Instr → Bool
  | .expF64 .. => true
  | .exp2F64 .. => true
  | .logF64 .. => true
  | .log2F64 .. => true
  | .erfF64 .. => true
  | .erfcF64 .. => true
  | .sqrtF64 .. => true
  | .rsqrtF64 .. => true
  | .rcpF64 .. => true
  | .tanhF64 .. => true
  | .sigmF64 .. => true
  | .expm1F64 .. => true
  | .log1pF64 .. => true
  | .divF64 .. => true
  | _ => false

def isFiller : Instr → Bool
  | .skip .. => true
  | .skipl .. => true
  | _ => false

/-- Check 8: an XC word in the tick after an FP64 word; `before` says that one issued in the tick before the entry. A word
that fails check 10 is no FP64 word here (assumption 104). -/
def spacingChecks (b : Block) (before : Bool) : List Failed :=
  let ws := b.words .xc
  let f64 (t : Nat) : Bool := ws.any (fun w => w.tick == t && (match w.word with
    | .ok i => isXcF64 i
    | .error _ => false))
  (ws.filter (fun w => (match w.word with
    | .ok i => !isFiller i
    | .error _ => true) && (if w.tick = 0 then before else f64 (w.tick - 1)))).map (fun w => (8, 2, w.ofs))

/-- The queue that a word's result enters, by column code, and its latency (11 R255, 12 R294, 13 R323). -/
def arrivalOf (d : Domain) : Instr → Option (Nat × Nat)
  | .add .. | .sub .. | .and .. | .or .. | .xor .. | .andn .. | .shl .. | .shr .. | .sar .. | .rol .. | .min .. | .max ..
  | .minu .. | .maxu .. | .sel .. | .clz .. | .ctz .. | .popc .. | .bswap .. | .addsh .. | .extu .. | .exts .. | .ins ..
  | .mov .. | .addi .. | .andi .. | .ori .. | .xori .. | .shli .. | .shri .. | .sari .. | .movi ..
  | .pmovToRegister .. => some (0, 1)
  | .mul .. | .mulh .. | .mulhu .. => some (0, 3)
  | .div .. | .divu .. | .rem .. | .remu .. => some (0, 20)
  | .ldcp .. | .csrr .. => some (0, 2)
  | .vote _ _ _ _ _ c => if c.isPred then none else some (0, d.voteLat)
  | .fadd .. | .fsub .. | .fmul .. | .ffma .. | .ffms .. | .fnfma .. | .fnfms .. | .fscalb .. => some (1, 4)
  | .dadd .. | .dsub .. | .dmul .. | .dfma .. | .dfms .. => some (1, 6)
  | .fabs .. | .fneg .. | .fcpysgn .. | .dabs .. | .dneg .. | .iadd .. | .isub .. | .imul .. | .imulh .. | .imulhu ..
  | .imin .. | .imax .. | .iminu .. | .imaxu .. | .iand .. | .ior .. | .ixor .. | .iandn .. | .ishl .. | .ishr ..
  | .isar .. | .iadds .. | .isubs .. | .iabs .. | .imad .. | .vxSel .. => some (1, 1)
  | .fmin .. | .fmax .. | .fminn .. | .fmaxn .. | .dmin .. | .dmax .. | .fceq .. | .fclt .. | .fcle .. | .fcun ..
  | .dceq .. | .dclt .. | .dcle .. | .dcun .. | .iceq .. | .iclt .. | .icltu .. | .vclass .. | .vperm ..
  | .vrot .. => some (1, 2)
  | .frint .. | .drint .. | .cvtF32I32 .. | .cvtI32F32 .. | .cvtF64F32 .. | .cvtF32F64 .. | .cvtBf16F32 ..
  | .cvtF32Bf16 .. | .qnt8 .. | .dq8 .. | .cvth .. | .cvthu .. => some (1, 3)
  | .vext .. | .vextW64 .. => some (0, 3)
  | .vredf .. | .vredi .. | .vredd .. => some (1, 6)
  | .exp .. | .exp2 .. | .log .. | .log2 .. | .expm1 .. | .log1p .. | .divF32 .. => some (2, 12)
  | .erf .. | .erfc .. | .tanh .. | .sigm .. => some (2, 14)
  | .sqrt .. | .rsqrt .. | .rcp .. => some (2, 10)
  | .expF64 .. | .logF64 .. | .log2F64 .. | .expm1F64 .. | .log1pF64 .. => some (2, 28)
  | .exp2F64 .. => some (2, 26)
  | .erfF64 .. | .tanhF64 .. | .sigmF64 .. => some (2, 32)
  | .erfcF64 .. => some (2, 34)
  | .sqrtF64 .. | .rcpF64 .. => some (2, 22)
  | .rsqrtF64 .. | .divF64 .. => some (2, 24)
  | .ldsV .. => some (3, 6)
  | .ldsD .. | .ldsG .. => some (3, 7)
  | .ldsW32 .. | .ldsW64 .. => some (0, 6)
  | .amos .. => some (0, 10)
  | .amog .. => some (0, if d.wide then 1200 else 900)
  | .ldgW64 .. => some (0, latGlobal d)
  | .ldgV .. => some (3, latGlobal d)
  | .ldgD .. => some (3, latGlobal d + 1)
  | .lda .. => some (3, 8)
  | _ => none

/-- The queue that a flight enters. -/
def queueOf : Dest → Option Nat
  | .sq _ => some 0
  | .vx _ => some 1
  | .xc => some 2
  | .ls => some 3
  | .sreg _ => none
  | .vreg _ => none
  | .slot _ _ => none
  | .clear _ => none

/-- Results still in flight at an entry at tick `now`: queue and ticks from the entry. -/
def Domain.inFlight (d : Domain) (t : Tile) (now : Nat) : List (Nat × Nat) :=
  (t.flights.filter (fun f => f.cause == 0 && decide (now ≤ f.due))).filterMap (fun f =>
    (queueOf f.dest).map (fun q => (q, f.due - now))) ++
  (d.ballots.filter (fun b => b.lt == t.lt && !b.op.isPred && decide (now ≤ b.tick + d.voteLat))).map (fun b =>
    (0, b.tick + d.voteLat - now))

/-- Check 9: words whose result meets two others in one queue and tick (09 R208). A word that fails check 10 has none
(assumption 104). -/
def arrivalChecks (d : Domain) (t : Tile) (b : Block) (now : Nat) : List Failed :=
  let mine := b.all.filterMap (fun x => match x.2.word with
    | .ok i => (arrivalOf d i).map (fun a => (x.1, x.2.ofs, a.1, x.2.tick + a.2))
    | .error _ => none)
  let others := d.inFlight t now
  (mine.filter (fun m => decide (2 < (mine.filter (fun o => o.2.2 == m.2.2)).length +
    (others.filter (fun o => o == m.2.2)).length))).map (fun m => (9, colIdx m.1, m.2.1))

/-- Checks 5, 6 and 10 of one column. -/
def streamChecks (d : Domain) (b : Block) (c : Column) : List Failed :=
  let hs := b.streams.getD (colIdx c) []
  (if 512 < hs.length then [(5, colIdx c, 512)] else []) ++
  ((b.words c).filter (fun w => decide (b.len ≤ w.counts))).map (fun w => (6, colIdx c, w.ofs)) ++
  (b.words c).filterMap (fun w => match w.word with
    | .error e => some (e.checkCode, colIdx c, w.ofs)
    | .ok i => if i.supervisorWord && !d.sup then some (10, colIdx c, w.ofs) else none)

/-- All failed checks of a block that tile t enters at tick `now`. -/
def validate (d : Domain) (t : Tile) (b : Block) (now : Nat) : List Failed :=
  match b.err with
  | some (1, c, o) => [(1, c, o)]
  | _ =>
    (if 192 ≤ t.cluster && (b.hdr.getLsbD 25 || b.hdr.getLsbD 26) then [(1, 7, 0)] else []) ++
    decisionChecks b ++ columns.flatMap (streamChecks d b) ++ portChecks b ++
    spacingChecks b (t.lastF64 == some (now - 1) && decide (0 < now)) ++ arrivalChecks d t b now

/-- The failure that the fault reports. -/
def worst (l : List Failed) : Option Failed := (sortBy failedLe l).head?

/-! ## Entering a block (09 R203, R204, R209) -/

/-- Its four streams, each from its first halfword. -/
def Block.freshStreams (b : Block) : List Stream := b.streams.map (fun hs => ⟨hs, hs, 0, 0, 0⟩)

/-- Tile lt starts block b at its present tick, in repetition r; a failed check raises the block-validation fault and no
word of the block will issue (09 R209). -/
def Domain.enterBlock (d : Domain) (lt : Nat) (b : Block) (r : Nat) : Domain :=
  match d.tile? lt with
  | none => d
  | some t =>
    let bad := worst (validate d t b d.dtick)
    let d1 := d.updTile lt (fun t =>
      ({ t with
        block := b, streams := b.freshStreams, btick := 0, rep := r, start := d.dtick, decision := none,
        badBlock := bad.isSome }).enterFetches b (r != 0))
    match bad with
    | some (c, col, o) => d1.raise ⟨d.dtick, lt, 0, cBlock, (Config.blockDetail c col o).toNat⟩ 0
    | none => d1

/-- The block that stands for one whose fetch failed: it issues nothing. -/
def emptyBlock (a : W64) : Block := ⟨a, 0xFFFF, [[], [], [], []], a, none⟩

def FetchStage.rank : FetchStage → Nat
  | .got _ => 0
  | .asked => 1
  | .failed .. => 2

/-- The fetched block at an address: the current block itself, or what the loader holds, streams before a fetch under way
and that before a failed one (09 R205). -/
def Tile.held (t : Tile) (a : W64) : Option FetchStage :=
  if a = t.block.addr ∧ t.block.hdr ≠ 0 then some (.got t.block)
  else (sortBy (fun x y => decide (x.rank ≤ y.rank)) ((t.loader.filter (fun f => f.addr == a)).map (fun f => f.stage))).head?

/-- BLOCK_BOUNDARY (09 R204, R205): the continuation starts, or its failed fetch raises its fault. -/
def execBlockBoundary (s : State) : Out :=
  onDom s (fun d t =>
    let c := t.continuation
    s.updDom d.seq (fun e =>
      match t.held c.1 with
      | some (.got b) => e.enterBlock t.lt b c.2
      | some (.failed cause _ a) =>
        ((e.updTile t.lt (fun t => { t with
          block := emptyBlock c.1, streams := (emptyBlock c.1).freshStreams, btick := 0, rep := 0, start := d.dtick,
          decision := none, badBlock := true })).raise ⟨d.dtick, t.lt, 0, fetchCode d cause, 0⟩ a)
      | some .asked => e
      | none => e.updTile t.lt (fun t => t.startFetch .fixed c.1)))

/-- What a fetch of the block at an address leaves, as it came to its end or its failure: the pages read are in use, with
the page that refuses or spoils the read, once translated; and errors met are counted (03 R71, R84; 18 R435). -/
def State.afterFetch (s : State) (d : Domain) (t : Tile) (a : W64) : Except (Walk × W64) Block → State
  | .ok b => touchCode d t (pieces (b.after - a).toNat) a (b.after - a).toNat s
  | .error (w, x) =>
    let n := (x - a).toNat + (if w.code = 11 ∨ w.code = 254 then 1 else 0)
    let s1 := touchCode d t (pieces n) a n s
    let s2 := match w.code, resolveFor s d t false x with
      | 254, .ok p => s1.countFlaws [(p.loc, 1)]
      | _, _ => s1
    if fetchRecorded d w.code then s2.openRecord d t 0 false x 128 w else s2.countWalk x w

/-- BLOCK_FETCH_DONE: the block's streams arrive in the loader, or its fetch fails (09 R205, 03 R81, R82). -/
def execBlockFetchDone (s : State) : Out :=
  onDom s (fun d t =>
    match t.loader[s.cur.item]? with
    | none => s
    | some f =>
      let done (x : FetchStage) (s : State) : State := s.updTile d.seq t.lt (fun t => { t with
        loader := upd t.loader s.cur.item (fun f => { f with stage := x }) })
      let got := fetchBlock s d t f.addr
      done (match got with
        | .ok b => .got b
        | .error (w, a) => .failed w.code 0 a) (s.afterFetch d t f.addr got))

/-- The words of a stream from a tick on, as a stream that has skipped those before (09 R209). -/
def skipStream (c : Column) (now : Nat) : Nat → Stream → Stream
  | 0, st => st
  | fuel + 1, st =>
    match st.rest with
    | [] => st
    | h :: rest =>
      let g := gapOf h
      let w : Except DecodeErr Instr := match decodeWord c st.rest with
        | .ok (i, _) => .ok i
        | .error e => .error e
      if now ≤ st.base + g.1 then st
      else skipStream c now fuel { st with
        rest := rest.drop (g.2 - 1), ofs := st.ofs + g.2, last := st.ofs, base := st.base + g.1 + fillOf w + 1 }

/-- Tile lt stands in block b, started at tick `start` in repetition r, and issues none of its words before the present
tick. -/
def Tile.stand (t : Tile) (b : Block) (r start now : Nat) (bad : Bool) : Tile :=
  { t with
    block := b
    streams := (b.freshStreams.zip columns).map (fun (x : Stream × Column) =>
      skipStream x.2 (now - start) (x.1.rest.length + 1) x.1)
    btick := now - start
    rep := r
    start := start
    decision := none
    badBlock := bad }

/-- The block at an address, in repetition r from tick `start`, is read and validated: the tile resumes in it at the
present tick, or in a repetition or fall-through block that began before, no LEAP taken; or it faults (09 R209).
Assumption 75. -/
def State.retryFrom (s : State) (k lt : Nat) : Nat → W64 → Nat → Nat → State
  | 0, _, _, _ => s
  | fuel + 1, a, r, start =>
    match s.dom? k with
    | none => s
    | some d =>
      match d.tile? lt with
      | none => s
      | some t =>
        let got := fetchBlock s d t a
        let s := s.afterFetch d t a got
        match got with
        | .error (w, fa) => s.updDom k (fun e =>
            (e.updTile lt (fun t => t.stand (emptyBlock a) r start d.dtick true)).raise
              ⟨d.dtick, lt, 0, fetchCode d w.code, 0⟩ fa)
        | .ok b => match worst (validate d t b start) with
          | some (c, col, o) => s.updDom k (fun e =>
              (e.updTile lt (fun t => t.stand b r start d.dtick true)).raise
                ⟨d.dtick, lt, 0, cBlock, (Config.blockDetail c col o).toNat⟩ 0)
          | none =>
            if d.dtick ≤ start + b.len then
              s.updTile k lt (fun t => (t.stand b r start d.dtick false).startFetch .fall b.after)
            else if r + 1 < b.rpt then s.retryFrom k lt fuel a (r + 1) (start + b.len)
            else s.retryFrom k lt fuel b.after 0 (start + b.len)

/-- RTE reads and validates a failed block again (09 R209). -/
def State.retryBlock (s : State) (k lt : Nat) : State :=
  match s.dom? k with
  | none => s
  | some d =>
    match d.tile? lt with
    | none => s
    | some t =>
      if t.badBlock then s.retryFrom k lt (d.dtick - t.start + 1) t.block.addr t.rep t.start else s

/-! ## Words due (10 R228) -/

/-- The word that a column issues in the present tick: the instruction and its stream after it. -/
def Tile.dueWord (t : Tile) (c : Column) : Option (Instr × Stream) :=
  if t.badBlock then none
  else match t.streams[colIdx c]? with
    | none => none
    | some st => match st.rest with
      | [] => none
      | h :: _ =>
        if st.base + (gapOf h).1 != t.btick then none
        else match decodeWord c st.rest with
          | .ok (i, r) => some (i, { st with rest := r, ofs := st.ofs + (gapOf h).2, last := st.ofs, base := t.btick + 1 })
          | .error _ => none

end Sys2Proof.Machine
end

