-- ==== Sys2Proof/Machine/Matrix.lean ====
section
/-!
DEFINITION. Matrix arithmetic (08 R192-R196): exact products, special values, the four summation shapes on one element.
-/

namespace Sys2Proof.Machine

/-- The canonical FP32 NaN. -/
def fpCanon : Fp := .nan false 0x400000

/-- The FP32 pattern of a value that FP32 can hold; a NaN keeps its payload. -/
def fp32Bits : Fp → Nat
  | .nan s fr => fp32F.signBits s + fp32F.infBits + fr
  | .inf s => fp32F.signBits s + fp32F.infBits
  | .num s m e => (fp32F.round .rne s m e false).1

def fpSignals : Fp → Bool
  | .nan _ fr => decide (fr < 0x400000)
  | .inf _ => false
  | .num .. => false

def fpQuiet : Fp → Fp
  | .nan s fr => .nan s (fr ||| 0x400000)
  | .inf s => .inf s
  | .num s m e => .num s m e

def fpNeg : Fp → Fp
  | .nan s fr => .nan s fr
  | .inf s => .inf (!s)
  | .num s m e => .num (!s) m e

def fpIsNan : Fp → Bool
  | .nan _ _ => true
  | .inf _ => false
  | .num .. => false

/-- RN(x + y) in FP32; its terms may be exact products (08 R193, R194). -/
def addRn (x y : Fp) : Fp × Flg :=
  let fl := flagIf (fpSignals x || fpSignals y) fNV
  match x, y with
  | .nan s fr, _ => (fpQuiet (.nan s fr), fl)
  | _, .nan s fr => (fpQuiet (.nan s fr), fl)
  | .inf a, .inf b => if a == b then (.inf a, 0) else (fpCanon, fNV)
  | .inf a, .num .. => (.inf a, 0)
  | .num .., .inf b => (.inf b, 0)
  | .num sa ma ea, .num sb mb eb =>
    let r := fp32F.roundSum .rne sa sb (Dyadic.add ⟨signed sa ma, ea⟩ ⟨signed sb mb, eb⟩)
    (fp32F.decode r.1, r.2)

/-- A block scale: a UE4M3 value, or a NaN (08 R177). -/
inductive Scale where
  | value (m : Nat) (e : Int)
  | bad
  deriving DecidableEq, Repr

def scaleOf (b : Nat) : Scale :=
  if 127 ≤ b then .bad
  else match decodeE4m3 b with
    | .num _ m e => .value m e
    | .inf _ => .bad
    | .nan _ _ => .bad

/-- ISC for a scale with bit 7 set (08 R177). -/
def scaleFlag (b : Nat) : Flg := flagIf (decide (128 ≤ b)) fISC

/-- The product of an element of A, an element of B and their scales (08 R192, R193); a zero scale makes it +0 (24 R458). -/
def product (a : Fp) (sa : Scale) (b : Fp) (sb : Scale) : Fp × Flg :=
  let fl := flagIf (fpSignals a || fpSignals b) fNV
  match sa, sb with
  | .value ma ea, .value mb eb =>
    match a, b with
    | .nan s fr, _ => (fpQuiet (.nan s fr), fl)
    | _, .nan s fr => (fpQuiet (.nan s fr), fl)
    | .inf s, .inf r => if ma = 0 ∨ mb = 0 then (fpCanon, fNV) else (.inf (s != r), 0)
    | .inf s, .num r m _ => if m = 0 ∨ ma = 0 ∨ mb = 0 then (fpCanon, fNV) else (.inf (s != r), 0)
    | .num s m _, .inf r => if m = 0 ∨ ma = 0 ∨ mb = 0 then (fpCanon, fNV) else (.inf (s != r), 0)
    | .num s m e, .num r n f => (.num (s != r && ma != 0 && mb != 0) (m * n * ma * mb) (e + f + ea + eb), 0)
  | _, _ => (fpCanon, fl)

/-- The exact sum of numbers: −0 only when every one is −0 (08 R194). -/
def exactSum (ps : List Fp) : Bool × Dyadic :=
  let sum := ps.foldl (fun x p => match p with
    | .num s m e => Dyadic.add x ⟨signed s m, e⟩
    | _ => x) ⟨0, 0⟩
  (ps.all (fun p => match p with
    | .num s _ _ => s
    | _ => false), sum)

/-- A block of products, rounded once. -/
def blockSum (ps : List Fp) : Fp × Flg :=
  let (neg, x) := exactSum ps
  let r := fp32F.roundSum .rne neg neg x
  (fp32F.decode r.1, r.2)

/-- Consecutive pieces of n. -/
def piecesOf {α : Type} (n : Nat) : Nat → List α → List (List α)
  | 0, _ => []
  | fuel + 1, l => if l.isEmpty then [] else l.take n :: piecesOf n fuel (l.drop n)

/-- A running sum with its flags. -/
def accStep (x : Fp × Flg) (p : Fp × Flg) : Fp × Flg :=
  let r := addRn x.1 p.1
  (r.1, x.2 ||| p.2 ||| r.2)

/-- One level of TREE64: a lone member passes unchanged. -/
def treePairs : List (Fp × Flg) → List (Fp × Flg)
  | x :: y :: r => accStep x y :: treePairs r
  | l => l

def treeSum : Nat → List (Fp × Flg) → Fp × Flg
  | 0, l => l.headD (.num false 0 0, 0)
  | fuel + 1, l => treeSum fuel (treePairs l)

/-- One step of COMP on the state (s, e) (08 R194). -/
def compStep (st : Fp × Fp × Flg) (p : Fp) : Fp × Fp × Flg :=
  let (s, e, fl) := st
  let s1 := addRn s p
  let bp := addRn s1.1 (fpNeg s)
  let ap := addRn s1.1 (fpNeg bp.1)
  let x := addRn s (fpNeg ap.1)
  let y := addRn p (fpNeg bp.1)
  let z := addRn x.1 y.1
  let e1 := addRn e z.1
  (s1.1, e1.1, fl ||| s1.2 ||| bp.2 ||| ap.2 ||| x.2 ||| y.2 ||| z.2 ||| e1.2)

/-- Plus zero. -/
def fpZero : Fp := .num false 0 0

/-- The shape of a SUM code on finite values: sum word, error word, flags (08 R194). -/
def applyShape (sum : Nat) (s e : Fp) (ps : List Fp) : Fp × Fp × Flg :=
  if sum = 3 then ps.foldl compStep (s, e, 0)
  else
    let terms : List (Fp × Flg) :=
      if sum = 0 then ps.map (fun p => (p, 0))
      else if sum = 1 then (piecesOf 32 ps.length ps).map blockSum
      else (piecesOf 64 ps.length ps).map (fun c => treeSum 6 (c.map (fun p => (p, 0))))
    let r := terms.foldl accStep (s, 0)
    (r.1, fpZero, r.2)

/-- One output element: special values first, then the shape (08 R193). `inits` are the initial words: the sum, and the
error under COMP. Where a record continues another's K, the initial value stands last among the NaNs, and RN(s + e) of
−0 is +0, as R193 has it; R195's 'always' holds otherwise (assumption 108). -/
def matrixElement (sum : Nat) (inits : List Fp) (ps : List Fp) : Nat × Nat × Flg :=
  let all := ps ++ inits
  let fl := flagIf (inits.any fpSignals) fNV
  match all.find? fpIsNan with
  | some x => (fp32Bits (fpQuiet x), 0, fl)
  | none =>
    let pos := all.any (fun x => x == .inf false)
    let neg := all.any (fun x => x == .inf true)
    if pos && neg then (fp32Bits fpCanon, 0, fNV)
    else if pos || neg then (fp32Bits (.inf neg), 0, 0)
    else
      let r := applyShape sum (inits.headD fpZero) (inits.getD 1 fpZero) ps
      (fp32Bits r.1, (if sum = 3 then fp32Bits r.2.1 else 0), r.2.2)

/-- What a matrix record starts an element from, with the flags of RN(s + e) (08 R193). Assumption 49. -/
def initialWords (accum : Bool) (sum : Nat) (s e : Nat) : List Fp × Flg :=
  if !accum then ((if sum = 3 then [fpZero, fpZero] else [fpZero]), 0)
  else if sum = 3 then ([fp32F.decode s, fp32F.decode e], 0)
  else
    let r := fp32F.add .rne false s e
    ([fp32F.decode r.1], r.2)

/-- Flags that MMA raises (08 R188). -/
def mmaFlags : Flg := fNV ||| fOF ||| fISC

end Sys2Proof.Machine
end

