-- ==== Sys2Proof/Machine/Records.lean ====
section
/-!
DEFINITION. The records of the ME, GU and CE (13 R343-R358): the start of a record, its payload step by step, its tag and
its run-time fault; and RECORD_COMPLETION (13 R344).
-/

namespace Sys2Proof.Machine

def Tile.engine (t : Tile) (g : Engine) : EngineQ := t.engines.getD (engIdx g) ⟨[], none, none⟩

def Tile.rec? (t : Tile) (id : Nat) : Option Rec := t.recs.find? (fun r => r.id == id)

/-- The record that an engine runs, or the one at its head. -/
def Tile.current (t : Tile) (g : Engine) : Option Rec :=
  let q := t.engine g
  match q.run with
  | some id => t.rec? id
  | none => match q.entries with
    | .record id :: _ => t.rec? id
    | _ => none

def Domain.setRec (d : Domain) (lt : Nat) (r : Rec) : Domain :=
  d.updTile lt (fun t => { t with recs := t.recs.map (fun x => if x.id = r.id then r else x) })

/-- The engine takes the record from its queue (13 R343). -/
def Domain.takeRec (d : Domain) (lt : Nat) (r : Rec) : Domain :=
  d.updTile lt (fun t => { t with engines := upd t.engines (engIdx r.eng) (fun q =>
    { q with entries := q.entries.filter (fun e => e != .record r.id), run := some r.id, lastDeq := some d.dtick }) })

/-- What running a payload came to. -/
abbrev Ran := State × Flg × Option Bad

/-- The record that engine `cur.eng` runs or has at its head, with its domain and tile. -/
def onRec (s : State) (f : Domain → Tile → Rec → Out) : Out :=
  match s.dom? s.cur.dom with
  | none => .fault .noContext
  | some d =>
    match d.tile? s.cur.lt with
    | none => .fault .noContext
    | some t =>
      match t.current s.cur.eng with
      | none => .fault .noContext
      | some r => f d t r

/-- The work of a record: how many steps (granules, K steps or half-rows), and what step i does (13 R345, 15 R385). -/
structure Work where
  steps : Nat
  run : Nat → State → Ran

/-- A record of kind k does its next step, its engine taking it from the queue before the first. A fault stops it at the
step, whose bytes are not written (13 R345, 06 R137); a walk that fails in relaxed mode leaves it standing there, to be
tried again (03 R81; assumption 16). A lease fault is raised as the response comes (03 R77). `holds` is the source unit that
a copy has read in part with the step (06 R137). -/
def runRecord (s : State) (k : Nat) (w : State → Domain → Tile → Rec → Work)
    (holds : State → Domain → Tile → Rec → Option (Nat × List Byte) := fun _ _ _ _ => none) : Out :=
  onRec s (fun d t r =>
    if r.kindCode != k then .fault .noContext
    else
      let s1 := if (t.engine r.eng).run.isSome then s else s.updDom d.seq (fun e => e.takeRec t.lt r)
      let job := w s1 d t r
      let (s2, fl, bad) := job.run r.progress s1
      let stands := d.relaxed && (match bad with
        | some b => b.1 == cTranslation
        | none => false)
      let ends := !stands && (bad.isSome || decide (job.steps ≤ r.progress + 1))
      .next (s2.updDom d.seq (fun e =>
        let e1 := e.setRec t.lt { r with
          stage := if ends then .written else .queued
          flags := r.flags ||| fl
          fault := bad
          progress := if bad.isSome then r.progress else r.progress + 1
          held := if bad.isSome then r.held else holds s1 d t r }
        match bad with
        | some (17, x, a) => e1.raise ⟨d.dtick, t.lt, 4 + engIdx r.eng, cLease, x⟩ a
        | _ => e1)))

/-- The address by which a tile reaches a byte of its own storage: bank space, accumulator space (the row), or the B store
(02 R52, R53, R55); 0 of any other byte. -/
def Tile.localAddr (t : Tile) (loc : Nat) : W64 :=
  let within (a n : Nat) : Bool := decide (a ≤ loc) && decide (loc < a + n)
  if within (locAcc t.cluster t.idx t.slot 0) (2 ^ 17) then
    BitVec.ofNat 64 ((loc - locAcc t.cluster t.idx t.slot 0) / 512)
  else if within (locB t.cluster t.idx t.slot 0) (2 ^ 20) then BitVec.ofNat 64 (loc - locB t.cluster t.idx t.slot 0)
  else match (List.range 8).findSome? (fun w => match t.bank? w with
      | some b => if within (locBank t.cluster b 0) (2 ^ 19) then some (w, b) else none
      | none => none) with
    | some (w, b) => windowAddr w (loc - locBank t.cluster b 0)
    | none => 0

/-- The address that a record's integrity fault gives: the first byte, in the order of its ranges, of a granule that fails
its check (15 R386). Assumption 111. -/
def flawAddr (s : State) (t : Tile) (rs : List (Nat × Nat)) : W64 :=
  match rs.find? (fun r => !s.sound [r]) with
  | some r => t.localAddr (r.1 + s.firstFlaw r.1 r.2)
  | none => 0

/-- A step that reads ranges: a granule of them that fails its check ends the record (18 R433, R434). -/
def soundly (t : Tile) (rs : List (Nat × Nat)) (s : State) (f : State → Ran) : Ran :=
  if s.sound rs then f s else (s.countFlaws rs, 0, some (cIntegrity, 0, flawAddr s t rs))

/-- Writes of an engine, made together, that leave no granule of theirs flawed. -/
def State.storeAll (s : State) (cl : Nat) (ws : List (Nat × List Byte)) : State :=
  let met := s.flawsIn (ws.map (fun w => (w.1, w.2.length)))
  let s1 := ws.foldl (fun s w => s.storeEngine cl w.1 w.2) s
  { s1 with flawed := s1.flawed.filter (fun f => !met.contains f) }

/-- A step that writes pieces of a tile's storage, and raises flags: a granule that it merges with and that fails its check
ends the record before the step writes (18 R433, 06 R137). -/
def storeStep (t : Tile) (ws : List (Nat × List Byte)) (fl : Flg) (s : State) : Ran :=
  let rs := ws.map (fun w => (w.1, w.2.length))
  if s.mergesSound rs then (s.storeAll t.cluster ws, fl, none)
  else (s.countFlaws rs, 0, some (cIntegrity, 0, flawAddr s t rs))

/-- What follows a step that met no fault. -/
def Ran.andThen (x : Ran) (f : State → State) : Ran := if x.2.2.isSome then x else (f x.1, x.2)

/-! ## Matrix records -/

/-- Bytes of a bank's window as the record's tile sees it. -/
def State.bankLE (s : State) (t : Tile) (w ofs n : Nat) : Nat :=
  match t.bank? w with
  | some b => s.readLE (locBank t.cluster b ofs) n
  | none => 0

def State.sliceLE (s : State) (t : Tile) (j ofs n : Nat) : Nat := s.readLE (locB t.cluster t.idx t.slot (j * 2 ^ 14 + ofs)) n

def State.winTag (s : State) (t : Tile) (w : Nat) : Tag :=
  match t.bank? w with
  | some b => s.tagOf t.cluster b
  | none => Tag.raw

def State.sliceTag (s : State) (t : Tile) (j : Nat) : Tag :=
  (s.cluster t.cluster).slices.getD (sliceAt t.idx t.slot j) Tag.raw

def State.setSliceTag (s : State) (t : Tile) (j : Nat) (g : Tag) : State :=
  s.updCluster t.cluster (fun c => { c with slices := upd c.slices (sliceAt t.idx t.slot j) (fun _ => g) })

/-- Elements of a block by BLK code; 0 for none (03 R66). -/
def blockLen (b : BitVec 2) : Nat := if b = 0 then 0 else 8 * 2 ^ b.toNat

/-- Positions of an element and of a block's scale along a run (08 R179, 13 R348). -/
def elemPos (n : Nat) (spl : Bool) (k : Nat) : Nat := if n != 0 && spl then k / n * (n + 1) + k % n else k
def scalePos (n len q : Nat) : Nat := q * (n + 1) + min n (len - q * n)

/-- A tag fits a side of an MMA: format, BLK with FP8 only, and a scale field exactly for a separate plane
(13 R348, 08 R179). Assumption 47. -/
def sideOk (g : Tag) (fmt : Nat) (scaled : Bool) : Bool :=
  g.fmt.toNat == fmt && (g.blk == 0 || isFp8 fmt) && scaled == (g.blk != 0 && !g.spl)

/-- One element as a number. -/
def elemFp (fmt x : Nat) : Fp := fp32F.decode (decodeElem fmt x).toNat

/-- Element k of row i of A with its scale; the flags of the scale read. -/
def aOperand (s : State) (t : Tile) (r : Rec) (g : Tag) (kk i k : Nat) : Fp × Scale × Flg :=
  let fmt := fieldAt r.bits 119 4
  let w := fieldAt r.bits 64 3
  let n := blockLen g.blk
  let len := if n != 0 && g.spl then kk + ceilDiv kk n else kk
  let at_ (l : RecordBits) (q sz : Nat) : Nat := s.bankLE t w (layAddr l q).toNat sz
  let x := elemFp fmt (at_ r.lay1 (i * len + elemPos n g.spl k) (elemSize fmt))
  if n = 0 then (x, .value 1 0, 0)
  else
    let b := if g.spl then at_ r.lay1 (i * len + scalePos n kk (k / n)) 1 else at_ r.lay2 (i * ceilDiv kk n + k / n) 1
    (x, scaleOf b, scaleFlag b)

/-- Element k of column j of B with its scale. -/
def bOperand (s : State) (t : Tile) (r : Rec) (g : Tag) (kk j k : Nat) : Fp × Scale × Flg :=
  let fmt := fieldAt r.bits 123 4
  let base := fieldAt r.bits 77 14
  let n := blockLen g.blk
  let x := elemFp fmt (s.sliceLE t j (base + elemPos n g.spl k * elemSize fmt) (elemSize fmt))
  if n = 0 then (x, .value 1 0, 0)
  else
    let b := s.sliceLE t j (if g.spl then base + scalePos n kk (k / n) else fieldAt r.bits 140 14 + k / n) 1
    (x, scaleOf b, scaleFlag b)

/-- The counts and the A tag that an MMA's start checks (13 R341, R348). Assumption 48. -/
def mmaFitsA (s : State) (t : Tile) (r : Rec) : Bool :=
  let m := fieldAt r.bits 93 6 + 1
  let k := fieldAt r.bits 105 14 + 1
  let asc := fieldAt r.bits 130 10
  let ga := s.winTag t (fieldAt r.bits 64 3)
  let nb := blockLen ga.blk
  sideOk ga (fieldAt r.bits 119 4) (asc != 0) &&
    layCount r.lay1 == m * (if nb != 0 && ga.spl then k + ceilDiv k nb else k) &&
    (asc == 0 || layCount r.lay2 == m * ceilDiv k nb)

/-- The tag of slice j that it checks. -/
def mmaFitsB (s : State) (t : Tile) (r : Rec) (j : Nat) : Bool :=
  sideOk (s.sliceTag t j) (fieldAt r.bits 123 4) (fieldAt r.bits 140 14 != 0)

/-- All of them. -/
def mmaFits (s : State) (t : Tile) (r : Rec) : Bool :=
  mmaFitsA s t r && (List.range (fieldAt r.bits 99 6 + 1)).all (mmaFitsB s t r)

/-- The address of the format fault of a matrix record's start: its first A element, or the first slice that does not fit
(15 R386). Assumption 111. -/
def misfitAddr (r : Rec) (a : Bool) (b : Nat → Bool) : W64 :=
  if !a then windowAddr (fieldAt r.bits 64 3) (layAddr r.lay1 0).toNat
  else sliceAddr (((List.range (fieldAt r.bits 99 6 + 1)).find? (fun j => !b j)).getD 0) (fieldAt r.bits 77 14)

/-- Both words of accumulator element (i, j), as a write. -/
def accCell (t : Tile) (a i j sum err : Nat) : Nat × List Byte := (accLoc t a i j, toLE 4 sum ++ toLE 4 err)

/-- What MMA writes with its last K step (13 R349). -/
def runMma (t : Tile) (r : Rec) (s : State) : Ran :=
  let m := fieldAt r.bits 93 6 + 1
  let n := fieldAt r.bits 99 6 + 1
  let k := fieldAt r.bits 105 14 + 1
  let acc := fieldAt r.bits 91 2
  let sum := fieldAt r.bits 128 2
  let ga := s.winTag t (fieldAt r.bits 64 3)
  let rows := (List.range m).map (fun i => (List.range k).map (fun q => aOperand s t r ga k i q))
  let cols := (List.range n).map (fun j => (List.range k).map (fun q => bOperand s t r (s.sliceTag t j) k j q))
  let scales := orFlags ((rows.flatten ++ cols.flatten).map (fun x => x.2.2))
  let cells := (List.range m).flatMap (fun i => (List.range n).map (fun j =>
    let ps := List.zipWith (fun x y => product x.1 x.2.1 y.1 y.2.1) (rows.getD i []) (cols.getD j [])
    let loc := accLoc t acc i j
    let init := initialWords (r.bits.getLsbD 127) sum (s.readLE loc 4) (s.readLE (loc + 4) 4)
    let v := matrixElement sum init.1 (ps.map (fun p => p.1))
    (i, j, v.1, v.2.1, init.2 ||| orFlags (ps.map (fun p => p.2)) ||| v.2.2)))
  let fl := orFlags (cells.map (fun c => c.2.2.2.2))
  storeStep t (cells.map (fun c => accCell t acc c.1 c.2.1 c.2.2.1 c.2.2.2.1)) ((scales ||| fl) &&& mmaFlags) s

/-- A matrix record as K steps of `kpt` elements (13 R346). Its sums and their special values are settled over all of K
(08 R193), so that the accumulator is written with the last step; up to it the partial sums are the engine's own, and
follow from its progress (15 R385). Assumption 82. -/
def matrixWork (t : Tile) (r : Rec) (kpt : Nat) (fits : State → Bool) (misfit : State → W64) (last : State → Ran) : Work :=
  let n := ceilDiv (fieldAt r.bits 105 14 + 1) kpt
  ⟨n, fun i s =>
    if i = 0 && !fits s then (s, 0, some (cFormat, 0, misfit s))
    else soundly t r.reads s (fun s => if i + 1 < n then (s, 0, none) else last s)⟩

def mmaWork (_s : State) (_d : Domain) (t : Tile) (r : Rec) : Work :=
  matrixWork t r (if isFp8 (fieldAt r.bits 119 4) then 2 else 1) (fun s => mmaFits s t r)
    (fun s => misfitAddr r (mmaFitsA s t r) (mmaFitsB s t r)) (runMma t r)

/-- A tag without blocks, of a format. -/
def Tag.plain (g : Tag) (fmt : Nat) : Bool := g.fmt.toNat == fmt && g.blk == 0

/-- The tags that MMS asks for (13 R350). -/
def mmsFitsA (s : State) (t : Tile) (r : Rec) : Bool := (s.winTag t (fieldAt r.bits 64 3)).plain 7
def mmsFitsB (s : State) (t : Tile) (j : Nat) : Bool := (s.sliceTag t j).plain 10
def mmsFits (s : State) (t : Tile) (r : Rec) : Bool :=
  mmsFitsA s t r && (List.range (fieldAt r.bits 99 6 + 1)).all (mmsFitsB s t)

/-- What MMS writes with its last K step (13 R350, 08 R196). -/
def runMms (t : Tile) (r : Rec) (s : State) : Ran :=
  let m := fieldAt r.bits 93 6 + 1
  let n := fieldAt r.bits 99 6 + 1
  let k := fieldAt r.bits 105 14 + 1
  let acc := fieldAt r.bits 91 2
  let x (i q : Nat) : Int :=
    (BitVec.ofNat 8 (s.bankLE t (fieldAt r.bits 64 3) (layAddr r.lay1 (i * k + q)).toNat 1)).toInt
  let byte (j q : Nat) : Nat := s.sliceLE t j (fieldAt r.bits 77 14 + q / 5) 1
  let cells := (List.range m).flatMap (fun i => (List.range n).map (fun j =>
    let init : Int := if r.bits.getLsbD 127 then (BitVec.ofNat 32 (s.readLE (accLoc t acc i j) 4)).toInt else 0
    (i, j, (List.range k).foldl (fun a q => a + tritOf (byte j q) (q % 5) * x i q) init)))
  let iov := cells.any (fun c => decide (c.2.2 < -2147483648) || decide (2147483647 < c.2.2))
  let iwt := (List.range n).any (fun j => (List.range k).any (fun q => decide (243 ≤ byte j q)))
  storeStep t (cells.map (fun c => accCell t acc c.1 c.2.1 (BitVec.ofInt 32 c.2.2).toNat 0))
    (flagIf iov fIOV ||| flagIf iwt fIWT) s

def mmsWork (_s : State) (_d : Domain) (t : Tile) (r : Rec) : Work :=
  matrixWork t r 4 (fun s => mmsFits s t r) (fun s => misfitAddr r (mmsFitsA s t r) (mmsFitsB s t)) (runMms t r)

/-- MZERO (13 R351). -/
def mzeroWork (_s : State) (_d : Domain) (t : Tile) (r : Rec) : Work :=
  let a := accLoc t (fieldAt r.bits 64 2) 0 0
  ⟨1, fun _ s => ((s.clearRange a 32768).markDirty t.cluster a 32768, 0, none)⟩

/-- A value times an FP32 scale, rounded once into a format (13 R352). -/
def scaledInto (df : Nat) (sat : Bool) (v c : Nat) : Nat × Flg :=
  if isFp8 df then mulToFp8 (df == 6) sat v c
  else
    let f := if df = 3 then bf16F else if df = 4 then fp16F else fp32F
    let fl := fp32F.sigFlag [v, c]
    match fp32F.firstNan [v, c] with
    | some q => ((f.convert fp32F .rne q).1, fl)
    | none =>
      match fp32F.decode v, fp32F.decode c with
      | .num sv mv ev, .num sc mc ec => f.round .rne (sv != sc) (mv * mc) (ev + ec) false
      | .inf sv, .inf sc => (f.signBits (sv != sc) + f.infBits, 0)
      | .inf sv, .num sc mc _ => if mc = 0 then (f.canonical, fNV) else (f.signBits (sv != sc) + f.infBits, 0)
      | .num sv mv _, .inf sc => if mv = 0 then (f.canonical, fNV) else (f.signBits (sv != sc) + f.infBits, 0)
      | _, _ => (f.canonical, fl)

/-- Element n of an ACOPY: its pattern and flags (13 R352). -/
def acopyElem (s : State) (t : Tile) (r : Rec) (n : Nat) : Nat × Flg :=
  let word := fieldAt r.bits 66 2
  let df := fieldAt r.bits 93 4
  let sat := r.bits.getLsbD 97
  let scale := s.readLE (locRec t.cluster t.idx t.slot (8 * fieldAt r.bits 81 12)) 4
  let loc := accLoc t (fieldAt r.bits 64 2) (n / 64) (n % 64)
  let sum := s.readLE loc 4
  let err := s.readLE (loc + 4) 4
  if word = 3 then
    (if df = 9 then (sum, 0)
    else
      let x := (BitVec.ofNat 32 sum).toInt
      ((BitVec.ofInt 8 (if sat then max (-128) (min 127 x) else x)).toNat, 0))
  else scaledInto df sat (if word = 0 then sum else if word = 1 then err else (fp32F.add .rne false sum err).1) scale

/-- The indices of half-row i among n elements. -/
def halfRow (n i : Nat) : List Nat := (List.range 32).filterMap (fun j =>
  if 32 * i + j < n then some (32 * i + j) else none)

/-- ACOPY, a half-row of its accumulator a step: a granule of the destination is written with the last half-row that has
an element in it (13 R352, 06 R137). The flags of an element count with its half-row. -/
def acopyWork (_s : State) (_d : Domain) (t : Tile) (r : Rec) : Work :=
  let df := fieldAt r.bits 93 4
  let n := layCount r.lay1
  let steps := ceilDiv n 32
  let granule (e : Nat) : Nat := (layAddr r.lay1 e).toNat / 128
  let lastOf (e : Nat) : Nat :=
    ((List.range n).filter (fun x => granule x == granule e)).foldl (fun m x => max m (x / 32)) 0
  ⟨steps, fun i s => soundly t ((halfRow n i).map (fun e =>
      (accLoc t (fieldAt r.bits 64 2) (e / 64) (e % 64), 8))) s (fun s =>
    match t.bank? (fieldAt r.bits 68 3) with
    | none => (s, 0, none)
    | some b =>
      (storeStep t (((List.range n).filter (fun e => lastOf e == i)).map (fun e =>
          (locBank t.cluster b (layAddr r.lay1 e).toNat, toLE (elemSize df) (acopyElem s t r e).1)))
        (orFlags ((halfRow n i).map (fun e => (acopyElem s t r e).2))) s).andThen (fun s1 =>
          if i + 1 < steps then s1 else s1.setTag t.cluster b ⟨BitVec.ofNat 4 df, 0, false⟩))⟩

/-- MLOAD, a half-row of its accumulator a step (13 R353). -/
def mloadWork (_s : State) (_d : Domain) (t : Tile) (r : Rec) : Work :=
  let n := layCount r.lay1
  let ofs := if fieldAt r.bits 66 2 = 1 then 4 else 0
  let w := fieldAt r.bits 68 3
  ⟨ceilDiv n 32, fun i s => soundly t ((halfRow n i).filterMap (fun e => (t.bank? w).map (fun b =>
      (locBank t.cluster b (layAddr r.lay1 e).toNat, 4)))) s (fun s =>
    storeStep t ((halfRow n i).map (fun e => (accLoc t (fieldAt r.bits 64 2) (e / 64) (e % 64) + ofs,
      toLE 4 (s.bankLE t w (layAddr r.lay1 e).toNat 4)))) 0 s)⟩

/-! ## GATHER (13 R355) -/

/-- A byte with trit i replaced. -/
def setTrit (byte i : Nat) (x : Int) : Nat :=
  let old := byte / 3 ^ i % 3
  byte - old * 3 ^ i + (x + 1).toNat * 3 ^ i

/-- An entry of a sparse row: its column, its value, and whether a TERN5 byte of 243 or more gave it. -/
abbrev Entry := Nat × Int × Bool

/-- The entries e to e + n - 1, or the fault of the first that is out of range (13 R355). -/
def gatherEntries (s : State) (t : Tile) (r : Rec) (fmt : Nat) : Nat → Nat → Except Bad (List Entry)
  | 0, _ => .ok []
  | n + 1, e =>
    let sz := elemSize fmt
    let ci := fieldAt r.bits 89 19 + e
    let va := fieldAt r.bits 111 19 + (if fmt = 10 then e / 5 else e * sz)
    let j := s.bankLE t (fieldAt r.bits 86 3) ci 1
    if 2 ^ 19 ≤ ci ∨ 2 ^ 19 < va + sz ∨ 64 ≤ j then .error (cRecord, 0, 0)
    else
      let v := s.bankLE t (fieldAt r.bits 108 3) va sz
      match gatherEntries s t r fmt n (e + 1) with
      | .error b => .error b
      | .ok l => .ok ((j, if fmt = 10 then tritOf v (e % 5) else (v : Int), fmt == 10 && decide (243 ≤ v)) :: l)

/-- Row pointer i. -/
def rowPtr (s : State) (t : Tile) (r : Rec) (i : Nat) : Nat :=
  s.bankLE t (fieldAt r.bits 64 3) (fieldAt r.bits 67 19 + 4 * i) 4

/-- The entries of n rows from `row` on. -/
def gatherRows (s : State) (t : Tile) (r : Rec) (fmt : Nat) : Nat → Nat → Except Bad (List (List Entry))
  | 0, _ => .ok []
  | n + 1, row =>
    if rowPtr s t r (row + 1) < rowPtr s t r row then .error (cRecord, 0, 0)
    else match gatherEntries s t r fmt (rowPtr s t r (row + 1) - rowPtr s t r row) (rowPtr s t r row) with
      | .error b => .error b
      | .ok l => match gatherRows s t r fmt n (row + 1) with
        | .error b => .error b
        | .ok ls => .ok (l :: ls)

/-- The value that a row gives slice j: its last entry for the slice, or zero. -/
def rowValue (l : List Entry) (j : Nat) : Int := ((l.reverse.find? (fun e => e.1 == j)).map (fun e => e.2.1)).getD 0

/-- Byte `o` of slice j, counted from BSLICE, from rows that begin with row `first` (13 R355). -/
def gatherByte (fmt rows first : Nat) (ls : List (List Entry)) (j o : Nat) : Byte :=
  if fmt = 10 then
    BitVec.ofNat 8 ((List.range 5).foldl (fun b q =>
      if 5 * o + q < rows then setTrit b q (rowValue (ls.getD (5 * o + q - first) []) j) else b) 0x79)
  else
    let sz := elemSize fmt
    (toLE sz (rowValue (ls.getD (o / sz - first) []) j).toNat).getD (o % sz) 0

/-- The physical ranges that n rows from `row` on read. -/
def gatherReads (s : State) (t : Tile) (r : Rec) (fmt row n : Nat) : List (Nat × Nat) :=
  let at_ (w ofs len : Nat) : List (Nat × Nat) := match t.bank? w with
    | some b => if len = 0 then [] else [(locBank t.cluster b ofs, len)]
    | none => []
  let e := rowPtr s t r row
  let c := rowPtr s t r (row + n) - e
  at_ (fieldAt r.bits 64 3) (fieldAt r.bits 67 19 + 4 * row) (4 * n + 4) ++
    at_ (fieldAt r.bits 86 3) (fieldAt r.bits 89 19 + e) c ++
    at_ (fieldAt r.bits 108 3) (fieldAt r.bits 111 19 + (if fmt = 10 then e / 5 else e * elemSize fmt))
      (if c = 0 then 0 else if fmt = 10 then (e + c - 1) / 5 - e / 5 + 1 else c * elemSize fmt)

/-- GATHER, an aligned granule of every slice a step: the zero elements with the entries of its rows over them
(13 R355, 06 R137); after the last, the tags. Assumption 94. -/
def gatherWork (_s : State) (_d : Domain) (t : Tile) (r : Rec) : Work :=
  let fmt := fieldAt r.bits 158 4
  let rows := fieldAt r.bits 130 14 + 1
  let sz := elemSize fmt
  let bs := fieldAt r.bits 144 14
  let len := if fmt = 10 then ceilDiv rows 5 else rows * sz
  let steps := (bs % 128 + len + 127) / 128
  ⟨steps, fun i s =>
    let lo := 128 * i - bs % 128
    let hi := min len (128 * (i + 1) - bs % 128)
    let first := if fmt = 10 then 5 * lo else lo / sz
    let n := (if fmt = 10 then min rows (5 * hi) else ceilDiv hi sz) - first
    soundly t (gatherReads s t r fmt first n) s (fun s =>
      match gatherRows s t r fmt n first with
      | .error bad => (s, 0, some bad)
      | .ok ls =>
        (storeStep t ((List.range 64).map (fun j => (locB t.cluster t.idx t.slot (j * 2 ^ 14 + bs + lo),
            (List.range (hi - lo)).map (fun o => gatherByte fmt rows first ls j (lo + o)))))
          (flagIf (ls.any (fun l => l.any (fun e => e.2.2))) fIWT) s).andThen (fun s1 =>
            if i + 1 < steps then s1
            else (List.range 64).foldl (fun s j => s.setSliceTag t j ⟨BitVec.ofNat 4 fmt, 0, false⟩) s1))⟩

/-! ## Copies (13 R356-R358) -/

/-- Read n bytes of a space, within one page (03 R71, R77, R81, R84; 18 R434). `who`: 1 CE, 2 GU, 3 CH. -/
def readPiece (s : State) (d : Domain) (t : Tile) (who space : Nat) (va : W64) (n : Nat) :
    State × Except Bad (List Byte) :=
  if space = 0 then (match t.bank? (va.toNat / 2 ^ 19) with
    | some b =>
      let loc := locBank t.cluster b (va.toNat % 2 ^ 19)
      if s.sound [(loc, n)] then (s, .ok (s.readBytes loc n))
      else (s.countFlaws [(loc, n)], .error (cIntegrity, 0, va))
    | none => (s, .ok (List.replicate n 0)))
  else match resolveFor s d t false va with
    | .ok p =>
      let s1 := s.touchLeaf p false
      if p.discarded then (s1.countRead d.part, .ok (List.replicate n 0))
      else if s.sound [(p.loc, n)] then (s1, .ok (s1.readBytes p.loc n))
      else (s1.countFlaws [(p.loc, n)], .error (cIntegrity, 0, va))
    | .error w =>
      if d.relaxed then (s.openRecord d t who false va n w, .error (cTranslation, 0, va))
      else (s.countWalk va w, .error (cLease, 0, va))

/-- Write bytes to a space, within one granule: the parts of rows that share it, the first at its lowest address, by their
offsets from `va`. A granule that they merge with and that fails its check is not written (18 R433). DESIGN CHOICE: on a
discarded page each such call, a granule of an engine or a piece of a page of another writer, adds 1 to DWRITE, since 03 R84
does not say what one write is (assumption 119). -/
def writePiece (s : State) (d : Domain) (t : Tile) (who space : Nat) (va : W64) (ws : List (Nat × List Byte)) : Ran :=
  if space = 0 then (match t.bank? (va.toNat / 2 ^ 19) with
    | some b => storeStep t (ws.map (fun w => (locBank t.cluster b (va.toNat % 2 ^ 19 + w.1), w.2))) 0 s
    | none => (s, 0, none))
  else match resolveFor s d t true va with
    | .ok p =>
      let s1 := s.touchLeaf p true
      let rs := ws.map (fun w => (p.loc + w.1, w.2.length))
      if p.discarded then (s1.countWrite d.part, 0, none)
      else if s1.mergesSound rs then
        let met := s1.flawsIn rs
        let s2 := ws.foldl (fun s w => s.writeBytes (p.loc + w.1) w.2) s1
        ({ s2 with flawed := s2.flawed.filter (fun f => !met.contains f) }, 0, none)
      else (s1.countFlaws rs, 0, some (cIntegrity, 0, va))
    | .error w =>
      if d.relaxed then (s.openRecord d t who true va (ws.map (fun w => w.2.length)).sum w, 0, some (cTranslation, 0, va))
      else (s.countWalk va w, 0, some (cLease, 0, va))

/-- Read the bytes of one granule of the destination, n of them from `va` on, over the source pages that they lie in. A G
source that meets a page of another tag stops (04 R91). -/
def readGranule (d : Domain) (t : Tile) (ss : Nat) (tag : Tag) : Nat → W64 → Nat → State →
    State × Except Bad (List Byte)
  | 0, _, _, s => (s, .ok [])
  | fuel + 1, va, n, s =>
    if n = 0 then (s, .ok [])
    else
      let m := min n (4096 - va.toNat % 4096)
      let other : Bool := match resolveFor s d t false va with
        | .ok p => p.tag != tag
        | .error _ => false
      if ss = 1 && other then (s.useRead d va, .error (cFormat, 0, va))
      else match readPiece s d t 1 ss va m with
        | (s1, .error bad) => (s1, .error bad)
        | (s1, .ok bs) => match readGranule d t ss tag fuel (va + BitVec.ofNat 64 m) (n - m) s1 with
          | (s2, .error bad) => (s2, .error bad)
          | (s2, .ok r) => (s2, .ok (bs ++ r))

/-- Granules of a row of `len` bytes whose destination starts at offset `a` of a granule, and the part of the row that
granule i holds: start and length. -/
def rowGranules (a len : Nat) : Nat := (a % 128 + len + 127) / 128
def rowPart (a len i : Nat) : Nat × Nat :=
  let lo := 128 * i - a % 128
  (lo, min len (128 * (i + 1) - a % 128) - lo)

/-- Read parts of rows, each from a source address, to be written at an offset. -/
def readParts (d : Domain) (t : Tile) (ss : Nat) (tag : Tag) : List (Nat × W64 × Nat) → State →
    State × Except Bad (List (Nat × List Byte))
  | [], s => (s, .ok [])
  | (o, va, n) :: r, s => match readGranule d t ss tag 2 va n s with
    | (s1, .error bad) => (s1, .error bad)
    | (s1, .ok bs) => match readParts d t ss tag r s1 with
      | (s2, .error bad) => (s2, .error bad)
      | (s2, .ok l) => (s2, .ok ((o, bs) :: l))

/-- The bytes of a part whose source starts at `va` inside a unit that the record holds: they come from its one read
(06 R137). -/
def fromHeld (h : Option (Nat × List Byte)) (va : Nat) (bs : List Byte) : List Byte :=
  match h with
  | some (u, ws) => if u < va ∧ va < u + 8 then (ws.drop (va - u)).take bs.length ++ bs.drop (u + 8 - va) else bs
  | none => bs

/-- The aligned 8 bytes of a source that a step whose last byte read lies just below `z` has used in part: as it held them
already, or as it reads them. -/
def heldUnit (s : State) (d : Domain) (t : Tile) (space : Nat) (h : Option (Nat × List Byte)) (z : W64) :
    Option (Nat × List Byte) :=
  let u := z.toNat / 8 * 8
  let place : Option (Option Nat) := if space = 0 then (t.bank? (u / 2 ^ 19)).map (fun b => some (locBank t.cluster b (u % 2 ^ 19)))
    else match resolveFor s d t false (BitVec.ofNat 64 u) with
      | .ok p => some (if p.discarded then none else some p.loc)
      | .error _ => none
  if u = z.toNat then none
  else if h.any (fun x => x.1 == u) then h
  else place.map (fun l => (u, match l with
    | some loc => s.readBytes loc 8
    | none => List.replicate 8 0))

/-- Part q of row w of a COPY: its place in the destination, its source, and its length. -/
def copyPart (r : Rec) (w q : Nat) : Nat × W64 × Nat :=
  let p := rowPart (unpackAddr (fieldAt r.bits 128 51)).toNat (fieldAt r.bits 116 12 + 1) q
  (128 * fieldAt r.bits 201 9 * w + p.1,
    unpackAddr (fieldAt r.bits 64 51) + BitVec.ofNat 64 (128 * fieldAt r.bits 192 9 * w + p.1), p.2)

/-- The granules of a row of a COPY's destination. -/
def copyGranules (r : Rec) : Nat := rowGranules (unpackAddr (fieldAt r.bits 128 51)).toNat (fieldAt r.bits 116 12 + 1)

/-- The parts that step i of a COPY moves: one; none where the next row begins in the same granule, and both there. -/
def copyParts (r : Rec) (i : Nat) : List (Nat × W64 × Nat) :=
  let g := copyGranules r
  let w := i / g
  let q := i % g
  let shared := decide (128 * fieldAt r.bits 201 9 < (unpackAddr (fieldAt r.bits 128 51)).toNat % 128 + (fieldAt r.bits 116 12 + 1))
  if shared && decide (w < fieldAt r.bits 183 6) && q + 1 == g then []
  else (if shared && 0 < w && q == 0 then [copyPart r (w - 1) (g - 1)] else []) ++ [copyPart r w q]

/-- COPY, a granule of its destination a step, in ascending order of rows and granules. A granule that ends one row and
begins the next is written once, with both parts, at the later row's step (13 R356, 06 R137). -/
def copyWork (s : State) (d : Domain) (t : Tile) (r : Rec) : Work :=
  let ss := fieldAt r.bits 179 2
  let ds := fieldAt r.bits 181 2
  let da := unpackAddr (fieldAt r.bits 128 51)
  let tag := sourceTag s d t ss (unpackAddr (fieldAt r.bits 64 51))
  let steps := (fieldAt r.bits 183 6 + 1) * copyGranules r
  ⟨steps, fun i s =>
    let ps := copyParts r i
    let at0 := (ps.head?.map (fun p => p.1)).getD 0
    match readParts d t ss tag (ps.map (fun p => (p.1 - at0, p.2.1, p.2.2))) s with
    | (s1, .error bad) => (s1, 0, some bad)
    | (s1, .ok ws) =>
      let ws1 := (ws.zip ps).map (fun x => (x.1.1, fromHeld r.held x.2.2.1.toNat x.1.2))
      Ran.andThen (if ws.isEmpty then (s1, 0, none) else writePiece s1 d t 1 ds (da + BitVec.ofNat 64 at0) ws1) (fun s2 =>
        match (if ds = 0 ∧ i + 1 = steps then t.bank? (da.toNat / 2 ^ 19) else none) with
        | some b => s2.setTag t.cluster b tag
        | none => s2)⟩

/-- The source unit that a COPY has read in part with its present step. -/
def copyHolds (s : State) (d : Domain) (t : Tile) (r : Rec) : Option (Nat × List Byte) :=
  match (copyParts r r.progress).getLast? with
  | some p => heldUnit s d t (fieldAt r.bits 179 2) r.held (p.2.1 + BitVec.ofNat 64 p.2.2)
  | none => r.held

/-- FILL, a granule a step: byte a mod 8 of the value at every address a (13 R357). -/
def fillWork (_s : State) (d : Domain) (t : Tile) (r : Rec) : Work :=
  let da := unpackAddr (fieldAt r.bits 64 51)
  let len := fieldAt r.bits 192 19 + 1
  ⟨rowGranules da.toNat len, fun i s =>
    let p := rowPart da.toNat len i
    let dst := da + BitVec.ofNat 64 p.1
    writePiece s d t 1 (fieldAt r.bits 115 2) dst [(0, (List.range p.2).map (fun j =>
      BitVec.ofNat 8 (fieldAt r.bits (128 + 8 * ((dst.toNat + j) % 8)) 8)))]⟩

/-- The source of the granule of COPYB's step i, and its length. -/
def copybPart (r : Rec) (i : Nat) : W64 × Nat :=
  let rb := fieldAt r.bits 148 14 + 1
  let g := rowGranules (fieldAt r.bits 128 14) rb
  let p := rowPart (fieldAt r.bits 128 14) rb (i % g)
  (unpackAddr (fieldAt r.bits 64 51) + BitVec.ofNat 64 (i / g * rb + p.1), p.2)

/-- COPYB, a granule of a slice a step: row i becomes slice s0 + i, with its own tag (13 R358). -/
def copybWork (s : State) (d : Domain) (t : Tile) (r : Rec) : Work :=
  let ss := fieldAt r.bits 115 2
  let sa := unpackAddr (fieldAt r.bits 64 51)
  let rb := fieldAt r.bits 148 14 + 1
  let o0 := fieldAt r.bits 128 14
  let g := rowGranules o0 rb
  let tagOf (row : Nat) : Tag := sourceTag s d t ss (sa + BitVec.ofNat 64 (row * rb))
  ⟨(fieldAt r.bits 118 6 + 1) * g, fun i s =>
    let p := rowPart o0 rb (i % g)
    let j := fieldAt r.bits 142 6 + i / g
    let src := copybPart r i
    match readGranule d t ss (tagOf (i / g)) 2 src.1 src.2 s with
    | (s1, .error bad) => (s1, 0, some bad)
    | (s1, .ok bs) =>
      (storeStep t [(locB t.cluster t.idx t.slot (j * 2 ^ 14 + o0 + p.1), fromHeld r.held src.1.toNat bs)] 0 s1).andThen (fun s2 =>
        if i % g + 1 = g then s2.setSliceTag t j (tagOf (i / g)) else s2)⟩

/-- The source unit that a COPYB has read in part with its present step. -/
def copybHolds (s : State) (d : Domain) (t : Tile) (r : Rec) : Option (Nat × List Byte) :=
  let p := copybPart r r.progress
  heldUnit s d t (fieldAt r.bits 115 2) r.held (p.1 + BitVec.ofNat 64 p.2)

def execMma (s : State) : Out := runRecord s kMma mmaWork
def execMms (s : State) : Out := runRecord s kMms mmsWork
def execMzero (s : State) : Out := runRecord s kMzero mzeroWork
def execAcopy (s : State) : Out := runRecord s kAcopy acopyWork
def execMload (s : State) : Out := runRecord s kMload mloadWork
def execGather (s : State) : Out := runRecord s kGather gatherWork
def execCopy (s : State) : Out := runRecord s kCopy copyWork copyHolds
def execFill (s : State) : Out := runRecord s kFill fillWork
def execCopyb (s : State) : Out := runRecord s kCopyb copybWork copybHolds

/-- The arrival word of a record that ends, and the record: a granule of the word that fails its check is not merged with,
which is a run-time fault of a record without another (18 R433, R434). -/
def arrive (s : State) (t : Tile) (r : Rec) : State × Rec :=
  match (if r.aen then t.bank? r.awin else none) with
  | none => (s, r)
  | some b =>
    let x := storeStep t [(locBank t.cluster b r.aoff, toLE 4 r.arrivalValue)] 0 s
    (x.1, if r.fault.isSome then r else { r with fault := x.2.2 })

/-- RECORD_COMPLETION: the arrival word, then the signal, and the engine is free (04 R101, 13 R344, R345). -/
def execRecordCompletion (s : State) : Out :=
  onRec s (fun d t r =>
    let a := arrive s t r
    .next (a.1.updDom d.seq (fun e =>
      let e1 := (e.setRec t.lt { a.2 with stage := .complete }).updTile t.lt (fun t => { t with
        engines := upd t.engines (engIdx r.eng) (fun q => { q with run := none }) })
      if r.sen then e1.semArrive t.lt r.ssem r.ev else e1)))

end Sys2Proof.Machine
end

