-- ==== Sys2Proof/Machine/Chorus.lean ====
section
/-!
DEFINITION. The chorus records: joins, commits and failures of collectives (16 R400-R408), and the multicast tables.
-/

namespace Sys2Proof.Machine

def Rec.count (r : Rec) : Nat := fieldAt r.bits 128 24
def Rec.op (r : Rec) : Nat := fieldAt r.bits 116 4

def RecStage.joinedYet : RecStage → Bool
  | .queued => false
  | .squashed => false
  | .joined => true
  | .written => true
  | .complete => true

/-- Chorus records of a tile on a group that have joined so far: the next one's index (16 R402). -/
def Tile.joins (t : Tile) (g : Nat) : Nat :=
  (t.recs.filter (fun r => isChorus r.kindCode && r.group == g && r.stage.joinedYet)).length

/-- A chorus record starts by joining its collective (16 R402, R406). -/
def joinRecord (s : State) (k : Nat) : Out :=
  onRec s (fun d t r =>
    if r.kindCode != k then .fault .noContext
    else .next (s.updDom d.seq (fun e => (e.takeRec t.lt r).setRec t.lt { r with
      stage := .joined, coll := t.joins r.group })))

def execAg (s : State) : Out := joinRecord s kAg
def execRs (s : State) : Out := joinRecord s kRs
def execA2a (s : State) : Out := joinRecord s kA2a
def execBar (s : State) : Out := joinRecord s kBar
def execSend (s : State) : Out := joinRecord s kSend
def execRecv (s : State) : Out := joinRecord s kRecv
def execBcast (s : State) : Out := joinRecord s kBcast

/-! ## A collective's members -/

/-- The record of a member in collective i of group g, once it has joined. -/
def Tile.joinedRec (t : Tile) (g i : Nat) : Option Rec :=
  t.recs.find? (fun r => isChorus r.kindCode && r.group == g && r.stage == .joined && r.coll == i)

/-- Every member with its tile and record, in the order of the group; none while some member has not joined. -/
def Domain.members (d : Domain) (g i : Nat) : Option (List (Tile × Rec)) :=
  (d.group g).mapM (fun lt => (d.tile? lt).bind (fun t => (t.joinedRec g i).map (fun r => (t, r))))

/-- The members that a destination window has no bank for (16 R407, reason 2). -/
def lacksBank (m : Nat) (n : Nat) (x : Tile × Rec) : Bool :=
  (chorusBytes x.2.kindCode n m x.2.count).2 != 0 && (x.1.bank? (fieldAt x.2.bits 94 3)).isNone

/-- The member whose record differs from member 0's, or both of a pair of one kind (16 R402, R408). Assumption 45. -/
def mismatch (ms : List (Tile × Rec)) : Option Nat :=
  match ms with
  | [] => none
  | (_, r0) :: rest =>
    let pair := r0.kindCode == kSend || r0.kindCode == kRecv
    (rest.find? (fun x => x.2.count != r0.count || x.2.op != r0.op ||
      (if pair then !(x.2.kindCode == (if r0.kindCode = kSend then kRecv else kSend))
        else x.2.kindCode != r0.kindCode))).map (fun x => x.1.lt)

/-! ## Multicast (16 R400, R401) -/

/-- The router of a cluster: 8y + x (02 R37). -/
def nodeOf (cl : Nat) : Nat :=
  let pc := cl % 48
  8 * (4 * (pc / 24) + pc % 24 / 8) + pc % 8

/-- The cluster of a cluster node; none for a vault node. -/
def clusterAt (die node : Nat) : Option Nat :=
  let y := node / 8
  if y = 3 ∨ y = 7 then none else some (48 * die + 24 * (y / 4) + 8 * (y % 4) + node % 8)

/-- The die of rank j among the others (16 R397). -/
def dieOfRank (die j : Nat) : Nat := if j < die then j else j + 1

/-- An entry of a router's multicast table (16 R400); one that nothing has written reads its reset value 0. Assumption 76. -/
def State.mcEntry (s : State) (die node mcid : Nat) : BitVec 16 :=
  match (s.die die).mct.find? (fun x => x.1 == node && x.2.1 == mcid) with
  | some x => x.2.2
  | none => 0

/-- The neighbour of a node: x or y one on, modulo 8. -/
def torusStep (node dx dy : Nat) : Nat := 8 * ((node / 8 + dy) % 8) + (node % 8 + dx) % 8

/-- The bridge to the die of rank j attaches at a node: (2j, y) and (2j + 1, y) for y 3 and 7 (16 R397). -/
def bridgeAt (node j : Nat) : Bool := (node / 8 == 3 || node / 8 == 7) && node % 8 / 2 == j && decide (j < 3)

/-- Where a router's entry sends a copy: E, W, N, S, then the bridges that the node has (16 R393, R400). -/
def mcNext (die node : Nat) (e : BitVec 16) : List (Nat × Nat) :=
  (if e.getLsbD 0 then [(die, torusStep node 1 0)] else []) ++
  (if e.getLsbD 1 then [(die, torusStep node 7 0)] else []) ++
  (if e.getLsbD 2 then [(die, torusStep node 0 1)] else []) ++
  (if e.getLsbD 3 then [(die, torusStep node 0 7)] else []) ++
  ([0, 1, 2] : List Nat).filterMap (fun j =>
    if e.getLsbD (6 + j) && bridgeAt node j then some (dieOfRank die j, node) else none)

/-- Follow the copies of one flit: false when one meets an entry with V = 0, or a cluster without a member. A path to a
router passes at most the 256 routers of the module. -/
def mcReach (s : State) (mcid : Nat) (clusters : List Nat) : Nat → List (Nat × Nat) → Bool
  | 0, _ => true
  | fuel + 1, front =>
    if front.isEmpty then true
    else front.all (fun x =>
        let e := s.mcEntry x.1 x.2 mcid
        e.getLsbD 15 && (!e.getLsbD 4 || (match clusterAt x.1 x.2 with
          | some c => clusters.contains c
          | none => false))) &&
      mcReach s mcid clusters fuel
        (front.flatMap (fun x => mcNext x.1 x.2 (s.mcEntry x.1 x.2 mcid))).eraseDups

/-- The multicast ID bound to a group. -/
def Domain.mcidOf (d : Domain) (g : Nat) : Option Nat := (d.mcast.find? (fun x => x.1 == g)).map (fun x => x.2)

/-- Member m's flits fail under its group's MCID (16 R401, R408): AG sends from every member, BCAST from member 0. -/
def mcFault (s : State) (d : Domain) (g : Nat) (ms : List (Tile × Rec)) (m : Nat) (x : Tile × Rec) : Bool :=
  match d.mcidOf g with
  | none => false
  | some mcid =>
    let k := x.2.kindCode
    (k == kAg || (k == kBcast && m == 0)) && !mcReach s mcid (ms.map (fun y => s.seatOf y.1.cluster)) 256
      [(dieOf x.1.cluster, nodeOf (s.seatOf x.1.cluster))]

/-- Bytes of a member's source, as a range. -/
def srcRange (x : Tile × Rec) (ofs n : Nat) : List (Nat × Nat) :=
  match x.1.bank? (fieldAt x.2.bits 72 3) with
  | some b => [(locBank x.1.cluster b (fieldAt x.2.bits 75 19 + ofs), n)]
  | none => []

/-- The part of bytes lo to lo + n - 1 that lies in block q of c bytes: its offset in the block, and its length. -/
def blockPart (c lo n q : Nat) : Nat × Nat :=
  let a := max lo (q * c)
  (a - q * c, min (lo + n) (q * c + c) - a)

/-- The source bytes of bytes lo to lo + n - 1 of member m's destination (16 R403, R404). -/
def sourceOf (ms : List (Tile × Rec)) (m : Nat) (r : Rec) (lo n : Nat) : List (Nat × Nat) :=
  let c := r.count
  let k := r.kindCode
  let blocks (base : Nat) : List (Nat × Nat) := (ms.zipIdx).flatMap (fun y =>
    let p := blockPart c lo n y.2
    if p.2 = 0 then [] else srcRange y.1 (base + p.1) p.2)
  if k = kAg then blocks 0
  else if k = kA2a then blocks (m * c)
  else if k = kRs then ms.flatMap (fun x => srcRange x (m * c + lo) n)
  else if k = kRecv then (ms.filter (fun x => x.2.kindCode == kSend)).flatMap (fun x => srcRange x lo n)
  else if k = kBcast then (ms.take 1).flatMap (fun x => srcRange x lo n)
  else []

/-- Bytes that member m of n receives. -/
def Rec.receives (r : Rec) (n m : Nat) : Nat := (chorusBytes r.kindCode n m r.count).2

/-- The destination range of a member: location and length. -/
def destRange (n m : Nat) (x : Tile × Rec) : Option (Nat × Nat) :=
  (x.1.bank? (fieldAt x.2.bits 94 3)).map (fun b =>
    (locBank x.1.cluster b (fieldAt x.2.bits 97 19), x.2.receives n m))

/-- A receiver's data or a granule that it merges with fails its check, or a flit of its transfer has been lost: of a flit
whose receiver the header does not name, at every receiver (16 R395, R407). -/
def receiveFails (s : State) (d : Domain) (g : Nat) (ms : List (Tile × Rec)) (m : Nat) (x : Tile × Rec) : Bool :=
  let n := x.2.receives ms.length m
  n != 0 && (!s.sound (sourceOf ms m x.2 0 n) || d.lostFlits.any (fun f => f.1 == g && f.2.1 == 1 &&
      (f.2.2.isNone || f.2.2 == some x.1.lt)) || (match destRange ms.length m x with
    | some r => !s.mergeSound r
    | none => false))

/-- A flit with member m's data has met a router without an entry, or a cluster without a member (16 R401). -/
def strayFlit (d : Domain) (g m : Nat) (x : Tile × Rec) : Bool :=
  d.lostFlits.any (fun f => f.1 == g && f.2.1 == 3 && (f.2.2 == some x.1.lt || (f.2.2.isNone && m == 0)))

/-- Why member m fails, if it does: DETACHED, INTEGRITY or MCID (16 R407). -/
def memberFault (s : State) (d : Domain) (g : Nat) (ms : List (Tile × Rec)) (m : Nat) (x : Tile × Rec) : Option Nat :=
  if lacksBank m ms.length x then some 2
  else if receiveFails s d g ms m x then some 1
  else if mcFault s d g ms m x || strayFlit d g m x then some 3 else none

/-- Why a collective fails: reason and logical tile, of the lowest member that fails (16 R407, R408). -/
def collectiveFault (s : State) (d : Domain) (g : Nat) (ms : List (Tile × Rec)) : Option (Nat × Nat) :=
  match mismatch ms with
  | some lt => some (4, lt)
  | none => (ms.zipIdx).findSome? (fun x => (memberFault s d g ms x.2 x.1).map (fun c => (c, x.1.1.lt)))

/-! ## Delivery (16 R403, R404) -/

/-- Bytes of a member's source. -/
def srcBytes (s : State) (x : Tile × Rec) (ofs n : Nat) : List Byte :=
  match x.1.bank? (fieldAt x.2.bits 72 3) with
  | some b => s.readBytes (locBank x.1.cluster b (fieldAt x.2.bits 75 19 + ofs)) n
  | none => List.replicate n 0

/-- Numbers of n bytes. -/
def wordsOf (n : Nat) : Nat → List Byte → List Nat
  | 0, _ => []
  | fuel + 1, l => if l.isEmpty then [] else fromLE (l.take n) :: wordsOf n fuel (l.drop n)

/-- One combination step of RS on FP32 patterns or 32-bit words. -/
def rsStep (op x y : Nat) : Nat :=
  if op = 2 then (x + y) % 2 ^ 32
  else if op = 3 then (fp32F.minmax true x y).1
  else (fp32F.add .rne false x y).1

/-- RS over the members' blocks, in member order (16 R404). -/
def rsReduce (op : Nat) (blocks : List (List Byte)) : List Byte :=
  let n := if op = 1 then 2 else 4
  let widen (x : Nat) : Nat := if op = 1 then x * 2 ^ 16 else x
  let vs := blocks.map (fun b => (wordsOf n b.length b).map widen)
  match vs with
  | [] => []
  | v :: r =>
    (r.foldl (fun a b => List.zipWith (rsStep op) a b) v).flatMap (fun x =>
      toLE n (if op = 1 then (bf16F.convert fp32F .rne x).1 else x))

/-- The bytes that member m receives. -/
def received (s : State) (ms : List (Tile × Rec)) (m : Nat) (r : Rec) : List Byte :=
  let c := r.count
  let k := r.kindCode
  if k = kAg then ms.flatMap (fun x => srcBytes s x 0 c)
  else if k = kRs then rsReduce r.op (ms.map (fun x => srcBytes s x (m * c) c))
  else if k = kA2a then ms.flatMap (fun x => srcBytes s x (m * c) c)
  else if k = kRecv then (match ms.find? (fun x => x.2.kindCode == kSend) with
    | some x => srcBytes s x 0 c
    | none => [])
  else if k = kBcast then (match ms with
    | x :: _ => srcBytes s x 0 c
    | [] => [])
  else []

/-- Every delivery of a collective: cluster, location, bytes. -/
def deliveries (s : State) (ms : List (Tile × Rec)) : List (Nat × Nat × List Byte) :=
  (ms.zipIdx).filterMap (fun x =>
    let bs := received s ms x.2 x.1.2
    match x.1.1.bank? (fieldAt x.1.2.bits 94 3) with
    | some b => if bs.isEmpty then none
      else some (x.1.1.cluster, locBank x.1.1.cluster b (fieldAt x.1.2.bits 97 19), bs)
    | none => none)

/-- Members' records end their payload. -/
def Domain.endCollective (d : Domain) (ms : List (Tile × Rec)) (g i : Nat) (bad : Option Bad) : Domain :=
  let d1 := ms.foldl (fun d x => d.setRec x.1.lt { x.2 with stage := .written, fault := bad }) d
  { d1 with collDone := d1.collDone ++ [(g, i)], lostFlits := d1.lostFlits.filter (fun x => x.1 != g) }

/-- The collective of the chorus record that tile `cur.lt` runs. -/
def onCollective (s : State) (f : Domain → Nat → Nat → List (Tile × Rec) → Out) : Out :=
  match s.dom? s.cur.dom with
  | none => .fault .noContext
  | some d =>
    match (d.tile? s.cur.lt).bind (fun t => t.current .ch) with
    | none => .fault .noContext
    | some r =>
      match d.members r.group r.coll with
      | none => .fault .noContext
      | some ms => f d r.group r.coll ms

/-- COLLECTIVE_COMMIT: every member's destination is written, then the members complete (16 R403, R405). -/
def execCollectiveCommit (s : State) : Out :=
  onCollective s (fun d g i ms =>
    let s1 := (deliveries s ms).foldl (fun s x => s.storeEngine x.1 x.2.1 x.2.2) s
    .next (s1.updDom d.seq (fun e => e.endCollective ms g i none)))

/-- Deliver each aligned 128-byte granule of a member's bytes, from offset `ofs` on, or leave it, as chance has it; a
granule whose source fails its check in `s0`, or that would merge with one that does, is left (16 R407, 06 R137;
assumption 9). -/
def deliverSome (s0 : State) (ms : List (Tile × Rec)) (m : Nat) (x : Tile × Rec) (loc : Nat) :
    Nat → Nat → List Byte → State → State
  | 0, _, _, s => s
  | fuel + 1, ofs, bs, s =>
    if bs.isEmpty then s
    else
      let n := min bs.length (128 - (loc + ofs) % 128)
      let s1 := if Config.delivered s.fresh && s0.sound (sourceOf ms m x.2 ofs n) && s0.mergeSound (loc + ofs, n)
        then s.storeEngine x.1.cluster (loc + ofs) (bs.take n) else s
      deliverSome s0 ms m x loc fuel (ofs + n) (bs.drop n) s1.tickFresh

/-- What may have landed of member m's bytes, as the sources in `s0` give them. -/
def deliverPart (s0 : State) (ms : List (Tile × Rec)) (m : Nat) (x : Tile × Rec) (s : State) : State :=
  match destRange ms.length m x with
  | some r =>
    let bs := received s0 ms m x.2
    deliverSome s0 ms m x r.1 bs.length 0 bs s
  | none => s

/-- What the receivers of a collective read of their members' sources. -/
def collectiveReads (ms : List (Tile × Rec)) : List (Nat × Nat) :=
  (ms.zipIdx).flatMap (fun x => sourceOf ms x.2 x.1.2 0 (x.1.2.receives ms.length x.2))

/-- The destination ranges of the receivers that merge with a granule failing its check. -/
def collectiveMerges (s : State) (ms : List (Tile × Rec)) : List (Nat × Nat) :=
  (ms.zipIdx).filterMap (fun x => (destRange ms.length x.2 x.1).filter (fun r => !s.mergeSound r))

/-- COLLECTIVE_FAILURE: some granules may have landed, unless the records do not match; every member's record ends in
the chorus fault (16 R407, R408). The errors that the receivers met count once (18 R435). -/
def execCollectiveFailure (s : State) : Out :=
  onCollective s (fun d g i ms =>
    match collectiveFault s d g ms with
    | none => .fault .noContext
    | some (reason, lt) =>
      let s1 := if reason = 4 then s
        else ((ms.zipIdx).foldl (fun s1 x => deliverPart s ms x.2 x.1 s1) s).countFlaws (collectiveReads ms ++ collectiveMerges s ms)
      .next (s1.updDom d.seq (fun e => e.endCollective ms g i (some (cChorus, reason * 2 ^ 12 + lt, 0)))))

end Sys2Proof.Machine
end

