-- ==== Sys2Proof/Machine/Timeline.lean ====
section
/-!
DEFINITION. The tick of a domain (09 R200-R226): completions, what holds it, the releases, the deadline faults, the
deferred faults, and the tick's end.
-/

namespace Sys2Proof.Machine

/-! ## Completions (01 R32, 09 R201, 10 R237, 08 R189-R191) -/

/-- A result enters: its flags enter FLAGS; when one of them is enabled the result stays suppressed in its latch and the
trap is taken; else its destination is written. -/
def Domain.complete (d : Domain) (lt : Nat) (f : Flight) : Domain :=
  match d.tile? lt with
  | none => d
  | some t =>
    let fl := orFlags f.raised
    let trap := t.trapen &&& fl
    let d1 :=
      if trap != 0 then
        (d.updTile lt (fun t => { t with
          flags := t.flags ||| fl
          laneflg := laneflgOf trap f.raised
          flights := t.flights.map (fun g => if g = f then { g with cause := cFp, raised := [] } else g) })).raise
            ⟨d.dtick, lt, colIdx f.col, cFp, 0⟩ 0
      else d.updTile lt (fun t => ({ t with flags := t.flags ||| fl, flights := t.flights.erase f }).enter f)
    match d1.tile? lt with
    | some u => if u.dueFlight d.dtick then d1 else d1.settleGuards lt d.dtick
    | none => d1

/-- COLUMN_RESULT_COMPLETION. -/
def execColumnResultCompletion (s : State) : Out :=
  onDom s (fun d t => match firstDue d.dtick t.flights with
    | some f => s.updDom d.seq (fun e => e.complete t.lt f)
    | none => s)

/-- DEFERRED_FOOTPRINT_FAULT: a fault whose tick has come is raised, its check complete (06 R158). -/
def execDeferredFootprintFault (s : State) : Out :=
  match s.dom? s.cur.dom with
  | none => .fault .noContext
  | some d => match d.dueDeferred with
    | none => .fault .noContext
    | some x => .next (s.updDom d.seq (fun e => e.raiseDeferred x))

/-! ## What a tick waits for (09 R220) -/

/-- Class and spaces of an LS word's access. -/
def lsClass (t : Tile) : Instr → Option (BitVec 4 × BitVec 5)
  | .ldsV _ c .. => some (c, spK)
  | .ldsD _ c .. => some (c, spK)
  | .stsV _ c .. => some (c, spK)
  | .stsE _ c .. => some (c, spK)
  | .ldsG _ c .. => some (c, spK)
  | .stsS _ c .. => some (c, spK)
  | .ldsW32 _ c .. => some (c, spK)
  | .ldsW64 _ c .. => some (c, spK)
  | .stsW32 _ c .. => some (c, spK)
  | .stsW64 _ c .. => some (c, spK)
  | .amos _ c .. => some (c, spK)
  | .waitw _ c .. => some (c, spK)
  | .amog _ c _ b _ => some (c, globSpace (t.sval b))
  | .waitg _ c _ b _ => some (c, globSpace (t.sval b))
  | .ldgW64 _ c b o => some (c, globSpace (lsAddr t b 8 o))
  | .stgW64 _ c _ b o => some (c, globSpace (lsAddr t b 8 o))
  | .ldgV _ c b o => some (c, globSpace (lsAddr t b 128 o))
  | .stgV _ c _ b o => some (c, globSpace (lsAddr t b 128 o))
  | .ldgD _ c b _ => some (c, globSpace (t.sval b))
  | .lda _ c .. => some (c, spA)
  | .sta _ c .. => some (c, spA)
  | _ => none

/-- The bytes that a store word writes at once, as location ranges (05 R116). -/
def storeRanges (s : State) (t : Tile) : Instr → List (Nat × Nat)
  | .stsV _ _ _ b o => one (bankAt t (lsAddr t b 128 o) 128) 128
  | .stsW32 _ _ _ b o => one (bankAt t (lsAddr t b 4 o) 4) 4
  | .stsW64 _ _ _ b o => one (bankAt t (lsAddr t b 8 o) 8) 8
  | .amos _ _ _ b o => one (bankAt t (t.sval b) (aopSize o)) (aopSize o)
  | .stsE _ _ _ b o => (match taggedAt s t b o true with
    | .ok (k, ofs, _, n) => [(locBank t.cluster k ofs, n)]
    | .error _ => [])
  | .stsS _ _ _ b i => (match gatherAt t (t.sval b) with
    | .ok (k, o) => (gatherOffsets o 4 (t.vreg i)).map (fun a => (locBank t.cluster k a, 4))
    | .error _ => [])
  | .sta _ _ _ b h => (match accAt (t.sval b) with
    | .ok (a, r) => [(accLoc t a r (if h then 32 else 0), 256)]
    | .error _ => [])
  | _ => []
where
  one (x : Except Bad (Nat × Nat)) (n : Nat) : List (Nat × Nat) :=
    match x with
    | .ok (k, ofs) => [(locBank t.cluster k ofs, n)]
    | .error _ => []

/-- Some byte lies in a frozen line. -/
def meetsFrozen (c : Cluster) (rs : List (Nat × Nat)) : Bool := rs.any (fun r => c.frozen.any (fun l => rangeMeets r (l, 256)))

/-- Entries of an engine's queue (11 R274). -/
def Tile.queueLen (t : Tile) (g : Engine) : Nat := (t.engine g).entries.length

/-- A window of a tile waits for the attach of a BMAP (11 R282). -/
def State.bmapPending (s : State) (t : Tile) : Bool :=
  t.wins.any (fun w => match w with
    | .pend b => !s.inGive t.cluster b
    | _ => false)

/-- The domain that an RTE of the supervisor on a die would resume is not ready: a latch is still fetching, or a bank of
a BMAP has still to attach (11 R271, R282). -/
def rteWaits (s : State) (die : Nat) : Bool :=
  match s.frameOf die with
  | some (d, _) => !d.tiles.all (fun t => t.latchesReady && !s.bmapPending t)
  | none => false

/-- The domain has a partner on a host (02 R49). -/
def State.emulated (s : State) (d : Domain) : Bool := d.clusterList.any (fun c => s.fused.contains c)

/-- The shadow plane that serves a partner's banks has other work: an engine of the partner's own tiles, or a domain on the
host itself (02 R49). -/
def State.contended (s : State) (d : Domain) : Bool :=
  d.tiles.any (fun t => s.fused.contains t.cluster && (t.engines.any (fun q => q.run.isSome) ||
    s.domains.any (fun e => !e.phase.over && e.tiles.any (fun u => u.cluster == s.seatOf t.cluster))))

/-- The bank service of an emulated domain is late now: with nothing else to serve it keeps the architected latencies, as in
20 R443 (02 R49, R50; assumption 8). -/
def State.bankLate (s : State) (d : Domain) : Bool := s.emulated d && s.contended d && Config.bankLate s.fresh

/-- The domain as it stands now, as a sample. -/
def State.present (s : State) (d : Domain) : Past where
  tick := d.dtick
  mem := s.mem
  tiles := d.tiles
  gops := d.gops
  frozen := d.clusterList.map (fun c => (c, (s.cluster c).frozen))
  tlbs := s.tlbs
  late := s.bankLate d

/-- What the probes of the present tick saw: the domain a lead before, or the earliest sample since its launch or its
last resumption (09 R203, R220, R221). -/
def State.probeView (s : State) (d : Domain) : Past :=
  match d.hist.find? (fun p => decide (p.tick + d.lead ≤ d.dtick)) with
  | some p => p
  | none => d.hist.getLast?.getD (s.present d)

/-- The record of a tile had reached a stage when p was sampled; a record pushed since had not. -/
def Past.recIs (p : Past) (lt id : Nat) (f : Rec → Bool) : Bool :=
  match p.tiles[lt]? with
  | some t => t.recs.any (fun r => r.id == id && f r)
  | none => false

/-- A request had come when p was sampled. -/
def Past.gopCame (p : Past) (id : Nat) : Bool := p.gops.any (fun g => g.id == id && !g.pending)

/-- The satisfying point of a SEMWAIT had been applied when p was sampled (06 R145). -/
def Past.semMet (p : Past) (t : Tile) (now : Nat) (k : BitVec 4) (n : Nat) : Bool :=
  let l := t.sem k
  n == 0 || (match satPoint l now t.lt n, p.tiles[t.lt]? with
    | some q, some u => (l.take q).all (fun o => (u.sem k).any (fun x => x.ev == o.ev && x.kind == o.kind && x.applied))
    | _, _ => false)

/-- The entries of an engine's queue that p showed, and those that the stream has placed since, are below its depth
(11 R274). -/
def Past.queueMet (p : Past) (d : Domain) (t : Tile) (g : Engine) : Bool :=
  let old := match p.tiles[t.lt]? with
    | some u => u.queueLen g
    | none => 0
  let pushes := (t.recs.filter (fun r => r.eng == g && decide (p.tick ≤ r.tick))).length
  let marks := (d.evs.filter (fun e => e.lt == t.lt && decide (p.tick ≤ e.tick) && (match e.kind with
    | .mark h _ => h == g
    | _ => false))).length
  decide (old + pushes + marks < 16)

/-- The record failed in a way that ends a wait on its arrival word in its fault: as 13 R345 has every record do, and 16
R409 a failed collective; but a wait on a collective that failed for a window without a bank goes on (06 R169; assumption
110). Assumption 110. -/
def Rec.endsWait (r : Rec) : Bool :=
  match r.fault with
  | some (c, detail, _) => !(c == cChorus && detail / 2 ^ 12 == 2)
  | none => false

/-- The word that a WAITW waits on met its condition in p: its window attached, the word as compared. A word that fails
its check, or that a failed record wrote, ends the wait in its fault (04 R103, R104, 13 R345). -/
def State.waitwMet (s : State) (d : Domain) (t : Tile) (p : Past) (a : W64) (v : W32) (e : WaitCond) : Bool :=
  if 2 ^ 22 ≤ a.toNat || a.toNat % 4 != 0 || t.win (a.toNat / 2 ^ 19) == .empty then true
  else match (p.tiles[t.lt]?).bind (fun u => u.bank? (a.toNat / 2 ^ 19)) with
    | none => false
    | some k =>
      let loc := locBank t.cluster k (a.toNat % 2 ^ 19)
      waitHolds e (BitVec.ofNat 32 (fromLE (readCellList p.mem loc 4))) v || !s.sound [(loc, 4)] ||
        (d.arrivedIn s t [(loc, 4)]).any (fun r => r.endsWait && p.recIs t.lt r.id (fun x => x.stage == .complete))

/-- The domain once the class fence, SEMWAIT or WAITRV that the tile issues in this tick, if any, stands: it comes before
the LS word of the tick (06 R142, R145, R146). -/
def Domain.withDueSync (d : Domain) (t : Tile) : Domain :=
  match t.dueWord .sq with
  | some (.semwait _ k c, _) => if c = 0 then d else d.addEv (d.semwaitEv t k c)
  | some (.waitrv _ m n, _) => d.addEv (d.waitrvEv t m n)
  | some (.cfenceLo _ m a sp, _) => d.addEv (newEv d t .sq (.fence (m.setWidth 16) a sp))
  | some (.cfenceHi _ m a sp, _) => d.addEv (newEv d t .sq (.fence (m.setWidth 16 <<< 8) a sp))
  | _ => d

/-- The stores and AMOs that an LS read of a tile must see, of its own and of the tiles that happen before it, have
performed when p was sampled (06 R154, R155, 13 R336). -/
def Domain.writersCame (d : Domain) (t : Tile) (p : Past) (e : Ev) : Bool :=
  d.gops.all (fun g => g.kind == .load || p.gopCame g.id || !rangesMeet (d.gopBytes g) e.reads ||
    (g.lt != t.lt && !(match d.ev? (g.id + 1) with
      | some a => d.hb a e
      | none => false)))

/-- The word that a WAITG waits on met its condition in p, the writes before it performed, and it can be reached (13 R336,
06 R155, 18 R423); a failed check or walk ends the wait in its fault. -/
def State.waitgMet (s : State) (d : Domain) (t : Tile) (p : Past) (cls : BitVec 4) (a v : W64) (e : WaitCond) : Bool :=
  match globCheck s d a 8 false false with
  | some _ => true
  | none => match resolveFor s d t false a with
    | .error _ => true
    | .ok q =>
      let x : W64 := if q.discarded then 0 else BitVec.ofNat 64 (fromLE (readCellList p.mem q.loc 8))
      let d1 := d.withDueSync t
      !s.cutOff q.loc &&
        d1.writersCame t p { newEv d1 t .ls .access with cls := some cls, spaces := globSpace a, reads := [(q.loc, 8)] } &&
        (waitHolds e x v || (!q.discarded && !s.sound [(q.loc, 8)]))

/-- The condition of a word due, as p shows it (09 R220). -/
def wordMet (s : State) (d : Domain) (t : Tile) (p : Past) : Instr → Bool
  | .semwait _ k c => p.semMet t d.dtick k c.toNat
  | .waitrv _ m n => (maskEngines m).all (fun g => match p.tiles[t.lt]? with
    | some u => !(u.rdv.getD (engIdx g) 0).ult n
    | none => false)
  | .give _ w _ _ _ => (match t.bank? w.toNat with
    | some b => (t.recs.filter (fun r => decide (r.tick + d.lead ≤ d.dtick) && namesBank t.cluster b r &&
        !r.refusedAt r.tick)).all (fun r => p.recIs t.lt r.id (fun x => !x.live))
    | none => true)
  | .prepRet .. =>
    let n := t.stack.length + t.spills
    n == 0 || (match p.tiles[t.lt]? with
      | some u => decide (u.spills < n)
      | none => false)
  | .mq .. => p.queueMet d t .me
  | .gq .. => p.queueMet d t .gu
  | .cq .. => p.queueMet d t .ce
  | .hq .. => p.queueMet d t .ch
  | .mark _ m _ => (maskEngines m).all (fun g => p.queueMet d t g)
  | .rte _ => !rteWaits s (dieOf t.cluster)
  | .waitw _ _ v b e => s.waitwMet d t p (t.sval b) ((t.sval v).setWidth 32) e
  | .waitg _ c v b e => s.waitgMet d t p c (t.sval b) (t.sval v) e
  | .lda _ _ b _ h => (match accAt (t.sval b) with
    | .ok (a, r) => (t.accWriters d.dtick (accLoc t a r (if h then 32 else 0))).all (fun x =>
        p.recIs t.lt x.id (fun y => y.stage == .complete))
    | .error _ => true)
  | _ => true

/-- No line of the ranges was frozen in p, nor frozen since by a PFENCE of the tile's own; a line frozen otherwise and
not yet journaled holds the store as well (05 R116; assumption 83). -/
def State.linesMet (s : State) (d : Domain) (t : Tile) (p : Past) (rs : List (Nat × Nat)) : Bool :=
  let clear (ls : List Nat) : Bool := !rs.any (fun r => ls.any (fun l => rangeMeets r (l, 256)))
  clear (assoc p.frozen t.cluster []) && clear (s.cluster t.cluster).frozen &&
    d.froze.all (fun x => x.2.1 != t.lt || decide (x.1 < p.tick) || clear x.2.2)

/-- A bank access of a partner in emulated mode, whose service p found late (02 R49, 09 R220). -/
def servedLate (s : State) (t : Tile) (p : Past) (i : Instr) : Bool :=
  p.late && s.fused.contains t.cluster && (match lsClass t i with
    | some (_, sp) => sp == spK
    | none => false)

/-- The conditions of an LS word's access, as p shows them: its fence's earlier accesses have performed, its lines are not
frozen, and its bank is served in time (06 R142, 05 R116, 02 R49). -/
def accessMet (s : State) (d : Domain) (t : Tile) (p : Past) (i : Instr) : Bool :=
  let d1 := d.withDueSync t
  (match lsClass t i with
    | some (c, sp) => !d1.fenceWaits p { newEv d1 t .ls .access with cls := some c, spaces := sp }
    | none => true) && s.linesMet d t p (storeRanges s t i) && !servedLate s t p i

/-- The tile still issues words of a column in the present tick: VX, XC and LS end with the tick of its HALT. -/
def Tile.issues (t : Tile) (now : Nat) (c : Column) : Bool :=
  match t.haltTick with
  | none => true
  | some h => h == now && c != .sq

/-- The page numbers, with the owner above, that the bytes from an address up to another meet. -/
def pagesOf (a z : W64) : List W64 :=
  let first := a.toNat / 4096
  (List.range ((z.toNat + 4095) / 4096 - first)).map (fun i => BitVec.ofNat 64 (4096 * (first + i)))

/-- The block at an address lies in pages that the stations hold: its fetch misses nothing (09 R226's example, R205). -/
def State.blockResident (s : State) (d : Domain) (t : Tile) (tlbs : List (List TlbEntry)) (a : W64) : Bool :=
  match fetchBlock s d t a with
  | .ok b => (pagesOf a b.after).all (fun x => residentAt tlbs d.part x)
  | .error _ => false

/-- A continuation was in place with what a tile's loader held (09 R205). -/
def Tile.entryMet (t : Tile) (loader : List Fetch) : Bool :=
  match ({ t with loader := loader }).held t.continuation.1 with
  | some (.got _) => true
  | some (.failed ..) => true
  | some .asked => false
  | none => false

/-- The continuation of a tile at a boundary is in place, or its fetch has yet to be asked for. -/
def Tile.ready (t : Tile) : Bool :=
  match t.held t.continuation.1 with
  | some (.got _) => true
  | some (.failed ..) => true
  | some .asked => false
  | none => true

/-- Some tile enters a block in this tick whose continuation was not in place at the probe; one in resident pages was. -/
def State.entryMissed (s : State) (d : Domain) (p : Past) : Bool :=
  d.tiles.any (fun t => t.atBoundary && !(match p.tiles[t.lt]? with
    | some u => t.entryMet u.loader || s.blockResident d t p.tlbs t.continuation.1
    | none => false))

/-- The words due of a tile with their conditions false in p. -/
def tileMisses (s : State) (d : Domain) (p : Past) (t : Tile) : List Instr :=
  columns.filterMap (fun c => if t.issues d.dtick c then (match t.dueWord c with
    | some (i, _) => if wordMet s d t p i && (c != .ls || accessMet s d t p i) then none else some i
    | none => none) else none)

/-- Requests whose answer or performance belongs to this tick and had not come when p was sampled. -/
def Domain.lateGops (d : Domain) (p : Past) : List GOp :=
  d.gops.filter (fun g => g.due == d.dtick && !p.gopCame g.id)

/-- Some condition of a word or request of this tick was false at its probe (09 R221). -/
def State.probeFails (s : State) (d : Domain) : Bool :=
  let p := s.probeView d
  !(d.lateGops p).isEmpty || d.tiles.any (fun t => !(tileMisses s d p t).isEmpty)

/-- What was false at its probe is false still (09 R221). -/
def holdNeeded (s : State) (d : Domain) : Bool :=
  let p := s.probeView d
  let now := s.present d
  (d.lateGops p).any (fun g => g.pending) || d.checkMissed d.dtick d.gops ||
    d.tiles.any (fun t => (tileMisses s d p t).any (fun i => (tileMisses s d now t).contains i))

/-! ## Holds and deadlines (09 R221, R225) -/

/-- HOLD_RELEASE: the release is broadcast, its lead ahead. -/
def execHoldRelease (s : State) : Out :=
  match s.dom? s.cur.dom with
  | none => .fault .noContext
  | some d => .next (s.updDom d.seq (fun e => { e with hold := some ⟨some d.lead⟩ }))

/-- HOLD_LEAD_EXPIRY: the lead counts in HOLDCNT and the tick issues; after RTE the lead is no held time. -/
def execHoldLeadExpiry (s : State) : Out :=
  match s.dom? s.cur.dom with
  | none => .fault .noContext
  | some d => .next (s.updDom d.seq (fun e =>
      if e.resume then { e with resume := false }
      else { e with holdcnt := e.holdcnt + d.lead, hold := none, released := true }))

/-- DEADLINE_FAULT_TICK: the tick budget is reached, on every tile (09 R225). -/
def execDeadlineFaultTick (s : State) : Out :=
  match s.dom? s.cur.dom with
  | none => .fault .noContext
  | some d => .next (s.updDom d.seq (fun e => e.raiseAll d.dtick 8 cDeadline 1))

/-- DEADLINE_FAULT_HOLD: HOLDCNT passes the hold budget at the held tick. -/
def execDeadlineFaultHold (s : State) : Out :=
  match s.dom? s.cur.dom with
  | none => .fault .noContext
  | some d => .next (s.updDom d.seq (fun e =>
      ({ e with holdcnt := d.holdbud + 1 }).raiseAll d.dtick 8 cDeadline 2))

/-- The address of the WAITG that a tile issues in this tick. -/
def State.polled (s : State) (d : Domain) (t : Tile) : Option W64 :=
  if !t.issues d.dtick .ls then none
  else match t.dueWord .ls with
    | some (.waitg _ _ _ b _, _) => if (globCheck s d (t.sval b) 8 false false).isNone then some (t.sval b) else none
    | _ => none

/-- A WAITG that is sampled uses its page, whether or not its condition is met (03 R71, 13 R336). -/
def State.pollWaits (s : State) (k : Nat) : State :=
  match s.dom? k with
  | none => s
  | some d => (d.tiles.filterMap (s.polled d)).foldl (fun s va => s.useRead d va) s

/-- One more cycle of a hold. -/
def State.holdCycle (s : State) (k : Nat) : State :=
  ((s.updDom k (fun e => { e with holdcnt := e.holdcnt + 1 })).pollWaits k).tickFresh

/-- The entries of a tick into blocks are probed before they are made, and the checks of its later faults before these are
raised (09 R220). -/
def State.entryTick (s : State) (k : Nat) : State :=
  match s.dom? k with
  | none => s
  | some d =>
    let p := s.probeView d
    s.updDom k (fun e => { e with begun := 1, probeMiss := s.entryMissed d p || d.checkMissed p.tick p.gops })

/-- The probes of a tick's words and requests, those of WAITG words at their pages; and the sample that later probes look back at. A hold that an entry of the
tick took stands: a tick has one hold (09 R221). -/
def State.probeTick (s : State) (k : Nat) : State :=
  match s.dom? k with
  | none => s
  | some d =>
    let d1 := { d with hist := (s.present d :: d.hist).take (d.lead + 1) }
    let miss := d.probeMiss || s.probeFails d1
    ((s.updDom k (fun e => { e with begun := 3, hist := d1.hist, probeMiss := miss })).pollWaits k).tickFresh

/-- The domain takes a hold at its present tick. -/
def State.takeHold (s : State) (k : Nat) : State := s.updDom k (fun e => { e with hold := some ⟨none⟩, wasHeld := true })

/-- Increments that have arrived are applied in signal order, as far as none before them is missing (06 R144). -/
def applyArrived : List SemOp → List SemOp
  | [] => []
  | o :: r => if o.applied || o.arrived then { o with applied := true } :: applyArrived r else o :: r

/-- Those of a domain's semaphores, up to a source tick. -/
def Domain.settleSems (d : Domain) (upTo : Nat) : Domain :=
  { d with tiles := d.tiles.map (fun t => { t with sems := t.sems.map (fun l =>
      applyArrived (l.filter (fun o => decide (o.tick ≤ upTo))) ++ l.filter (fun o => decide (upTo < o.tick))) }) }

/-- The end of a tick: the count advances, every tile that has not halted goes on to its next block tick, the cuts of the
tick are taken, and the increments of this and earlier ticks that can be applied are. -/
def State.endTick (s : State) (k : Nat) : State :=
  match s.dom? k with
  | none => s
  | some d =>
    ((s.updDom k (fun e => { e with
      dtick := e.dtick + 1
      released := false
      wasHeld := false
      begun := 0
      probeMiss := false
      froze := e.froze.filter (fun x => decide (d.dtick < x.1 + d.lead))
      tiles := e.tiles.map (fun t => if t.haltTick.isSome then t else { t with btick := t.btick + 1 }) })).takeCuts k
        d.dtick).updDom k (fun e => e.settleSems d.dtick)

end Sys2Proof.Machine
end

