-- ==== Sys2Proof/Machine/Power.lean ====
section
/-!
DEFINITION. Power: the gating handshake of a cluster (05 R127-R129), the rails and the control interval (17 R410-R414), the
cap, floor and boost registers (17 R415, R416), the power log (17 R417) and the sampler (17 R419, R420).
-/

namespace Sys2Proof.Machine

/-! ## Cluster power registers (05 R127, R128) -/

/-- The code of a rail in CPCTL, CPSTAT, PWRLOG and sample records. -/
def railCode : Rail → Nat
  | .vh => 0
  | .vl => 1
  | .off => 2

/-- CPSTAT. -/
def Cluster.cpstat (c : Cluster) : W64 :=
  BitVec.ofNat 64 (c.wakepend.toNat * 32 + railCode c.rail * 8 + c.clkoff.toNat * 4 + c.sealed.toNat * 2 + c.qack.toNat)

def qreqBit : W64 := 1
def clkgateBit : W64 := 2
def railBits : W64 := 12
def wakeenBit : W64 := 16

def Cluster.qreq (c : Cluster) : Bool := c.cpctl.getLsbD 0
def Cluster.clkgate (c : Cluster) : Bool := c.cpctl.getLsbD 1
def Cluster.railField (c : Cluster) : BitVec 2 := c.cpctl.extractLsb' 2 2
def Cluster.wakeen (c : Cluster) : Bool := c.cpctl.getLsbD 4

/-- The RAIL field of CPCTL replaced. -/
def withRail (x : W64) (code : Nat) : W64 := (x &&& ~~~railBits) ||| BitVec.ofNat 64 (code * 4)

/-! ## The gating handshake (05 R129) -/

/-- Step 1: every domain with a tile on the cluster latches a quiesce request (15 R390). -/
def State.qreqSet (s : State) (cl : Nat) : State :=
  let s1 := s.updCluster cl (fun c => { c with cpctl := c.cpctl ||| qreqBit })
  { s1 with domains := s1.domains.map (fun d => if s.onCluster d cl then d.request cQuiesce else d) }

/-- CPCTL_QREQ_SET. -/
def execCpctlQreqSet (cluster : Nat) (s : State) : Out := .next (s.qreqSet cluster)

/-- An engine of a tile still writes: a record that is no chorus record has its completion to come (15 R385). -/
def Tile.enginesBusy (t : Tile) : Bool := t.recs.any (fun r => r.stage == .written && r.eng != .ch)

/-- Every domain on a cluster is halted and its engines have stopped. -/
def State.quiet (s : State) (cl : Nat) : Bool :=
  s.domains.all (fun d => !s.onCluster d cl || d.phase == .lost ||
    (d.phase == .halted && !d.fatal && d.tiles.all (fun t => !t.enginesBusy)))

/-- QUIESCE_ACK: QACK rises on the cluster that `cur` names. -/
def execQuiesceAck (s : State) : Out := .next (s.updCluster s.cur.cluster (fun c => { c with qack := true }))

/-- Step 3: retention capture begins. -/
def State.clkgateSet (s : State) (cl : Nat) : State :=
  if (s.cluster cl).qack && !(s.cluster cl).clkgate then
    s.updCluster cl (fun c => { c with cpctl := c.cpctl ||| clkgateBit, capturing := true })
  else s

/-- CPCTL_CLKGATE_SET. -/
def execCpctlClkgateSet (cluster : Nat) (s : State) : Out := .next (s.clkgateSet cluster)

/-- RETENTION_CAPTURE_DONE: CLKOFF rises. -/
def execRetentionCaptureDone (s : State) : Out :=
  .next (s.updCluster s.cur.cluster (fun c => { c with capturing := false, clkoff := true }))

/-- Step 3 withdrawn: the clock restarts from the retained state. -/
def State.clkgateClear (s : State) (cl : Nat) : State :=
  if (s.cluster cl).qack && (s.cluster cl).rail != .off then
    s.updCluster cl (fun c => { c with cpctl := c.cpctl &&& ~~~clkgateBit, capturing := false, clkoff := false })
  else s

/-- CPCTL_CLKGATE_CLEAR. -/
def execCpctlClkgateClear (cluster : Nat) (s : State) : Out := .next (s.clkgateClear cluster)

/-- Step 4: the rail goes to OFF. -/
def State.railOff (s : State) (cl : Nat) : State :=
  if (s.cluster cl).clkoff && (s.cluster cl).sealed && (s.cluster cl).rail != .off then
    s.updCluster cl (fun c => { c with
      cpctl := withRail c.cpctl 2
      before := c.rail
      switching := some .off })
  else s

/-- CPCTL_RAIL_OFF. -/
def execCpctlRailOff (cluster : Nat) (s : State) : Out := .next (s.railOff cluster)

/-- RAIL ← 00 or 01 chooses the rail that no control overrides; a cluster in brumation leaves it by CPWAKE alone, which
sets RAIL itself (17 R412, 05 R129). -/
def State.railSelect (s : State) (cl : Nat) (vl : Bool) : State :=
  if (s.cluster cl).rail != .off && (s.cluster cl).switching != some .off && !(s.cluster cl).wakepend then
    s.updCluster cl (fun c => { c with cpctl := withRail c.cpctl vl.toNat })
  else s

/-- CPCTL_RAIL_SELECT. -/
def execCpctlRailSelect (cluster : Nat) (vl : Bool) (s : State) : Out := .next (s.railSelect cluster vl)

/-- RAIL_SWITCH_DONE: the multiplexer has switched (17 R410). -/
def execRailSwitchDone (s : State) : Out :=
  .next (s.updCluster s.cur.cluster (fun c => match c.switching with
    | some r => { c with rail := r, switching := none }
    | none => c))

/-- Step 5 begins: the rail before OFF comes back, and the restore runs on it (23 R455). -/
def State.wake (s : State) (cl : Nat) : State :=
  if (s.cluster cl).rail == .off && (s.cluster cl).wakeen then
    s.updCluster cl (fun c => { c with wakepend := true, switching := some c.before })
  else s

/-- CPWAKE. -/
def execCpwake (cluster : Nat) (s : State) : Out := .next (s.wake cluster)

/-- Bank b of a cluster reloads from its image when it is in use; a bank of the pool comes back with free bytes. -/
def State.reloadBank (s : State) (cl b : Nat) : State :=
  let held := match (s.cluster cl).banks.getD b .free with
    | .used => true
    | .leaving => true
    | .free => false
    | .clearing => false
  let s1 := s.clearRange (locBank cl b 0) (2 ^ 19)
  if held then s1.copyOver (locShadow cl (planeBank b)) (locBank cl b 0) (2 ^ 19)
  else { s1.writeBytes (locBank cl b 0) (freeBytes s.fresh (2 ^ 19)) with fresh := s.fresh + 2 ^ 19 }

/-- WAKE_RESTORE_DONE: on the rail before OFF the retention cells and the banks are restored, and RAIL, CLKGATE, CLKOFF
and WAKEPEND follow (05 R129, step 5). -/
def execWakeRestoreDone (s : State) : Out :=
  let cl := s.cur.cluster
  let s1 := (List.range 16).foldl (fun s b => s.reloadBank cl b) s
  .next (s1.updCluster cl (fun c => { c with
    cpctl := withRail c.cpctl (railCode c.before) &&& ~~~clkgateBit
    rail := c.before
    switching := none
    clkoff := false
    wakepend := false }))

/-- A latch re-injected at a halt tick: it enters at its remaining latency, and one that raised its flags raises them no
more (15 R383). -/
def Flight.reinject (f : Flight) (h : Nat) : Flight :=
  { f with due := max f.due h, cause := 0, raised := if f.cause = 0 then f.raised else [] }

/-- A domain that a quiesce alone halted goes on at its halt tick once no cluster of it is quiesced: its halted state
holds nothing to handle (05 R129, step 6). -/
def Domain.resumeHalted (d : Domain) : Domain :=
  { d with
    phase := .running
    resume := true
    parked := false
    haltAt := none
    causes := []
    chief := none
    hist := []
    released := false
    begun := 0
    tiles := d.tiles.map (fun t => { t with
      faddr := 0
      flights := t.flights.map (fun f => f.reinject d.dtick) }) }

/-- The domain goes on: its latches are re-injected at their remaining latencies, its release lead runs, and tiles whose
block failed validation read it again (09 R209, 15 R383). -/
def State.resumeFrame (s : State) (k : Nat) : State :=
  match s.dom? k with
  | none => s
  | some d =>
    (d.tiles.filter (fun t => t.badBlock)).foldl (fun s t => s.retryBlock k t.lt) (s.updDom k (fun e => e.resumeHalted))

/-- A domain whose contexts are held stands halted, every cause of its halt a request, and nothing is owed. -/
def State.requestsOnly (s : State) (d : Domain) : Bool :=
  d.phase == .halted && !s.parkedOut d && d.causes.all (fun c => requestCode c.code) &&
    d.tiles.all (fun t => t.flights.all (fun f => !f.owed))

/-- Step 6: the quiesce is released, a SEAL still under way no longer raises SEALED, and each domain resumes on its halt
tick. Assumption 67. -/
def State.qreqClear (s : State) (cl : Nat) : State :=
  let c := s.cluster cl
  if !c.wakepend && c.rail != .off then
    let s1 := s.updCluster cl (fun c => { c with cpctl := c.cpctl &&& ~~~qreqBit, qack := false, sealed := false, sealReq := false })
    { s1 with domains := s1.domains.map (fun d =>
        if s.onCluster d cl && s.requestsOnly d && d.causes.all (fun c => c.code == cQuiesce) &&
            (s.runsOn d).all (fun k => !(s1.cluster k).qreq)
        then d.resumeHalted else d) }
  else s

/-- CPCTL_QREQ_CLEAR. -/
def execCpctlQreqClear (cluster : Nat) (s : State) : Out := .next (s.qreqClear cluster)

/-- A write of CPCTL from old to new contents, field by field: WAKEEN, then each other field's own condition; reserved
bits read as zero (05 R127, R129, 00 R12). -/
def State.writeCpctl (s : State) (cl : Nat) (x : W64) : State :=
  let old := (s.cluster cl).cpctl
  let s1 := s.updCluster cl (fun c => { c with cpctl := (x &&& wakeenBit) ||| (c.cpctl &&& 15) })
  let s2 := if x.getLsbD 0 && !old.getLsbD 0 then s1.qreqSet cl else s1
  let s3 := if x.getLsbD 1 && !old.getLsbD 1 then s2.clkgateSet cl
    else if !x.getLsbD 1 && old.getLsbD 1 then s2.clkgateClear cl else s2
  let r := (x.extractLsb' 2 2).toNat
  let s4 := if x.extractLsb' 2 2 = old.extractLsb' 2 2 || r = 3 then s3
    else if r = 2 then s3.railOff cl else s3.railSelect cl (r == 1)
  if !x.getLsbD 0 && old.getLsbD 0 then s4.qreqClear cl else s4

/-! ## The power log (17 R417) -/

/-- A PWRLOG entry. -/
def logEntry (interval cluster rail event : Nat) : W64 :=
  BitVec.ofNat 64 (2 ^ 63 + interval % 2 ^ 32 * 2 ^ 24 + cluster % 256 * 2 ^ 16 + rail * 256 + event)

/-- Add an entry; a full FIFO takes it in place of its newest, with LOST. -/
def pushLog (l : List W64) (e : W64) : List W64 :=
  if l.length < 64 then l ++ [e] else l.take 63 ++ [e ||| (1 <<< 62)]

def State.log (s : State) (cl rail event : Nat) : State :=
  s.updDie (dieOf cl) (fun q => { q with pwrlog := pushLog q.pwrlog (logEntry q.intervals cl rail event) })

/-- Read and remove the oldest entry. -/
def State.popLog (s : State) (die : Nat) : W64 × State :=
  ((s.die die).pwrlog.headD 0, s.updDie die (fun q => { q with pwrlog := q.pwrlog.tail }))

/-- PWRLOG_READ. -/
def execPwrlogRead (die : Nat) (s : State) : Out :=
  let r := s.popLog die
  .next { r.2 with answers := r.2.answers ++ [.data (toLE 8 r.1.toNat)] }

/-! ## Cap, floors and boosts (17 R415, R416) -/

/-- The cap in force: above 3,200 it acts as 3,200. -/
def capOf (w : BitVec 16) : Nat := min w.toNat 3200

/-- The watts guaranteed to the partitions, by PFLOOR0 to PFLOOR15. -/
def State.floorSum (s : State) : Nat := (s.parts.map (fun p => p.pfloor.toNat)).sum

/-- A boundary: the written cap and floors are in force from now on (17 R416). -/
def State.takeCap (s : State) : State :=
  { s with capNow := s.pcap, parts := s.parts.map (fun p => { p with floorNow := p.pfloor }) }

/-- SEQ counts the write, CODE tells what came of it. -/
def capStatus (old : W64) (code : Nat) : W64 :=
  BitVec.ofNat 64 (((old.extractLsb' 8 8).toNat + 1) % 256 * 256 + code)

/-- PCAP, in force from the next boundary: refused below 180 W and below 180 W plus the floors; a refusal is logged on every die (assumption 19). -/
def State.writePcap (s : State) (value : W64) : State :=
  let w := value.setWidth 16
  let code := if capOf w < 180 then 1 else if capOf w < 180 + s.floorSum then 2 else 0
  let s1 := { s with pcapst := capStatus s.pcapst code }
  if code = 0 then { s1 with pcap := w }
  else (List.range 4).foldl (fun s d => s.log (48 * d) (railCode (s.cluster (48 * d)).rail) 6) s1

/-- PFLOOR, in force from the next boundary: ignored when the cap in force would fall below the guarantee. -/
def State.writePfloor (s : State) (part : Nat) (value : W64) : State :=
  let s1 := s.updPart part (fun p => { p with pfloor := value.setWidth 16 })
  if capOf s.capNow < 180 + s1.floorSum then s else s1

/-- BOOST: a grant from the next boundary, in place of an earlier one. -/
def State.writeBoost (s : State) (value : W64) : State :=
  let count := (value.extractLsb' 8 8).toNat
  let cl := (value.extractLsb' 0 8).toNat
  if count = 0 ∨ 192 ≤ cl then s else s.updCluster cl (fun c => { c with boostNew := some count })

/-- BOOST_WRITE. -/
def execBoostWrite (value : BitVec 64) (s : State) : Out := .next (s.writeBoost value)

/-! ## The control interval (17 R412-R414) -/

/-- The rail a cluster has, or is about to have. -/
def Cluster.railNext (c : Cluster) : Rail := c.switching.getD c.rail

/-- A cluster's part in the projected sum: an estimate taken on VH counts as on VL once the cluster is demoted. -/
def Cluster.projected (c : Cluster) : Nat :=
  if 0 < c.demoted && c.rail == .vh then Config.estimateAtLow c.estimate else c.estimate

/-- The module's clusters, 0 to 191. -/
def allClusters : List Nat := List.range 192

/-- Milliwatts of the platform and every cluster. -/
def State.projectedSum (s : State) : Nat := 180000 + (allClusters.map (fun c => (s.cluster c).projected)).sum

/-- The partition of a cluster (18 R427). -/
def State.clusterPart (s : State) (cl : Nat) : Option Nat :=
  let e := assoc s.partmap cl 0
  if e.getLsbD 4 then some (e.extractLsb' 0 4).toNat else none

/-- Milliwatts of a partition's clusters. -/
def State.partSum (s : State) (p : Nat) : Nat :=
  ((allClusters.filter (fun c => s.clusterPart c == some p)).map (fun c => (s.cluster c).projected)).sum

/-- Demoting a cluster leaves its partition at or above its floor. -/
def State.floorHolds (s : State) (cl : Nat) : Bool :=
  match s.clusterPart cl with
  | none => true
  | some p => decide (1000 * (s.part p).floorNow.toNat ≤
      s.partSum p - (s.cluster cl).projected + Config.estimateAtLow (s.cluster cl).estimate)

/-- Demote one cluster for 8 intervals. -/
def State.demote (s : State) (cl : Nat) : State := s.updCluster cl (fun c => { c with demoted := 9 })

/-- Demote clusters in turn until the projected sum is at or below the cap: module clusters and new demotions. -/
def State.demoteAll : List Nat → State → State
  | [], s => s
  | c :: r, s =>
    if s.projectedSum ≤ 1000 * capOf s.capNow then s
    else State.demoteAll r (if s.floorHolds c then s.demote c else s)

/-- Clusters on VH in descending estimate, ties to the lower number. -/
def State.demotable (s : State) : List Nat :=
  sortBy (fun a b => decide ((s.cluster b).estimate ≤ (s.cluster a).estimate))
    (allClusters.filter (fun c => (s.cluster c).railNext == .vh && (s.cluster c).demoted == 0))

/-- The clusters of this boundary that the cap demotes anew. -/
def State.newDemotions (s : State) : List Nat :=
  let s1 := State.demoteAll s.demotable s
  s.demotable.filter (fun c => (s1.cluster c).demoted == 9)

/-- One cluster's counters at a boundary: grants, and the demotion's 8 intervals. -/
def Cluster.count (c : Cluster) : Cluster :=
  { c with
    boost := (match c.boostNew with
      | some n => n
      | none => c.boost - 1)
    boostNew := none
    demoted := if c.demoted ≤ 1 then c.demoted else c.demoted - 1 }

/-- Its 8 intervals over, a demoted cluster returns when the sum with its estimate at VH stays within the cap. -/
def State.restores (s : State) (cl : Nat) : Bool :=
  (s.cluster cl).demoted == 1 &&
    decide (s.projectedSum - (s.cluster cl).projected + Config.estimateAtHigh (s.cluster cl).estimate ≤
      1000 * capOf s.capNow)

/-- The rail and the pacing request of a cluster (17 R412, R413). -/
def railChoice (c : Cluster) (trip current : Bool) : Rail × Nat :=
  if trip then (.vl, 16)
  else if current then (.vl, 8)
  else if 0 < c.demoted then (.vl, 0)
  else if 0 < c.boost then (.vh, 0)
  else if c.railField = 1 then (.vl, 0) else (.vh, 0)

/-- One cluster at a boundary: its rail, its request, its boost, and the log. -/
def State.controlCluster (s : State) (cl : Nat) (trip current new back : Bool) : State :=
  let c := s.cluster cl
  if c.railNext == .off || c.wakepend then s
  else
    let current := current && c.rail == .vh
    let r := railChoice c trip current
    let high := trip || current || decide (0 < c.demoted)
    let drop := high && decide (0 < c.boost)
    let s1 := s.updCluster cl (fun c => { c with
      request := r.2
      switching := if r.1 == c.rail then none else some r.1
      boost := if drop then 0 else c.boost })
    let log (b : Bool) (e : Nat) (s : State) : State := if b then s.log cl (railCode r.1) e else s
    log drop 5 (log back 4 (log new 3 (log current 2 (log trip 1 s1))))

/-- The reading of a cluster's sensor. -/
def readingOf (l : List Sensor) (cl : Nat) : Option Sensor := l.find? (fun r => r.cluster == cl)

/-- CONTROL_INTERVAL: one boundary of a die's controller (17 R412-R414). -/
def execControlInterval (die : Nat) (readings : List Sensor) (overCurrent : Bool) (s : State) : Out :=
  let mine := allClusters.filter (fun c => c / 48 == die)
  let s1 := s.takeCap.updDie die (fun q => { q with intervals := q.intervals + 1 })
  let s2 := mine.foldl (fun s c => s.updCluster c (fun k =>
    ({ k with estimate := match readingOf readings c with
        | some r => min 65535 r.estimate
        | none => k.estimate } : Cluster).count)) s1
  let back := mine.filter (fun c => s2.restores c)
  let s3 := back.foldl (fun s c => s.updCluster c (fun k => { k with demoted := 0 })) s2
  let new := s3.newDemotions.filter (fun c => mine.contains c)
  let s4 := new.foldl (fun s c => s.demote c) s3
  .next (mine.foldl (fun s c => s.controlCluster c
    (match readingOf readings c with
      | some r => r.trip
      | none => false) overCurrent (new.contains c) (back.contains c)) s4)

/-! ## The sampler (17 R419, R420) -/

/-- The spacing in force of an engine: its PACE register or the throttle's request clamped to the launch's ceiling
(11 R286, 17 R413), its host's for a partner (02 R49). The GU has no register. -/
def spacing (s : State) (d : Domain) (t : Tile) (g : Engine) : Nat :=
  let reg := match g with
    | .me => (t.pace.getD 0 0).toNat
    | .gu => 0
    | .ce => (t.pace.getD 1 0).toNat
    | .ch => (t.pace.getD 2 0).toNat
  max reg (min (s.cluster (s.seatOf t.cluster)).request d.paceCeiling)

/-- A sample record; a partner's rail and estimate are its host's (02 R49). -/
def sampleBytes (s : State) (d : Domain) (t : Tile) (word : Bool) (tag : Nat) : List Byte :=
  let c := s.cluster (s.seatOf t.cluster)
  toLE 8 d.dtick ++ toLE 8 t.block.addr.toNat ++ toLE 2 t.btick ++
    toLE 2 (t.lt + d.wasHeld.toNat * 2 ^ 15 + word.toNat * 2 ^ 14) ++ toLE 2 c.estimate ++ toLE 1 (railCode c.rail) ++
    toLE 1 tag ++ toLE 1 (spacing s d t .me) ++ toLE 1 (spacing s d t .ce) ++ toLE 1 (spacing s d t .ch) ++ toLE 1 0 ++
    toLE 4 (t.sampHead + 1).toNat

/-- Write a sample of a tile into its partition's ring; a full ring drops it (assumption 20). -/
def State.sample (s : State) (d : Domain) (t : Tile) (word : Bool) (tag : Nat) : State :=
  let p := s.part d.part
  if p.srsize.toNat ≤ p.srcount then
    s.updTile d.seq t.lt (fun t => { t with sampDrops := t.sampDrops + 1 })
  else
    let va := p.srbase + BitVec.ofNat 64 (32 * (p.srcount % p.srsize.toNat))
    ((s.writeGlobal d.part (masterOf t.cluster) 2 va (sampleBytes s d t word tag)).updPart d.part
      (fun p => { p with srcount := p.srcount + 1 })).updTile d.seq t.lt (fun t => { t with sampHead := t.sampHead + 1 })

/-- Sampling is on. -/
def Tile.sampling (t : Tile) : Bool := t.sampctl.getLsbD 32

/-- A periodic record is due at this tick. -/
def Tile.sampleDue (t : Tile) (dtick : Nat) : Bool :=
  let p := (t.sampctl.extractLsb' 0 20).toNat
  t.sampling && p != 0 && dtick != 0 && dtick % p == 0

/-- Steps of a tick's start before its periodic samples: the quantum check, the probes, and the judgement of the hold. -/
def beginSteps : Nat := 4

/-- PERIODIC_SAMPLE: tile `cur.lt` writes its record, and the tick's start goes on to the next tile. -/
def execPeriodicSample (s : State) : Out :=
  onDom s (fun d t => (s.sample d t false 0).updDom d.seq (fun e => { e with begun := beginSteps + t.lt + 1 }))

/-- SAMPLE (11 R290). -/
def execSample (i : BitVec 8) (s : State) : Out :=
  onDom s (fun d t => if t.sampling then s.sample d t true i.toNat else s)

end Sys2Proof.Machine
end

