-- ==== Sys2Proof/Machine/Lease.lean ====
section
/-!
DEFINITION. Leases: the build of a handle, its record in the fault ring, and the commands (03 R73-R79).
-/

namespace Sys2Proof.Machine

def State.lease? (s : State) (h : Nat) : Option Lease := s.leases.find? (fun l => l.handle == h)

def State.setLease (s : State) (l : Lease) : State :=
  { s with leases := s.leases.map (fun x => if x.handle = l.handle then l else x) }

/-! ## Selection (14 R369-R371) -/

/-- A task can be selected: open mode, or its handle is RESIDENT. -/
def State.selectable (s : State) (k : Task) : Bool :=
  field k.pkt 3 1 % 2 == 1 || (match s.lease? k.handle with
    | some l => l.state == .resident
    | none => false)

/-- Rank, parked, queue, and age of a task, as descending keys. -/
def State.rankOf (s : State) (queue : Nat) : Nat := (s.lqrank.getD queue 0).toNat

/-- A candidate: its keys in ascending order of preference, and its sequence number. -/
def State.candidates (s : State) : List (List Nat × Nat) :=
  let key (queue seq : Nat) (parked : Bool) : List Nat × Nat :=
    ([15 - s.rankOf queue, if parked then 0 else 1, 15 - queue, seq], seq)
  (s.queues.filter s.selectable).map (fun k => key (field k.pkt 2 1) k.seq false) ++
  (s.domains.filter (fun d => d.phase == .halted && d.parked)).map (fun d => key (field d.pkt 2 1) d.seq true)

/-- The selected task still waits: in its queue, or parked. -/
def State.selectionStands (s : State) : Bool :=
  match s.selected with
  | some q => s.queues.any (fun k => k.seq == q) ||
      s.domains.any (fun d => d.seq == q && d.phase == .halted && d.parked)
  | none => false

/-- When no task is selected, the first candidate is. -/
def State.select (s : State) : State :=
  if s.selectionStands then s
  else { s with selected := (s.candidates.foldl (fun m c => match m with
      | some x => if lexLess c.1 x.1 then some c else some x
      | none => some c) none).map (fun c => c.2) }

/-! ## The halt (15 R379, R383, R388) -/

/-- DOMAIN_HALT: every tile stops before any word of the halt tick; the frames stand and the notices are posted. A parked
task leaves its tiles and re-enters selection (14 R371, R375); a park that a fault forestalls leaves no room. -/
def execDomainHalt (s : State) : Out :=
  match s.dom? s.cur.dom with
  | none => .fault .noContext
  | some d0 =>
    let d := d0.halt
    let s1 := (s.updDom d.seq (fun _ => d)).postNotices d
    .next (if d.parked then (s1.parkDomain d).select else if d0.parked then { s1 with room := none } else s1)

/-! ## The build (03 R74, R78) -/

/-- Two address ranges share a byte. -/
def spansMeet (a n b m : Nat) : Bool := decide (a < b + m) && decide (b < a + n) && decide (0 < n) && decide (0 < m)

/-- A range of the lease overlaps an output or the spill area. -/
def Lease.needs (l : Lease) (a n : Nat) : Bool := l.needW.any (fun o => spansMeet a n o.1 o.2)

/-- What a page check of a lease build found: the page's base, size and W bit; or the cause, level, entry and place. -/
inductive PageCheck where
  | ok (base size : Nat) (w : Bool)
  | bad (cause level : Nat) (entry : W64) (entryPa : Nat)
  deriving DecidableEq, Repr

/-- Declared format, block, write and execute permission of a page, in this order (03 R74). DESIGN CHOICE: a packet marks
no range as its code range (01 R29), so X is asked of every page of each range that holds ENTRY (assumption 90). -/
def checkLeaf (l : Lease) (r : Range) (loc : Nat) (e : W64) (owner base size : Nat) : PageCheck :=
  let bad (c : Nat) : PageCheck := .bad c (leafLevel (leafSz e)) e (loc % 2 ^ 37)
  let tag := leafTag e
  let code := spansMeet l.codeBase 1 r.base.toNat r.len
  if r.fmt != 0xFF && r.fmt.toNat != tag.fmt.toNat then bad 5
  else if r.blk != 0xFF && r.blk.toNat != tag.blk.toNat then bad 6
  else if !leafW e && l.needs (owner * 2 ^ 61 + base) size then bad 4
  else if !leafX e && code then bad 11
  else .ok base size (leafW e)

/-- How far on from an address one window serves it, and its W bit: to its end, or to the base of a lower-numbered window of
the key (18 R430). -/
def egressRun (ws : List (W64 × W64 × W64)) (key a : Nat) : Option (Nat × Bool) :=
  match ws with
  | [] => none
  | (b, u, _) :: r =>
    let base := (b.extractLsb' 21 27).toNat * 2 ^ 21
    let size := (u.extractLsb' 0 32).toNat * 2 ^ 21
    if !b.getLsbD 0 || (b.extractLsb' 4 4).toNat != key || size == 0 then egressRun r key a
    else if base ≤ a && decide (a < base + size) then some (base + size - a, b.getLsbD 1)
    else (egressRun r key a).map (fun x => if a < base then (min x.1 (base - a), x.2) else x)

/-- The page at offset `o` of a range: a walk, or the egress windows for owners 4 and 5, where no page gives X
(03 R74, 18 R430, R431; assumption 21). DESIGN CHOICE: no page, so no declared FMT or BLK is checked there either; 01
R22 and 03 R74 speak of pages alone (assumption 21). DESIGN CHOICE: a range of owner 5 is checked under the lease builder of
die 0, master 0x101: 03 R74 names no die for it (assumption 123). -/
def checkPage (s : State) (l : Lease) (r : Range) (o : Nat) : PageCheck :=
  let va := r.base + BitVec.ofNat 64 o
  let a := lowAddr va
  let owner := ownerOf va
  let need := l.needs va.toNat 1
  if owner < 4 then
    match walk s owner l.part a .strict with
    | .ok loc e base size => checkLeaf l r loc e owner base size
    | .bad c lv e p => .bad c lv e p
  else
    let code := spansMeet l.codeBase 1 r.base.toNat r.len
    if owner = 4 then
      match egressRun s.egress l.part a with
      | none => .bad 9 0 0 0
      | some (n, w) =>
        if !w && (need || l.needs va.toNat (min n (r.len - o))) then .bad 4 0 0 0
        else if code then .bad 11 0 0 0 else .ok a n w
    else if (spegr s (distributor 0)).getLsbD (a / 2 ^ 45) then
      (if code then .bad 11 0 0 0 else .ok a (2 ^ 45 - a % 2 ^ 45) true)
    else .bad 9 0 0 0

/-- The lease-build record of a failed page (03 R78, R80). -/
def buildRecord (seq : Nat) (l : Lease) (i : Nat) (r : Range) (o cause level : Nat) (entry : W64) (entryPa : Nat) : List Byte :=
  ringBytes 1 cause level (l.needs r.base.toNat r.len) l.part l.handle i seq (r.base + BitVec.ofNat 64 o) (o / 4096)
    (r.len - o) entry entryPa 0

/-- The ring takes a record now. -/
def ringOpen (p : Partition) : Bool := p.frstat.getLsbD 0 && !ringFull p

/-- A lease-build record is written, or waits; a full ring sets OVF (03 R78, R79). -/
def State.buildFault (s : State) (l : Lease) (record : List Byte) : State :=
  let p := s.part l.part
  if ringOpen p then (s.setLease { l with state := .faulted, record := none }).ringWrite l.part record
  else
    let s1 := s.setLease { l with state := .faulted, record := some record }
    if p.frstat.getLsbD 0 then s1.updPart l.part (fun p => { p with frstat := p.frstat ||| 2 }) else s1

/-- The build goes on past a page of range i that ends at offset `o`. -/
def Lease.advance (l : Lease) (i o : Nat) (w : Bool) : Lease :=
  let l1 := { l with rw := upd l.rw i (fun b => b && w) }
  match l.ranges[i]? with
  | none => l1
  | some r => if o < r.len then { l1 with at_ := (i, o) } else { l1 with at_ := (i + 1, 0) }

/-- LEASE_BUILD_PAGE: the build of handle `cur.item` checks its next page (03 R74, R75). DESIGN CHOICE: a range of length 0
has the page at its base checked, and a page whose walk passes but whose format, block or permission does not is not
installed, its A bit unset; 03 R74 speaks of neither (assumption 91). -/
def execLeaseBuildPage (s : State) : Out :=
  match s.lease? s.cur.item with
  | none => .fault .noContext
  | some l =>
    match l.ranges[l.at_.1]? with
    | none => .next (s.setLease { l with state := .resident }).select
    | some r =>
      match checkPage s l r l.at_.2 with
      | .bad c lv e p => .next (s.buildFault l (buildRecord (s.seqOf l.seq) l l.at_.1 r l.at_.2 c lv e p))
      | .ok base size w =>
        let a := lowAddr (r.base + BitVec.ofNat 64 l.at_.2)
        let l1 := l.advance l.at_.1 (l.at_.2 + (base + size - a)) w
        let l2 := if l1.at_.1 < l1.ranges.length then l1 else { l1 with state := .resident }
        let va := r.base + BitVec.ofNat 64 l.at_.2
        let s1 := match resolve s l.part (distributor 0) .strict false va with
          | .ok p => s.touchLeaf p false
          | .error _ => s
        let s2 := match walk s (ownerOf va) l.part a .strict with
          | .ok loc e b n => if ownerOf va < 4 then s1.updDie (ownerOf va) (fun q =>
              { q with tlb := ⟨stationOf a, l.part, b, n, loc, e⟩ :: q.tlb }) else s1
          | .bad .. => s1
        .next (s2.setLease l2).select

/-- A lease-build record waits and its ring has room. -/
def State.recordReady (s : State) (l : Lease) : Bool := l.record.isSome && ringOpen (s.part l.part)

/-- A handle turns EMPTY; launches that wait for it are refused (03 R75). -/
def State.emptyLease (s : State) (handle : Nat) : State :=
  (({ s with leases := s.leases.filter (fun x => x.handle != handle) } : State).refuseWaiting handle).select

/-- LEASE_RECORD_DEFERRED_WRITE: the waiting record of handle `cur.item`; a handle released meanwhile turns EMPTY
(03 R75, R78). -/
def execLeaseRecordDeferredWrite (s : State) : Out :=
  match s.lease? s.cur.item with
  | none => .fault .noContext
  | some l => match l.record with
    | none => .fault .noContext
    | some r =>
      let s1 := (s.setLease { l with record := none }).ringWrite l.part r
      .next (if l.released then s1.emptyLease l.handle else s1)

/-! ## Commands (03 R75) -/

/-- RETRY: a FAULTED build goes on at the page that failed; while its record waits, it stays FAULTED. -/
def State.leaseRetry (s : State) (part handle : Nat) : State :=
  match s.lease? handle with
  | none => s
  | some l => if l.part = part ∧ l.state = .faulted ∧ l.record = none then s.setLease { l with state := .building } else s

/-- LEASECMD_RETRY. -/
def execLeasecmdRetry (part handle : Nat) (s : State) : Out := .next (s.leaseRetry part handle)

/-- A task uses a handle: its domain is bound and has not ended. -/
def State.leaseUsed (s : State) (handle : Nat) : Bool :=
  s.domains.any (fun d => !d.relaxed && d.handle == handle && !d.phase.over)

/-- RELEASE (03 R75). A build stays FAULTED until its record is written (03 R78), so that a RELEASE of one whose record
waits acts then. -/
def State.leaseRelease (s : State) (part handle : Nat) : State :=
  match s.lease? handle with
  | none => s
  | some l =>
    if l.part ≠ part then s
    else if l.state = .resident ∧ s.leaseUsed handle then s.setLease { l with state := .ending }
    else if l.state = .ending then s
    else if l.record.isSome then s.setLease { l with released := true }
    else s.emptyLease handle

/-- LEASECMD_RELEASE. -/
def execLeasecmdRelease (part handle : Nat) (s : State) : Out := .next (s.leaseRelease part handle)

/-- A write of LEASECMD: OP and HANDLE. -/
def State.leaseCommand (s : State) (part : Nat) (x : W64) : State :=
  let h := (x.extractLsb' 16 10).toNat
  let op := x.extractLsb' 0 2
  if op = 1 then s.leaseRetry part h else if op = 2 then s.leaseRelease part h else s

/-! ## FRTAIL (03 R79, R81) -/

/-- Records of relaxed domains of a partition that stand at a granule walk again. -/
def Tile.walkAgain (t : Tile) : Tile :=
  { t with recs := t.recs.map (fun r => match r.fault with
      | some (c, _, _) => if r.stage == .queued && c == cTranslation then { r with fault := none } else r
      | none => r) }

/-- A write of FRTAIL frees slots and makes stalled engine records walk again. -/
def State.writeFrtail (s : State) (part : Nat) (x : W64) : State :=
  let s1 := s.updPart part (fun p => { p with frtail := x.setWidth 32 })
  { s1 with domains := s1.domains.map (fun d => if d.part = part && d.relaxed then
      { d with tiles := d.tiles.map (fun t => t.walkAgain) } else d) }

/-- FRTAIL_WRITE. -/
def execFrtailWrite (part : Nat) (value : BitVec 64) (s : State) : Out := .next (s.writeFrtail part value)

end Sys2Proof.Machine
end

