-- ==== Sys2Proof/Machine/Packet.lean ====
section
/-!
DEFINITION. The launch port, the scheduling stream, the packet and its descriptor, and the checks of a packet
(14 R362-R367, R376, R377; 08 R197, R198), and where a task can be placed (02 R45, R48; 14 R372).
-/

namespace Sys2Proof.Machine

/-! ## The port (14 R362-R364) -/

/-- A master of a supervisor tile (18 R432). -/
def isSupMaster (m : Nat) : Bool := m == 0x10F || m == 0x11F || m == 0x12F || m == 0x13F
/-- A master of the host. -/
def isHostMaster (m : Nat) : Bool := decide (0x3F0 ≤ m) && decide (m ≤ 0x3FF)
/-- A master of a peer. -/
def isPeerMaster (m : Nat) : Bool := decide (m < 0x100)

def State.lpaclOf (s : State) (m : Nat) : W64 := assoc s.lpacl m 0

/-- The supervisor launch bit of a packet. -/
def pktSup (pkt : List Byte) : Bool := field pkt 3 1 / 2 % 2 == 1
def pktOpen (pkt : List Byte) : Bool := field pkt 3 1 % 2 == 1

/-- The master may post the packet to its queue. Assumption 61. -/
def State.mayPost (s : State) (m : Nat) (pkt : List Byte) : Bool :=
  let e := s.lpaclOf m
  (isSupMaster m && pktSup pkt) || (e.getLsbD 0 && (e.extractLsb' 16 16).getLsbD (field pkt 2 1))

/-- LPDROP saturates. -/
def State.dropPost (s : State) : State := { s with lpdrop := if s.lpdrop = 0xFFFFFFFFFFFFFFFF then s.lpdrop else s.lpdrop + 1 }

/-- LAUNCH_POST: `port` is Rentan link 0 or 1, or a Span port from 2 on; a post of a supervisor tile comes from the
device itself. DESIGN CHOICE: PART of the master's LPACL entry is taken here, at the post, while OPEN is read when the packet
is applied: 14 R363 does not say when PART is (assumption 125). -/
def execLaunchPost (port master offset : Nat) (data : List (BitVec 8)) (s : State) : Out :=
  if isHostMaster master && !s.linkUp port then .next s
  else if data.length != 128 || offset % 128 != 0 || !s.mayPost master data then .next s.dropPost
  else .next { s with
    arrivals := s.arrivals ++ [.packet port master (s.lpaclOf master |>.extractLsb' 4 4).toNat data] }

/-- The place of an arrival among those of its cycle (14 R364): Rentan links 0 and 1, Span ports 0 to 7, posts of
supervisor tiles, task ends by cluster. Assumption 87. -/
def Arrival.place : Arrival → Nat
  | .packet port master _ _ => if isSupMaster master then 16 else min port 15
  | .taskEnd cluster _ => 17 + cluster

/-- An arrival enters the stream with the next sequence number. -/
def State.enterStream (s : State) (a : Arrival) : State :=
  { s with
    stream := s.stream ++ [match a with
      | .packet _ master part pkt => .packet s.nextSeq master part pkt
      | .taskEnd _ of => .taskEnd s.nextSeq of]
    nextSeq := s.nextSeq + 1 }

/-- The port serialises the arrivals of a cycle into the stream (14 R364). -/
def State.serialise (s : State) : State :=
  (sortBy (fun a b => decide (a.place ≤ b.place)) s.arrivals).foldl State.enterStream { s with arrivals := [] }

/-! ## The descriptor (14 R366) -/

/-- A descriptor, read. -/
structure Desc where
  ranges : List Range
  outs : List (Nat × Nat)
  groups : List (Nat × List Nat)
  /-- MCID and group. -/
  mcast : List (Nat × Nat)
  recs : List RecordBits
  consts : List Nat
  /-- Logical tile or 0xFFFF, window, offset, data. -/
  images : List (Nat × Nat × Nat × List Byte)
  deriving DecidableEq, Repr

/-- `n` items, one after the other. -/
def parseN {α : Type} (one : Nat → Option (α × Nat)) : Nat → Nat → Option (List α × Nat)
  | 0, p => some ([], p)
  | n + 1, p => match one p with
    | none => none
    | some (x, q) => match parseN one n q with
      | none => none
      | some (l, r) => some (x :: l, r)

/-- An item of fixed size within the descriptor. -/
def parseFixed {α : Type} (d : List Byte) (size : Nat) (f : Nat → Option α) (p : Nat) : Option (α × Nat) :=
  if d.length < p + size then none else (f p).map (fun x => (x, p + size))

/-- Zero padding up to the next multiple of 8. -/
def padTo (d : List Byte) (p : Nat) : Option Nat :=
  let n := (8 - p % 8) % 8
  if d.length < p + n ∨ ((d.drop p).take n).any (· != 0) then none else some (p + n)

/-- Assumption 65. -/
def parseRange (d : List Byte) (p : Nat) : Option (Range × Nat) :=
  parseFixed d 16 (fun p =>
    let fmt := field d (p + 14) 1
    let blk := field d (p + 15) 1
    if (fmt ≤ 10 ∨ fmt = 0xFF) ∧ (blk ≤ 3 ∨ blk = 0xFF)
    then some ⟨BitVec.ofNat 64 (field d p 8), field d (p + 8) 6, BitVec.ofNat 8 fmt, BitVec.ofNat 8 blk⟩ else none) p

def parseOut (d : List Byte) (p : Nat) : Option ((Nat × Nat) × Nat) :=
  parseFixed d 16 (fun p => some (field d p 8, field d (p + 8) 8)) p

def parseGroup (d : List Byte) (p : Nat) : Option ((Nat × List Nat) × Nat) :=
  let n := field d (p + 2) 2
  if d.length < p + 4 + 2 * n ∨ field d (p + 1) 1 ≠ 0 then none
  else (padTo d (p + 4 + 2 * n)).map (fun q =>
    ((field d p 1, (List.range n).map (fun i => field d (p + 4 + 2 * i) 2)), q))

def parseMcast (d : List Byte) (p : Nat) : Option ((Nat × Nat) × Nat) :=
  parseFixed d 2 (fun p => some (field d p 1, field d (p + 1) 1)) p

def parseRecord (d : List Byte) (p : Nat) : Option (RecordBits × Nat) :=
  parseFixed d 32 (fun p => some (BitVec.ofNat 256 (field d p 32))) p

def parseConst (d : List Byte) (p : Nat) : Option (Nat × Nat) := parseFixed d 8 (fun p => some (field d p 8)) p

def parseImage (d : List Byte) (p : Nat) : Option ((Nat × Nat × Nat × List Byte) × Nat) :=
  let n := field d (p + 4) 4
  if d.length < p + 16 + n ∨ field d (p + 3) 1 ≠ 0 ∨ field d (p + 12) 4 ≠ 0 then none
  else (padTo d (p + 16 + n)).map (fun q =>
    ((field d p 2, field d (p + 2) 1, field d (p + 8) 4, (d.drop (p + 16)).take n), q))

/-- The header's counts and zero bytes. -/
def descHeaderOk (d : List Byte) (sup : Bool) : Bool :=
  field d 0 4 == 0x4C4E4348 && decide (field d 4 2 ≤ 32) && decide (field d 6 2 ≤ 16) && decide (field d 8 2 ≤ 255) &&
    decide (field d 10 2 ≤ 256) && decide (field d 12 2 ≤ 1024) && decide (field d 14 2 ≤ 4096) &&
    ((d.drop 18).take 46).all (· == 0) &&
    (!sup || (field d 4 2 == 0 && field d 6 2 == 0 && field d 8 2 == 0 && field d 10 2 == 0 && field d 16 2 == 0))

/-- The whole descriptor; DESCLEN is the sum of the parts. -/
def parseDesc (d : List Byte) (sup : Bool) : Option Desc :=
  if d.length < 64 || !descHeaderOk d sup then none
  else do
    let (ranges, p1) ← parseN (parseRange d) (field d 4 2) 64
    let (outs, p2) ← parseN (parseOut d) (field d 6 2) p1
    let (groups, p3) ← parseN (parseGroup d) (field d 8 2) p2
    let (mcast, p4) ← parseN (parseMcast d) (field d 10 2) p3
    let p5 ← padTo d p4
    let (recs, p6) ← parseN (parseRecord d) (field d 12 2) p5
    let (consts, p7) ← parseN (parseConst d) (field d 14 2) p6
    let (images, p8) ← parseN (parseImage d) (field d 16 2) p7
    if p8 = d.length then some ⟨ranges, outs, groups, mcast, recs, consts, images⟩ else none

/-! ## The checks (14 R367) -/

def pktCrcOk (pkt : List Byte) : Bool := field pkt 124 4 == (crc32c (pkt.take 124)).toNat

/-- Fields in their limits (14 R365), and the rules of peers and supervisor launches (14 R376, R377). -/
def pktFormatOk (lpacl : W64) (master : Nat) (pkt : List Byte) : Bool :=
  let sup := pktSup pkt
  field pkt 0 1 == 1 && decide (field pkt 1 1 ≤ 5) && decide (field pkt 2 1 ≤ 15) && decide (field pkt 3 1 < 4) &&
    decide (field pkt 4 1 ≤ 4) && decide (field pkt 6 2 ≤ 1023) && !(pktOpen pkt && field pkt 6 2 != 0) &&
    field pkt 8 4 != 0 && field pkt 40 8 % 64 == 0 && field pkt 52 4 % 8 == 0 && field pkt 64 8 % 64 == 0 &&
    decide (field pkt 84 1 ≤ 3) && (sup || field pkt 84 1 == 0) && ((pkt.drop 85).take 39).all (· == 0) &&
    !(pktOpen pkt && !lpacl.getLsbD 8) && !(pktOpen pkt && sup) &&
    (!isPeerMaster master || field pkt 64 8 / 2 ^ 61 == 5) &&
    (!sup || (isSupMaster master && field pkt 1 1 == 0 && field pkt 2 1 == 0 && field pkt 4 1 == 0 &&
      field pkt 6 2 == 0 && field pkt 52 4 == 0 && field pkt 80 4 == 0))

/-- Check 2's limit on the record store. -/
def descFits (d : List Byte) : Bool := decide (field d 12 2 * 32 + field d 14 2 * 8 ≤ 32768)

/-- Clusters of a shape (02 R40). -/
def shapeClusters (shape : Nat) : Nat :=
  match shape with
  | 0 => 1
  | 1 => 8
  | 2 => 24
  | 3 => 48
  | 4 => 96
  | _ => 192

def rangeOwnerOk (r : Range) : Bool := addrOk r.base && addrOk (r.base + BitVec.ofNat 64 (r.len - 1)) &&
  ownerOf r.base == ownerOf (r.base + BitVec.ofNat 64 (r.len - 1))

/-- Every byte of an area lies inside some declared range. DESIGN CHOICE: an area that several ranges cover only jointly
passes: 14 R367 refuses what lies outside the ranges, while 01 R22 speaks of one range (assumption 124). -/
def inRanges (rs : List Range) (a n : Nat) : Bool := covered (rs.map (fun r => (r, true))) true (rs.length + 1) a n

/-- No two of the outputs share a byte. -/
def disjoint : List (Nat × Nat) → Bool
  | [] => true
  | o :: r => r.all (fun p => !spansMeet o.1 o.2 p.1 p.2) && disjoint r

/-- Check 4. DESIGN CHOICE: an image of a bank whose logical tile is neither 0xFFFF nor one of the shape, or whose data runs
past the bank, is refused here with code 4: 01 R27 and 14 R367 name no code for it (assumption 97). -/
def rangesOk (pkt : List Byte) (d : Desc) : Bool :=
  let free := pktOpen pkt || pktSup pkt
  let entry := field pkt 32 8
  d.ranges.all rangeOwnerOk && disjoint d.outs &&
    d.images.all (fun i => (i.1 == 0xFFFF || decide (i.1 < 4 * shapeClusters (field pkt 1 1))) &&
      decide (i.2.1 < field pkt 4 1) && decide (i.2.2.1 + i.2.2.2.length ≤ 2 ^ 19)) &&
    (if free then d.ranges.isEmpty
    else !d.ranges.isEmpty && inRanges d.ranges (field pkt 56 8) (field pkt 52 4) &&
      d.outs.all (fun o => inRanges d.ranges o.1 o.2) && inRanges d.ranges entry (4096 - entry % 4096))

/-- Rising and without repeats. -/
def risingFrom (n : Nat) : List Nat → Bool
  | [] => true
  | x :: r => decide (n < x) && risingFrom x r

/-- Check 5 (09 R217, 01 R23). -/
def groupsOk (shape : Nat) (d : Desc) : Bool :=
  let tiles := 4 * shapeClusters shape
  let named := d.groups.map (fun g => g.1)
  risingFrom 0 named && d.groups.all (fun g => decide (1 ≤ g.2.length) && decide (g.2.length ≤ 768) &&
      g.2.eraseDups.length == g.2.length && g.2.all (fun lt => decide (lt < tiles))) &&
    (d.groups.flatMap (fun g => g.2)).all (fun lt => decide ((d.groups.filter (fun g => g.2.contains lt)).length ≤ 3)) &&
    (d.mcast.map (fun m => m.1)).eraseDups.length == d.mcast.length &&
    (d.mcast.map (fun m => m.2)).eraseDups.length == d.mcast.length &&
    d.mcast.all (fun m => m.2 == 0 || named.contains m.2) &&
    d.recs.all (fun b => !isChorus (fieldAt b 0 8) || fieldAt b 64 8 == 0 || named.contains (fieldAt b 64 8))

/-- The hallmark string (08 R197, R198). Group 0 of a supervisor packet is its one tile (14 R377). DESIGN CHOICE: a group that a chorus record of a supervisor packet names and the
descriptor does not declare stands as an item of no members: 08 R197 does not say (assumption 102). -/
def hallmarkString (pkt : List Byte) (d : Desc) : List Byte :=
  let shape := field pkt 1 1
  let recs := d.recs.zipIdx
  let chorus := recs.filter (fun r => isChorus (fieldAt r.1 0 8))
  let groups := rising (chorus.map (fun r => fieldAt r.1 64 8)).eraseDups
  let members (g : Nat) : List Nat :=
    if g = 0 then List.range (if pktSup pkt then 1 else 4 * shapeClusters shape) else assoc d.groups g []
  [1, BitVec.ofNat 8 shape] ++
  (d.ranges.zipIdx).flatMap (fun r => if r.1.fmt = 0xFF ∧ r.1.blk = 0xFF then [] else
    [2, BitVec.ofNat 8 r.2, r.1.fmt, r.1.blk]) ++
  (recs.filter (fun r => fieldAt r.1 0 8 == kMma || fieldAt r.1 0 8 == kMms)).flatMap (fun r =>
    [3] ++ toLE 2 r.2 ++ toLE 1 (fieldAt r.1 0 8) ++ toLE 1 (if fieldAt r.1 0 8 = kMma then fieldAt r.1 128 2 else 0)) ++
  chorus.flatMap (fun r =>
    [4] ++ toLE 2 r.2 ++ toLE 1 (fieldAt r.1 0 8) ++ toLE 1 (if fieldAt r.1 0 8 = kRs then fieldAt r.1 116 4 else 0) ++
      toLE 1 (fieldAt r.1 64 8)) ++
  groups.flatMap (fun g => [5] ++ toLE 1 g ++ toLE 2 (members g).length ++ (members g).flatMap (fun lt => toLE 2 lt)) ++
  [6] ++ (pkt.drop 24).take 8

/-- Check 6. -/
def hallmarkOk (pkt : List Byte) (d : Desc) : Bool :=
  field pkt 16 8 == fromLE ((sha256 (hallmarkString pkt d)).take 8)

/-- Check 7: the handle is free for the launch (03 R73, R75). -/
def leaseFits (s : State) (pkt : List Byte) (part : Nat) (d : Desc) : Bool :=
  match s.lease? (field pkt 6 2) with
  | none => true
  | some l => l.part == part && l.ranges == d.ranges && l.state != .ending

/-! ## Placement (02 R45, R48; 14 R372, 23 R453) -/

/-- The row maps, in order. -/
def rowMap (m y : Nat) : Nat :=
  match m with
  | 0 => y
  | 1 => (y + 4) % 8
  | 2 => (14 - y) % 8
  | _ => (10 - y) % 8

/-- The logical cluster nodes of one logical die of a shape, in the order of their numbers (02 R40, R41). -/
def logicalNodes (shape : Nat) : List (Nat × Nat) :=
  let row (y : Nat) : List (Nat × Nat) := (List.range 8).map (fun x => (x, y))
  match shape with
  | 0 => [(0, 2)]
  | 1 => row 2
  | 2 => row 0 ++ row 1 ++ row 2
  | _ => row 0 ++ row 1 ++ row 2 ++ row 4 ++ row 5 ++ row 6

/-- The logical vault nodes of a shape on one die, in the order of their numbers (02 R40, R41). -/
def logicalVaultNodes (shape : Nat) : List (Nat × Nat) :=
  let row (y : Nat) : List (Nat × Nat) := (List.range 8).map (fun x => (x, y))
  match shape with
  | 0 => [(0, 3)]
  | 1 => row 3
  | 2 => row 3
  | _ => row 3 ++ row 7

/-- The dies, tiles and vaults of a shape (02 R40). -/
def shapeDies (shape : Nat) : Nat := if shape ≤ 3 then 1 else if shape = 4 then 2 else 4
def shapeTiles (shape : Nat) : Nat := 4 * shapeClusters shape
def shapeVaults (shape : Nat) : Nat := shapeDies shape * (logicalVaultNodes shape).length

/-- The logical vault of a vault node of logical die ld (02 R41). -/
def logicalVault (shape ld : Nat) (p : Nat × Nat) : Nat := if shape ≤ 2 then p.1 else 16 * ld + p.1 + 8 * (p.2 / 4)

/-- The vault that a physical vault node serves (02 R38). -/
def vaultAt (p : Nat × Nat) : Nat := if p.2 = 3 then p.1 else 8 + p.1

/-- The physical cluster of a logical node under a map and a shift (02 R37, R45). Assumption 57. -/
def physNode (die m a : Nat) (p : Nat × Nat) : Nat :=
  let y := rowMap m p.2
  48 * die + 24 * (y / 4) + 8 * (y % 4) + (p.1 + a) % 8

/-- A cluster hosts the partner of some bound domain. -/
def State.hosting (s : State) (cl : Nat) : Bool :=
  s.domains.any (fun d => !d.phase.over && d.clusterList.any (fun f => s.hostOf f == some cl))

/-- A slot is still needed by an epoch that is not yet applied, or by a context, one that waits for recovery among them
(05 R108, R131). -/
def State.slotEmpty (s : State) (cl idx : Nat) (slot : Bool) : Bool :=
  !s.domains.any (fun d => !d.phase.over && d.tiles.any (fun t => t.cluster == cl && t.idx == idx && t.slot == slot)) &&
    !(s.cluster cl).epochs.any (fun e => e.parts.any (fun p => p.tile == idx && p.slot == slot))

/-- The slot that a launch takes on a tile: its active slot must hold no context (assumption 24). -/
def State.slotFor (s : State) (cl idx : Nat) : Option Bool :=
  if !s.slotEmpty cl idx (s.activeSlot cl idx) then none
  else if s.slotEmpty cl idx false then some false else some true

def State.servesPart (s : State) (cl part : Nat) : Bool := s.clusterPart cl == some part

def State.freeBanks (s : State) (cl : Nat) : List Nat := (List.range 16).filter (fun b => s.bankFree cl b)

/-- The cluster is gated or about to be (14 R372, 23 R453), or has no power. -/
def Cluster.gated (c : Cluster) : Bool :=
  c.qreq || c.clkoff || c.capturing || c.rail == .off || c.switching == some .off || c.lost

/-- A cluster is free for a task (14 R372). -/
def State.clusterFree (s : State) (part wins cl : Nat) : Bool :=
  s.servesPart cl part && !(s.cluster cl).gated && !s.hosting cl &&
    (List.range 4).all (fun i => (s.slotFor cl i).isSome) && decide (4 * wins ≤ (s.freeBanks cl).length)

/-- The pool and the slots B that a partner on a fused cluster's host takes: its banks are kept under the fused cluster's
number, served from its shadow-plane images (02 R49; assumption 57). -/
def State.partnerFree (s : State) (wins cl : Nat) : Bool :=
  (List.range 4).all (fun i => s.slotEmpty cl i true) && decide (4 * wins ≤ (s.freeBanks cl).length)

/-- A host's other slot is unused too, for the partner. -/
def State.hostFree (s : State) (free : Nat → Bool) (cl : Nat) : Bool :=
  free cl && (List.range 4).all (fun i => s.slotEmpty cl i false && s.slotEmpty cl i true)

/-- Fused nodes of a candidate pair with hosts that are free and carry one partner each (02 R48). -/
def State.pairsOk (s : State) (free : Nat → Bool) (cls : List Nat) : Bool :=
  let hosts := (cls.filter (fun c => s.fused.contains c)).map (hostNode s.fused)
  hosts.all (fun h => match h with
    | some c => s.hostFree free c
    | none => false) && hosts.eraseDups.length == hosts.length

/-- The candidates of one die, in order: the row map slower than the shift. -/
def dieCandidates (shape die : Nat) : List (List Nat) :=
  (List.range 4).flatMap (fun m => (List.range 8).map (fun a => (logicalNodes shape).map (physNode die m a)))

/-- The first candidate of a die whose clusters are all free; `pool` says that a partner's banks and slots are
(02 R48-R50). -/
def State.placeDie (s : State) (free pool : Nat → Bool) (shape die : Nat) : Option (List Nat) :=
  (dieCandidates shape die).find? (fun cls =>
    cls.all (fun c => if s.fused.contains c then pool c else free c) && s.pairsOk free cls)

/-- The ascending tuples of dies for a shape. -/
def dieTuples (shape : Nat) : List (List Nat) :=
  match shape with
  | 4 => [[0, 1], [0, 2], [0, 3], [1, 2], [1, 3], [2, 3]]
  | 5 => [[0, 1, 2, 3]]
  | _ => [[0], [1], [2], [3]]

/-- The first placement in the order of 14 R372. -/
def State.place (s : State) (free pool : Nat → Bool) (shape : Nat) : Option (List Nat) :=
  (dieTuples shape).findSome? (fun dies => (dies.mapM (s.placeDie free pool shape)).map List.flatten)

/-- Check 9: a placement with every cluster free. -/
def State.placeable (s : State) (shape part : Nat) : Bool :=
  let s0 := { s with domains := [], clusters := [] }
  (s0.place (fun c => s.servesPart c part) (fun _ => true) shape).isSome

/-- Read the descriptor as the distributor does (14 R366); a discarded page gives zeros and sets DREAD (03 R84). -/
def State.readDesc (s : State) (part : Nat) (pkt : List Byte) : State × Option (List Byte) :=
  s.readGlobal .report part (distributor 0) (pieces (field pkt 48 4)) (BitVec.ofNat 64 (field pkt 40 8)) (field pkt 48 4)

/-- The first check that fails, or the descriptor (14 R367). -/
def State.checkPacket (s : State) (master part : Nat) (pkt : List Byte) : Except Nat (List Byte × Desc) :=
  let sup := pktSup pkt
  let user := !sup && !pktOpen pkt
  let raw := s.readDesc part pkt
  if !pktCrcOk pkt then .error 1
  else if !pktFormatOk (s.lpaclOf master) master pkt then .error 2
  else match raw.2 with
    | none => .error 3
    | some bs =>
      if bs.length < 64 then .error 3
      else if !descFits bs then .error 2
      else match parseDesc bs sup with
        | none => .error 3
        | some d =>
          if !rangesOk pkt d then .error 4
          else if !sup && !groupsOk (field pkt 1 1) d then .error 5
          else if !hallmarkOk pkt d then .error 6
          else if user && !leaseFits s pkt part d then .error 7
          else if (if sup then decide (16 ≤ (s.die (field pkt 84 1)).supWaiting.length)
              else decide (256 ≤ (s.queues.filter (fun k => field k.pkt 2 1 == field pkt 2 1)).length)) then .error 8
          else if !sup && !s.placeable (field pkt 1 1) part then .error 9
          else .ok (bs, d)

end Sys2Proof.Machine
end

