-- ==== Sys2Proof/Machine/Launch.lean ====
section
/-!
DEFINITION. The scheduling stream's entries, selection, binding, starting and ending of tasks (14 R364, R369-R377).
-/

namespace Sys2Proof.Machine

/-! ## PACKET_APPLY -/

/-- A lease that begins to build (03 R74, R75): the output and spill ranges need W, the range of ENTRY needs X. -/
def newLease (pkt : List Byte) (part seq : Nat) (d : Desc) : Lease :=
  { handle := field pkt 6 2, part := part, state := .building, ranges := d.ranges, rw := d.ranges.map (fun _ => true)
    at_ := (0, 0)
    needW := d.outs ++ (if field pkt 52 4 = 0 then [] else [(field pkt 56 8, field pkt 52 4)])
    codeBase := field pkt 32 8, seq := seq, record := none, released := false }

/-- PACKET_APPLY: the packet at the head of the stream is refused, or enters its queue and its handle follows 03 R75
(14 R367, R369, R377). -/
def execPacketApply (s : State) : Out :=
  match s.stream with
  | .packet seq master part pkt :: rest =>
    let s0 : State := { s with stream := rest }
    let s1 := if pktCrcOk pkt && pktFormatOk (s.lpaclOf master) master pkt then
        (s0.readDesc part pkt).1
      else s0
    match s0.checkPacket master part pkt with
    | .error code => .next (s1.refuse pkt part seq code).select
    | .ok (bs, d) =>
      let k : Task := ⟨seq, pkt, bs, part, master⟩
      if pktSup pkt then .next (s1.updDie (field pkt 84 1) (fun q => { q with supWaiting := q.supWaiting ++ [k] })).select
      else
        let s2 : State := { s1 with queues := s1.queues ++ [k] }
        let s3 : State := if pktOpen pkt || (s2.lease? (field pkt 6 2)).isSome then s2
          else { s2 with leases := s2.leases ++ [newLease pkt part seq d] }
        .next s3.select
  | _ => .fault .noContext

/-- TASK_END_EVENT: the tiles and slots of the task are free; its banks return once its epochs are applied (14 R364,
05 R125). -/
def execTaskEndEvent (s : State) : Out :=
  match s.stream with
  | .taskEnd _ of :: rest =>
    let s1 : State := { s with stream := rest }
    .next (s1.updDom of (fun d => { d with phase := .freed })).releaseFreed.select
  | _ => .fault .noContext

/-! ## Binding (14 R373, 04 R86) -/

/-- A block that stands before the first: its end is the entry of the task's first block. -/
def beforeEntry (entry : W64) : Block := ⟨entry, 0, [[], [], [], []], entry, none⟩

/-- The tile state at launch. -/
def launchTile (lt cluster idx : Nat) (slot : Bool) (entry : W64) (wins : List Win) : Tile :=
  { lt := lt, cluster := cluster, idx := idx, slot := slot
    s := List.replicate 32 0, v := List.replicate 16 zeroLanes
    sqQ := [], vxQ := [], xcQ := [], lsQ := []
    preds := List.replicate 8 ⟨false, false⟩, targets := List.replicate 4 ⟨0, 0, false, false⟩
    stack := [], spills := 0, refill := 0, owed := []
    flags := 0, trapen := 0, rmdyn := 0, laneflg := 0
    sems := List.replicate 16 [], confl := 0, rdv := List.replicate 4 0, epoch := 0, depoch := 0
    wins := wins, pace := List.replicate 3 0, sampctl := 0, sampDrops := 0, sampHead := 0
    block := beforeEntry entry, streams := (beforeEntry entry).freshStreams, btick := 1, rep := 0, start := 0
    badBlock := false, lastF64 := none, decision := none, loader := [⟨entry, .asked, .fall⟩]
    flights := [], engines := List.replicate 4 ⟨[], none, none⟩, recs := [], haltTick := none, cuts := []
    latsel := 0, faddr := 0 }

/-- The windows of a tile at launch: its share of the cluster's lowest free banks. -/
def launchWins (free : List Nat) (wins idx : Nat) : List Win :=
  (List.range 8).map (fun w => if w < wins then
    (match free[wins * idx + w]? with
      | some b => .att b
      | none => .empty) else .empty)

/-- The domain of a task on its clusters, in logical order. -/
def newDomain (s : State) (k : Task) (d : Desc) (clusters : List Nat) : Domain :=
  let wins := field k.pkt 4 1
  let entry : W64 := BitVec.ofNat 64 (field k.pkt 32 8)
  { seq := k.seq, pkt := k.pkt, desc := k.desc, part := k.part, master := k.master, ranges := d.ranges
    groups := d.groups, mcast := d.mcast.map (fun m => (m.2, m.1)), sup := false
    phase := .binding (clusters.map dieOf).eraseDups
    tiles := (clusters.zipIdx).flatMap (fun c => (List.range 4).map (fun i =>
      launchTile (4 * c.2 + i) c.1 i (s.fused.contains c.1 || (s.slotFor c.1 i).getD false) entry
        (launchWins (s.freeBanks c.1) wins i)))
    dtick := 0, holdcnt := 0, hold := none, probeMiss := false, hist := [], froze := [], chief := none, lostFlits := [], released := false, wasHeld := false, begun := 0
    gops := [], evs := [], nextId := 0, ballots := [], choices := [], attaches := [], deferred := [], causes := []
    haltAt := none, fatal := false, endCode := none, resume := false, parked := false, collDone := [] }

/-- Bytes of the record store at launch: records from slot 0 up, constants from slot 4095 down (14 R366, 01 R24). -/
def State.loadStore (s : State) (t : Tile) (d : Desc) : State :=
  let s1 := s.clearRange (locRec t.cluster t.idx t.slot 0) (2 ^ 15)
  let s2 := (d.recs.zipIdx).foldl (fun s r => s.writeLE (locRec t.cluster t.idx t.slot (32 * r.2)) 32 r.1.toNat) s1
  (d.consts.zipIdx).foldl (fun s c => s.writeLE (locRec t.cluster t.idx t.slot (8 * (4095 - c.2))) 8 c.1) s2

/-- Accumulators, B store and slot image of a tile are zero and clean, its slices RAW, and both seal buffers of its slot
read STATE 3 (14 R373, 05 R109, R121; assumption 22). The shadow plane has one B-store image for both slots of a tile: the
launch takes it, whatever the context of the other slot left there (assumption 105). -/
def State.clearTile (s : State) (t : Tile) : State :=
  let cl := t.cluster
  let a := locAcc cl t.idx t.slot 0
  let b := locB cl t.idx t.slot 0
  let outside (l : Nat) : Bool :=
    !(decide (a ≤ l) && decide (l < a + 2 ^ 17)) && !(decide (b ≤ l) && decide (l < b + 2 ^ 20))
  let s1 := ((s.clearRange a (2 ^ 17)).clearRange b (2 ^ 20)).clearRange (locShadow cl (planeB t.idx)) (2 ^ 20)
  let s2 := s1.clearRange (locShadow (s.seatOf cl) (planeSlot t.idx t.slot)) (192 * 1024)
  let s3 := s2.updCluster cl (fun c => { c with
    slices := (List.range 64).foldl (fun l j => upd l (sliceAt t.idx t.slot j) (fun _ => Tag.raw)) c.slices
    dirty := c.dirty.filter outside
    counted := c.counted.filter outside
    images := c.images.filter (fun i => !(i.tile == t.idx && i.slot == t.slot)) })
  (s3.setSealState cl t.idx t.slot 0 3).setSealState cl t.idx t.slot 1 3

/-- One bank image, written to the bank and to its home (05 R109). -/
def State.loadImage (s : State) (t : Tile) (i : Nat × Nat × Nat × List Byte) : State :=
  match (if i.1 = 0xFFFF ∨ i.1 = t.lt then t.bank? i.2.1 else none) with
  | some b => (s.writeBytes (locBank t.cluster b i.2.2.1) i.2.2.2).writeBytes
      (locShadow t.cluster (planeBank b + i.2.2.1)) i.2.2.2
  | none => s

/-- The banks that a tile held without a context return to the pool, to be cleared, when a launch binds on it (04 R85,
R86; assumption 88). -/
def State.freeLoose (s : State) (cl idx : Nat) : State :=
  let mine := (s.cluster cl).loose.filter (fun x => x.1 == idx)
  (mine.foldl (fun s x => match x.2.2 with
    | .att b => s.setBank cl b .clearing
    | .pend b => s.setBank cl b .clearing
    | .empty => s) s).updCluster cl (fun c => { c with loose := c.loose.filter (fun x => x.1 != idx) })

/-- Bind one tile: banks, images, record store, slot, and the tile's active slot. -/
def State.bindTile (s : State) (t : Tile) (d : Desc) : State :=
  let banks := (List.range 8).filterMap (fun w => t.bank? w)
  let s1 := banks.foldl (fun s b => (s.zeroBank t.cluster b).setBank t.cluster b .used) (s.freeLoose t.cluster t.idx)
  let s2 := ((d.images.foldl (fun s i => s.loadImage t i) s1).clearTile t).loadStore t d
  s2.updCluster t.cluster (fun c => { c with
    activeB := upd c.activeB t.idx (fun _ => t.slot) })

/-- The descriptor of a task, as its packet's checks read it. -/
def taskDesc (pkt desc : List Byte) : Desc := (parseDesc desc (pktSup pkt)).getD ⟨[], [], [], [], [], [], []⟩

/-- The banks of a placement are the task's from now on. -/
def State.reserve (s : State) (d : Domain) : State :=
  d.tiles.foldl (fun s t => ((List.range 8).filterMap (fun w => t.bank? w)).foldl (fun s b =>
    s.setBank t.cluster b .used) s) s

/-- The clusters that the selected task takes now: those that a quantum's park has made room on, or else the first free
placement (14 R372, R375). -/
def State.placeTask (s : State) (k : Task) : Option (List Nat) :=
  let wins := field k.pkt 4 1
  match s.room with
  | some (q, cls) => if q = k.seq then
      (if cls.all (fun c => if s.fused.contains c then s.partnerFree wins c else s.clusterFree k.part wins c)
        then some cls else none)
    else s.place (s.clusterFree k.part wins) (s.partnerFree wins) (field k.pkt 1 1)
  | none => s.place (s.clusterFree k.part wins) (s.partnerFree wins) (field k.pkt 1 1)

/-- The parked domain may go on: no other context is active on its tiles (14 R375). -/
def State.slotsBack (s : State) (d : Domain) : Bool :=
  d.phase == .halted && d.parked && d.tiles.all (fun t => match s.contextOn t.cluster t.idx (s.activeSlot t.cluster t.idx) with
    | some (e, _) => e.seq == d.seq
    | none => true) && (s.runsOn d).all (fun c => !(s.cluster c).gated)

/-- The tiles of a domain run their own slots. -/
def State.activate (s : State) (d : Domain) : State :=
  d.tiles.foldl (fun s t => s.updCluster t.cluster (fun c => { c with
    activeB := upd c.activeB t.idx (fun _ => t.slot) })) s

/-- The selected task can be bound, or resumed. -/
def State.bindReady (s : State) : Bool :=
  match s.selected with
  | none => false
  | some q => match s.queues.find? (fun k => k.seq == q) with
    | some k => (s.placeTask k).isSome
    | none => match s.dom? q with
      | some d => s.slotsBack d
      | none => false

/-- One die binds its share of a domain. -/
def State.bindShare (s : State) (d : Domain) (die : Nat) : State :=
  let s1 := (d.tiles.filter (fun t => dieOf t.cluster == die)).foldl (fun s t =>
    s.bindTile t (taskDesc d.pkt d.desc)) s
  s1.updDom d.seq (fun e => match e.phase with
    | .binding l => { e with phase := (if l.filter (· != die) = [] then .starting else .binding (l.filter (· != die))) }
    | _ => e)

/-- TASK_BIND: with `cur.dom` a domain that binds, die `cur.die` binds its share; else the selected task takes its
placement, or the selected parked task resumes in its own slots (14 R371-R375). -/
def execTaskBind (s : State) : Out :=
  match s.dom? s.cur.dom with
  | some d => (match d.phase with
    | .binding _ => .next (s.bindShare d s.cur.die)
    | _ => .fault .noContext)
  | none => match s.selected with
    | none => .fault .noContext
    | some q => match s.queues.find? (fun k => k.seq == q) with
      | some k => (match s.placeTask k with
        | none => .fault .noContext
        | some cls =>
          let d := newDomain s k (taskDesc k.pkt k.desc) cls
          let s1 : State := { s with
            domains := s.domains ++ [d]
            queues := s.queues.filter (fun x => x.seq != q)
            selected := none
            room := none }
          .next (s1.reserve d).select)
      | none => match s.dom? q with
        | some d => if s.slotsBack d
            then .next { ((s.activate d).resumeFrame q) with selected := none, room := none }.select
            else .fault .noContext
        | none => .fault .noContext

/-- A domain of a cluster under a quiesce request latches it as it starts. Assumption 72. -/
def State.startDomain (s : State) (d : Domain) : State :=
  let q := (s.runsOn d).any (fun c => (s.cluster c).qreq)
  s.updDom d.seq (fun e =>
    let e1 : Domain := { e with phase := .running }
    if q then e1.request cQuiesce else e1)

/-- DOMAIN_START: the start lead has run, and tick 0 begins on every tile (14 R373). -/
def execDomainStart (s : State) : Out :=
  match s.dom? s.cur.dom with
  | none => .fault .noContext
  | some d => .next (s.startDomain d)

/-! ## Supervisor launches (14 R377) -/

/-- The one-tile domain of a supervisor launch. -/
def supDomain (s : State) (k : Task) (die : Nat) : Domain :=
  let d := newDomain s k ⟨[], [], [], [], [], [], []⟩ []
  { d with sup := true, phase := .starting
           tiles := [launchTile 0 (192 + die) 0 false (BitVec.ofNat 64 (field k.pkt 32 8)) (launchWins [] 0 0)] }

/-- SUP_LAUNCH_BIND: the firmware of die `cur.die` parks, and the next unit binds on its tile. -/
def execSupLaunchBind (s : State) : Out :=
  match (s.die s.cur.die).supWaiting with
  | [] => .fault .noContext
  | k :: rest =>
    let d := supDomain s k s.cur.die
    let s1 := (d.tiles.foldl (fun s t => s.bindTile t (taskDesc k.pkt k.desc)) s).updDie s.cur.die (fun q => { q with
      supWaiting := rest
      fwParked := true })
    .next { s1 with domains := s1.domains ++ [d] }

/-! ## Quanta (14 R375) -/

/-- A cluster of a domain takes another task in its other slots. -/
def State.otherFree (s : State) (d : Domain) (part wins cl : Nat) : Bool :=
  d.clusterList.contains cl && s.servesPart cl part && !(s.cluster cl).gated && !s.hosting cl && !s.fused.contains cl &&
    (d.tiles.filter (fun t => t.cluster == cl)).all (fun t => s.slotEmpty cl t.idx (!t.slot)) &&
    decide (4 * wins ≤ (s.freeBanks cl).length)

/-- Where the selected task fits on the clusters of the domain that it outranks: its placement in their other slots; for a
parked task, none but its own (14 R375). -/
def State.roomOn (s : State) (d : Domain) : Option (Nat × List Nat) :=
  match s.selected with
  | none => none
  | some q => match s.queues.find? (fun k => k.seq == q) with
    | some k =>
      let wins := field k.pkt 4 1
      if s.rankOf (field d.pkt 2 1) < s.rankOf (field k.pkt 2 1) then
        (s.place (s.otherFree d k.part wins) (s.partnerFree wins) (field k.pkt 1 1)).map (fun cls => (q, cls))
      else none
    | none => match s.dom? q with
      | some e => if s.rankOf (field d.pkt 2 1) < s.rankOf (field e.pkt 2 1) ∧
            e.tiles.all (fun t => d.tiles.any (fun u => u.cluster == t.cluster && u.idx == t.idx && u.slot != t.slot))
          then some (q, e.clusterList) else none
      | none => none

/-- The selected task outranks the domain and fits on its clusters. -/
def State.outranked (s : State) (d : Domain) : Bool := (s.roomOn d).isSome

/-- This tick is a quantum tick. -/
def Domain.quantumDue (d : Domain) : Bool := d.quantum != 0 && d.dtick % d.quantum == 0

/-- QUANTUM_END: the domain latches a quantum end and will park; the selected task keeps the room found for it.
Assumption 70. -/
def execQuantumEnd (s : State) : Out :=
  match s.dom? s.cur.dom with
  | none => .fault .noContext
  | some d => .next { (s.updDom d.seq (fun e => { (e.request cQuantum) with parked := true, begun := 2 })) with
      room := s.roomOn d }

end Sys2Proof.Machine
end

