-- ==== Sys2Proof/Machine/HostIf.lean ====
section
/-!
DEFINITION. The mailbox and attestation (18 R425, R438), the Rentan links (18 R423), and the routers (16 R393-R401).
-/

namespace Sys2Proof.Machine

/-! ## Mailbox (18 R425, R438) -/

def mailCommand : Nat := 0
def mailResponse : Nat := 0x100

/-- READY: the boot has reached stage 9 (18 R439). -/
def State.ready (s : State) : Bool := s.bootst.extractLsb' 0 4 == 9

/-- A response stands: GO clears, DONE sets, ERR tells whether it was rejected; the buffer holds what fits it. -/
def State.respond (s : State) (resp : List Byte) (rejected : Bool) : State :=
  { (s.writeBytes (locMail mailResponse) (resp.take 256)) with
    mbctl := 2 + (if rejected then 4 else 0)
    answers := s.answers ++ [.data resp] }

/-- The report's first 160 bytes: the hardware's fields and the nonce (18 R438). -/
def attestHead (s : State) (nonce : List Byte) : List Byte :=
  let map : BitVec 192 := s.fused.foldl (fun m c => m ||| (1 <<< c)) 0
  toLE 32 s.imageHash.toNat ++ toLE 32 Config.keyHash.toNat ++ toLE 4 Config.romVersion.toNat ++
    toLE 4 s.imageVersion.toNat ++ toLE 1 (if s.fused.isEmpty then 0 else 1) ++ toLE 24 map.toNat ++
    List.replicate 31 0 ++ nonce

/-- ATTEST with a nonce of 32 bytes returns the report, and with none the signature of the last report; another length is
rejected (assumption 25). -/
def State.attestReply (s : State) (nonce : List Byte) : State :=
  if nonce.length = 32 then
    let head := attestHead s nonce
    { (s.respond (head ++ List.replicate 288 0) false) with signature := toBE 384 (Config.attestSign head).toNat }
  else if nonce.isEmpty && !s.signature.isEmpty then { (s.respond s.signature false) with signature := [] }
  else s.respond [] true

/-- A posted ATTEST is answered once the device is READY. -/
def State.serveAttest (s : State) : State :=
  if s.mbctl.getLsbD 0 && s.ready && s.readLE (locMail mailCommand) 2 == 1 then
    s.attestReply (s.readBytes (locMail (mailCommand + 4)) (min 252 (s.readLE (locMail (mailCommand + 2)) 2)))
  else s

/-- MAILBOX_FIRMWARE_COMMAND: the firmware takes a posted command that is its own, with its response. -/
def execMailboxFirmwareCommand (response : List (BitVec 8)) (rejected : Bool) (s : State) : Out :=
  if s.mbctl.getLsbD 0 && s.ready && s.readLE (locMail mailCommand) 2 != 1 then .next (s.respond response rejected)
  else .next s

/-! ## Links (18 R423) -/

/-- LNKST of a link after a training; only an up link has lanes and a rate in use. -/
def trained (old : W64) (r : Training) : W64 :=
  let good := r.stage == 4 && (r.width == 4 || r.width == 8 || r.width == 16) && r.rate != 0 && r.rate.ult 4
  (old &&& 0xF000) ||| (if good then 4 ||| (r.width.setWidth 64 <<< 3) ||| (r.rate.setWidth 64 <<< 8) |||
      (if r.rev then 0x800 else 0)
    else if r.stage.ult 4 then r.stage.setWidth 64 else 3)

/-- A link that is down trains. -/
def State.train (s : State) (l : Nat) (r : Training) : State :=
  if s.linkUp l then s else { s with lnkst := upd s.lnkst l (fun x => trained x r) }

/-- RENTAN_LINK_DOWN: an up link falls to stage 0 and ERRS counts the retraining, up to 15. -/
def execRentanLinkDown (link : Nat) (s : State) : Out :=
  .next (if s.linkUp link then { s with lnkst := upd s.lnkst link (fun x =>
      (if x.extractLsb' 12 4 = 15 then x else x + 0x1000) &&& 0xF000) } else s)

/-! ## Routers (16 R393-R401) -/

/-- One step along a ring from a to b: the shorter way, and the positive way at a distance of 4. -/
def ringStep (a b : Nat) (plus minus : Port) : Option Port :=
  let d := (b + 8 - a) % 8
  if d = 0 then none else if d ≤ 4 then some plus else some minus

/-- The port of a flit toward a node of its die: across, then up (16 R396). -/
def towards (node dest : Nat) : Port :=
  match ringStep (node % 8) (dest % 8) .e .w with
  | some p => p
  | none => match ringStep (node / 8) (dest / 8) .n .s with
    | some p => p
    | none => .loc

/-- The rank of a die among those other than d (16 R397). -/
def rankOfDie (d e : Nat) : Nat := if e < d then e else e - 1

/-- A DEST or SRC byte: die, and node 8y + x. -/
def nodeField (b : BitVec 8) : Nat × Nat :=
  ((b.extractLsb' 0 2).toNat, 8 * (b.extractLsb' 5 3).toNat + (b.extractLsb' 2 3).toNat)

/-- The port of a unicast flit at a node (16 R396, R397). -/
def unicastPort (die node : Nat) (h : BitVec 128) : Port :=
  let dest := nodeField (h.extractLsb' 8 8)
  let src := nodeField (h.extractLsb' 16 8)
  if dest.1 = die then towards node dest.2
  else
    let j := rankOfDie die dest.1
    let gate := 8 * (if src.2 / 8 < 4 then 3 else 7) + 2 * j + src.2 % 2
    if node = gate then .bridge j else towards node gate

/-- The ports of a multicast entry that the node has (16 R393, R400). -/
def mcPorts (node : Nat) (e : BitVec 16) : List Port :=
  (if e.getLsbD 0 then [.e] else []) ++ (if e.getLsbD 1 then [.w] else []) ++ (if e.getLsbD 2 then [.n] else []) ++
    (if e.getLsbD 3 then [.s] else []) ++ (if e.getLsbD 4 then [.loc] else []) ++
    ([0, 1, 2] : List Nat).filterMap (fun j => if e.getLsbD (6 + j) && bridgeAt node j then some (.bridge j) else none)

/-- The virtual network of a header. -/
def netOf (h : BitVec 128) : Nat := (h.extractLsb' 0 2).toNat

/-- The ports that a flit leaves a router by, local delivery among them; or the reason for which it goes no further: 1
INTEGRITY for a reserved network or type, 3 MCID where its MCID has no entry (16 R395, R401, R407). Assumption 68. -/
def State.flitPorts (s : State) (die node : Nat) (h : BitVec 128) : Except Nat (List Port) :=
  if netOf h = 3 || Config.typeReserved (h.extractLsb' 2 6) then .error 1
  else if h.getLsbD 24 then
    let e := s.mcEntry die node (h.extractLsb' 32 8).toNat
    if e.getLsbD 15 then .ok (mcPorts node e) else .error 3
  else .ok [unicastPort die node h]

/-- The router, and its port, that a flit reaches by a port of a node; a local port and one that the node has not lead to
no router (16 R393, R397). -/
def receiver (die node : Nat) : Port → Option (Nat × Nat × Port)
  | .e => some (die, torusStep node 1 0, .w)
  | .w => some (die, torusStep node 7 0, .e)
  | .n => some (die, torusStep node 0 1, .s)
  | .s => some (die, torusStep node 0 7, .n)
  | .loc => none
  | .sup => none
  | .bridge j => if bridgeAt node j then some (dieOfRank die j, node, .bridge (rankOfDie (dieOfRank die j) die)) else none

/-- The rank at a die of the bridge by which flits come in from the die of rank r: they enter at the attachment of the
same coordinates (16 R397). -/
def rankBack (die r : Nat) : Nat := rankOfDie (dieOfRank die r) die

/-- The router and port from which a flit reaches a port of a node: torus links join the same two ports both ways, and a
bridge's flits come from the attachment of the same coordinates. -/
def sender (die node : Nat) : Port → Option (Nat × Nat × Port)
  | .bridge r => if bridgeAt node (rankBack die r) && decide (r < 3)
      then some (dieOfRank die r, node, .bridge (rankBack die r)) else none
  | .e => receiver die node .e
  | .w => receiver die node .w
  | .n => receiver die node .n
  | .s => receiver die node .s
  | .loc => none
  | .sup => none

/-- A port by which flits come in at a node: its local port, four torus ports, at (0, 3) the supervisor's, and the bridge
from the die of rank r where its flits enter (16 R393, R397, 02 R39). -/
def hasPort (die node : Nat) : Port → Bool
  | .sup => node == 24
  | .bridge r => bridgeAt node (rankBack die r) && decide (r < 3)
  | _ => true

/-- The number of a port, for arbitration. -/
def portIdx : Port → Nat
  | .e => 0
  | .w => 1
  | .n => 2
  | .s => 3
  | .loc => 4
  | .sup => 5
  | .bridge j => 6 + j

/-- The flits of one network in the buffers of a port, oldest first. -/
def poolOf (q : Die) (node : Nat) (p : Port) (net : Nat) : List FlitAt :=
  q.flits.filter (fun f => f.node == node && f.from_ == p && netOf f.header == net)

/-- Buffers of a port for each network: four at a torus port, sixteen at a bridge port; the manual bounds no local port
(16 R398). -/
def poolSize : Port → Option Nat
  | .loc => none
  | .sup => none
  | .bridge _ => some 16
  | _ => some 4

/-- A flit goes straight on along its ring. -/
def straight (inp out : Port) : Bool :=
  (inp == .w && out == .e) || (inp == .e && out == .w) || (inp == .s && out == .n) || (inp == .n && out == .s)

/-- The bubble rule (16 R398): a flit goes on along its ring into one free buffer, enters a ring into a pool with two
free, and crosses a bridge into one. -/
def State.hasRoom (s : State) (die node : Nat) (f : FlitAt) (out : Port) : Bool :=
  match receiver die node out with
  | none => false
  | some (d, n, p) =>
    let used := (poolOf (s.die d) n p (netOf f.header)).length
    match poolSize p with
    | none => true
    | some k => decide (used + (if straight f.from_ out || p == .bridge 0 || p == .bridge 1 || p == .bridge 2 then 1 else 2) ≤ k)

/-- The input pools of a node in their order for arbitration: port, then network. -/
def inputPools : List (Port × Nat) :=
  ([.e, .w, .n, .s, .loc, .sup, .bridge 0, .bridge 1, .bridge 2] : List Port).flatMap (fun p =>
    ([0, 1, 2] : List Nat).map (fun v => (p, v)))

/-- A list from the item after x on, around. -/
def after {α : Type} [DecidableEq α] (x : Option α) (l : List α) : List α :=
  match x with
  | none => l
  | some a => (l.dropWhile (· != a)).tail ++ l.takeWhile (· != a) ++ l.filter (· == a)

/-- The flit that an output port of a node serves next: the oldest of an input pool that wants the port and has room,
round robin over the pools (16 R398, R399). -/
def State.nextFlit (s : State) (die node : Nat) (out : Port) : Option FlitAt :=
  let q := s.die die
  let last := (q.served.find? (fun x => x.1 == (node, out))).map (fun x => x.2)
  (after last inputPools).findSome? (fun p => match poolOf q node p.1 p.2 with
    | f :: _ => if f.outs.contains out && s.hasRoom die node f out then some f else none
    | [] => none)

/-- A copy of the first such flit has left by a port; a flit with no port left is gone. -/
def leaveBy (f : FlitAt) (p : Port) : List FlitAt → List FlitAt
  | [] => []
  | x :: r =>
    if x = f then
      (let g := { x with outs := x.outs.erase p }
       if g.outs.isEmpty then r else g :: r)
    else x :: leaveBy f p r

/-- The flit that arrives at a port has left the router that serves it. -/
def State.leaveSender (s : State) (die node : Nat) (port : Port) (header : BitVec 128) : State :=
  match sender die node port with
  | none => s
  | some (d, n, p) => match s.nextFlit d n p with
    | none => s
    | some f => if f.header = header then s.updDie d (fun q => { q with
          flits := leaveBy f p q.flits
          served := ((n, p), (f.from_, netOf f.header)) :: q.served.filter (fun x => x.1 != (n, p)) })
        else s

/-- The payload granule of a flit: 128 bytes, zeros where it carries none (16 R394). -/
def granuleOf (b : List Byte) : List Byte := sized 128 b

/-! ### The transfer of a flit: its tag and its local delivery (16 R395, R401, R407). Assumption 112. -/

def tagOfFlit (h : BitVec 128) : Nat := (h.extractLsb' 40 24).toNat
def offsetOfFlit (h : BitVec 128) : Nat := (h.extractLsb' 64 32).toNat

/-- A tile runs at the node of a DEST or SRC byte: one of the node's cluster or of a partner on it, or at (0, 3) the
supervisor's (02 R39, 16 R393). -/
def State.clustersAt (s : State) (x : Nat × Nat) (t : Tile) : Bool :=
  match clusterAt x.1 x.2 with
  | some c => s.seatOf t.cluster == c
  | none => x.2 == 24 && t.cluster == 192 + x.1

/-- The lowest member of group g whose tile runs at a node. -/
def State.memberAt (s : State) (d : Domain) (g : Nat) (x : Nat × Nat) : Option Nat :=
  (d.group g).find? (fun lt => match d.tile? lt with
    | some t => s.clustersAt x t
    | none => false)

/-- The groups of a domain that a chorus flit belongs to: those bound to its MCID on the die that it comes from; or for a
unicast flit the one of its tag, with members at its source and its destination. -/
def State.groupsOfFlit (s : State) (d : Domain) (h : BitVec 128) : List Nat :=
  if d.tiles.all (fun t => dieOf t.cluster != (nodeField (h.extractLsb' 16 8)).1) then []
  else if h.getLsbD 24 then (d.mcast.filter (fun m => m.2 == (h.extractLsb' 32 8).toNat)).map (fun m => m.1)
  else
    let g := tagOfFlit h % 256
    if netOf h = 2 && (s.memberAt d g (nodeField (h.extractLsb' 8 8))).isSome &&
        (s.memberAt d g (nodeField (h.extractLsb' 16 8))).isSome then [g] else []

/-- The collectives of a chorus flit have lost it, for a reason, with the member that it names: under MCID the one whose
data it carried, else the one at `at_` when that is known (16 R407, R408). -/
def State.loseChorus (s : State) (h : BitVec 128) (reason : Nat) (at_ : Option (Nat × Nat)) : State :=
  { s with domains := s.domains.map (fun d => if d.phase.over then d else
      { d with lostFlits := (s.groupsOfFlit d h).map (fun g => (g, reason,
          if reason = 3 then s.memberAt d g (nodeField (h.extractLsb' 16 8)) else at_.bind (s.memberAt d g))) ++ d.lostFlits }) }

/-- The tag of an access or a record, by its number, and that of a block fetch, by its address (assumption 112). -/
def tagOfNumber (n : Nat) : Nat := n % 2 ^ 23
def tagOfFetch (va : W64) : Nat := 2 ^ 23 + va.toNat / 8 % 2 ^ 23

/-- What a tile at the node has under way by a tag fails its check: the record that its engine runs stops, and a block fetch
fails (13 R345, 09 R205, 18 R434). -/
def Tile.loseTag (t : Tile) (tag : Nat) : Tile :=
  { t with
    recs := t.recs.map (fun r => if (t.engine r.eng).run == some r.id && r.stage == .queued && tagOfNumber r.ev == tag
      then { r with stage := .written, fault := some (cIntegrity, 0, 0) } else r)
    loader := t.loader.map (fun f => if f.stage == .asked && tagOfFetch f.addr == tag
      then { f with stage := .failed flawCause 0 f.addr } else f) }

/-- The column accesses of a tile at a node that carry a tag fail their check, and its engine's record or its block fetch
that does (16 R395, 13 R327). -/
def State.loseRequest (s : State) (x : Nat × Nat) (tag : Nat) : State :=
  s.domains.foldl (fun s d => if d.phase.over then s else
    let mine (lt : Nat) : Bool := match d.tile? lt with
      | some t => s.clustersAt x t
      | none => false
    let s1 := (d.gops.filter (fun g => g.pending && mine g.lt && tagOfNumber g.id == tag)).foldl (fun s g => s.spoilGop d g) s
    s1.updDom d.seq (fun e => { e with tiles := e.tiles.map (fun t => if s.clustersAt x t then t.loseTag tag else t) })) s

/-- A flit is lost for its transfer, for a reason: the router counts it, and the transfer fails at its consumer: a
collective, at the member at its DEST when it is a unicast flit, the sender of a request, or the receiver of a response
(16 R395, R407, R408). -/
def State.loseFlit (s : State) (die : Nat) (h : BitVec 128) (reason : Nat) (at_ : Option (Nat × Nat)) : State :=
  let s1 := s.updDie die (fun q => { q with dropped := q.dropped + 1 })
  if h.getLsbD 24 then s1.loseChorus h reason at_
  else if netOf h == 2 then s1.loseChorus h reason (some (nodeField (h.extractLsb' 8 8)))
  else s1.loseRequest (nodeField (if netOf h = 1 then h.extractLsb' 8 8 else h.extractLsb' 16 8)) (tagOfFlit h)

/-- The granule passes the check that it carries end to end (16 R395). -/
def flitSound (h : BitVec 128) (b : List Byte) : Bool := crc32c (granuleOf b) == h.extractLsb' 96 32

/-- Where in a member's destination of n bytes a granule of its collective's data lands, and how many of its bytes: at its
offset in the transfer, up to the end of it; an AG's in the block of the member that its tag names. -/
def landing (h : BitVec 128) (r : Rec) (n : Nat) : Nat × Nat :=
  let o := offsetOfFlit h + (if r.kindCode = kAg then tagOfFlit h / 256 * r.count else 0)
  (o, min (min 128 (r.count - offsetOfFlit h)) (n - o))

/-- The members of a joined AG or BCAST of a group, which alone use multicast (16 R401). -/
def Domain.underway (d : Domain) (g lt : Nat) : List (Tile × Rec) :=
  match (d.tile? lt).bind (fun t => t.current .ch) with
  | some r => if r.group = g ∧ (r.kindCode = kAg ∨ r.kindCode = kBcast) ∧ d.phase = .running
      then (d.members g r.coll).getD [] else []
  | none => []

/-- Where a multicast granule that is delivered at a node lands: the cluster, location and length for every member, in that
cluster, of a collective that uses its MCID and is under way. -/
def State.landings (s : State) (die node : Nat) (h : BitVec 128) : List (Nat × Nat × Nat) :=
  s.domains.flatMap (fun d => if d.phase.over then [] else (s.groupsOfFlit d h).flatMap (fun g =>
    match s.memberAt d g (die, node) with
    | none => []
    | some lt =>
      let ms := d.underway g lt
      (ms.zipIdx).filterMap (fun x => match (if s.clustersAt (die, node) x.1.1 then destRange ms.length x.2 x.1 else none) with
        | some r =>
          let l := landing h x.1.2 r.2
          if l.2 = 0 then none else some (x.1.1.cluster, r.1 + l.1, l.2)
        | none => none)))

/-- A line that the granule would be written to is frozen: it waits (05 R117). -/
def State.landsFrozen (s : State) (die node : Nat) (h : BitVec 128) : Bool :=
  (s.landings die node h).any (fun x => meetsFrozen (s.cluster x.1) [x.2])

/-- Local delivery of a multicast flit (16 R401): the chorus engine writes its granule to every member in the cluster; a
group without a member there fails. -/
def State.deliverFlit (s : State) (die node : Nat) (h : BitVec 128) (b : List Byte) : State :=
  let s1 := (s.landings die node h).foldl (fun s x =>
    if s.mergeSound x.2 then s.storeEngine x.1 x.2.1 ((granuleOf b).take x.2.2) else s) s
  { s1 with domains := s1.domains.map (fun d => if d.phase.over then d else { d with
      lostFlits := ((s.groupsOfFlit d h).filter (fun g => (s.memberAt d g (die, node)).isNone)).map (fun g =>
        (g, 3, s.memberAt d g (nodeField (h.extractLsb' 16 8)))) ++ d.lostFlits }) }

/-- A flit's copy for the local port of a node (16 R393, R395, R401): its check, and the delivery of a multicast granule. A
unicast flit's data is the transfer's own, which the model moves when it is served; the copy is its check alone. -/
def State.takeLocal (s : State) (die node : Nat) (h : BitVec 128) (b : List Byte) : State :=
  if !flitSound h b then s.loseFlit die h 1 (some (die, node))
  else if h.getLsbD 24 then s.deliverFlit die node h b else s

/-- A flit's local copy cannot be taken yet: a sound multicast granule whose lines are frozen (05 R117). -/
def State.localWaits (s : State) (die node : Nat) (h : BitVec 128) (b : List Byte) : Bool :=
  h.getLsbD 24 && flitSound h b && s.landsFrozen die node h

/-- A flit that waited in a router's buffers for its lines delivers its local copy (05 R117). -/
def State.landFlit (s : State) (die : Nat) (f : FlitAt) : State :=
  (s.updDie die (fun q => { q with flits := leaveBy f .loc q.flits })).takeLocal die f.node f.header f.payload

/-- FLIT_RECEIVE: the flit has left its sender's router; its local copy is delivered and checked, and it waits in the
buffers of its port for the others; or it is dropped (16 R395, R396, R398, R401). A local copy whose lines are frozen waits
there too (05 R117). -/
def execFlitReceive (die node : Nat) (port : Port) (header : BitVec 128) (payload : List (BitVec 8)) (s : State) : Out :=
  let s1 := s.leaveSender die node port header
  if !hasPort die node port then .next s
  else match s1.flitPorts die node header with
  | .error reason => .next (s1.loseFlit die header reason none)
  | .ok ps =>
    let waits := s1.localWaits die node header payload
    let s2 := if ps.contains .loc && !waits then s1.takeLocal die node header payload else s1
    let outs := ps.filter (fun p => p != .loc || waits)
    .next (if outs.isEmpty then s2
      else s2.updDie die (fun q => { q with flits := q.flits ++ [⟨node, port, header, granuleOf payload, outs⟩] }))

/-- An MCID is bound by a launch on the die. -/
def State.mcidBound (s : State) (die mcid : Nat) : Bool :=
  s.domains.any (fun d => !d.phase.over && d.mcast.any (fun m => m.2 == mcid) &&
    d.tiles.any (fun t => dieOf t.cluster == die))

def mctNode (x : W64) : Nat := (x.extractLsb' 8 6).toNat
def mctId (x : W64) : Nat := (x.extractLsb' 0 8).toNat

/-- A write of the entry that MCTIDX selects, unless its MCID is bound (16 R400); reserved bits read as zero (00 R12). -/
def State.writeMct (s : State) (die : Nat) (x : W64) : State :=
  let i := (s.die die).mctidx
  if s.mcidBound die (mctId i) then s
  else s.updDie die (fun q => { q with
    mct := (mctNode i, mctId i, x.setWidth 16 &&& 0x81DF) :: q.mct.filter (fun e => !(e.1 == mctNode i && e.2.1 == mctId i)) })

/-- MCTDAT_WRITE. -/
def execMctdatWrite (die : Nat) (value : BitVec 64) (s : State) : Out := .next (s.writeMct die value)

end Sys2Proof.Machine
end

