-- ==== Sys2Proof/Machine/Boot.lean ====
section
/-!
DEFINITION. Loss of power, the resets and the boot stages (18 R437, R439; 05 R131-R133), slot recovery and the restore of
domains.
-/

namespace Sys2Proof.Machine

/-! ## What a loss of power leaves (05, Unplanned loss and resume) -/

/-- The cluster whose live storage a location belongs to: banks, accumulators, B store, record store. -/
def liveCluster (a : Nat) : Option Nat :=
  if a < region 3 then none
  else if a < region 4 then some ((a - region 3) / 2 ^ 23)
  else if a < region 5 then some ((a - region 4) / 2 ^ 20)
  else if a < region 6 then some ((a - region 5) / 2 ^ 23)
  else if a < region 7 then some ((a - region 6) / 2 ^ 18)
  else none

/-- The shadow plane's part of a cluster stays. -/
def Cluster.afterLoss (c : Cluster) : Cluster :=
  { Cluster.reset with images := c.images, journal := c.journal, lost := true }

/-- A cluster in brumation, or on its way out of it, keeps everything, and so does the partner that it hosts (02 R49,
05 R129). -/
def State.keepsPower (s : State) (cl : Nat) : Bool :=
  (s.cluster (s.seatOf cl)).rail == .off || (s.cluster (s.seatOf cl)).wakepend

/-- The live state of clusters, and of the partners that they host, is gone; the domains on them wait for recovery. Those
whose contexts were parked are marked so. -/
def State.losePower (s : State) (cls : List Nat) : State :=
  let hit := cls.filter (fun c => !s.fused.contains c && !s.keepsPower c)
  let gone := hit ++ s.fused.filter (fun f => match s.hostOf f with
    | some h => hit.contains h
    | none => false)
  { s with
    mem := s.mem.filter (fun x => match liveCluster x.1 with
      | some c => !gone.contains c
      | none => true)
    flawed := s.flawed.filter (fun f => match liveCluster (f.1 * 128) with
      | some c => !gone.contains c
      | none => true)
    clusters := s.clusters.map (fun c => if gone.contains c.1 then (c.1, c.2.afterLoss) else c)
    domains := s.domains.map (fun d => if !d.phase.over && d.clusterList.any (fun c => gone.contains c)
      then { d with phase := .lost, parked := s.parkedOut d } else d) }

/-- UNPLANNED_POWER_LOSS. -/
def execUnplannedPowerLoss (clusters : List Nat) (s : State) : Out := .next (s.losePower clusters).releaseFreed

/-! ## Slot recovery (05 R131, R133) -/

/-- The clusters that hold shadow planes in use, and the eight slots of a cluster. -/
def slotsOf : List (Nat × Bool) := (List.range 4).flatMap (fun i => [(i, false), (i, true)])

/-- The journal bytes of a seal match its JCRC. -/
def State.journalOk (s : State) (cl : Nat) (x : List Byte) : Bool :=
  field x 36 4 == (crc32c (s.readBytes (locShadow cl (planeJournal + field x 28 4)) (field x 32 4))).toNat

/-- A tile holds a valid seal of a launch and a DEPOCH. -/
def State.holdsSeal (s : State) (t : Tile) (launch depoch : Nat) : Bool :=
  [0, 1].any (fun b =>
    let x := s.seal t.cluster t.idx t.slot b
    sealValid x && field x 40 8 == launch && field x 20 4 == depoch && field x 24 1 == 2)

/-- The domain whose launch a seal names, of those with a tile that sits at the seal's place: a host may carry it
(02 R49). -/
def State.sealDomain? (s : State) (cl tile : Nat) (slot : Bool) (x : List Byte) : Option Domain :=
  s.domains.find? (fun d => s.seqOf d.seq == field x 40 8 &&
    d.tiles.any (fun t => s.seatOf t.cluster == cl && t.idx == tile && t.slot == slot))

/-- Every member of a committed seal's domain holds its DEPOCH (05 R131, step 2). -/
def State.membersAgree (s : State) (cl tile : Nat) (slot : Bool) (x : List Byte) : Bool :=
  match s.sealDomain? cl tile slot x with
  | some d => d.tiles.all (fun t => s.holdsSeal t (field x 40 8) (field x 20 4))
  | none => false

/-- The cluster whose journal has the records of a seal that stands at a place: the one whose tile of the launch sits
there, which a host may carry (02 R49). -/
def State.journalOf (s : State) (cl tile : Nat) (slot : Bool) (x : List Byte) : Nat :=
  match (s.sealDomain? cl tile slot x).bind (fun d => d.tiles.find? (fun t =>
      s.seatOf t.cluster == cl && t.idx == tile && t.slot == slot)) with
  | some t => t.cluster
  | none => cl

/-- Recover one slot, by what the members held before any recovery (`s0`): a seal is discarded, or its records are
replayed and it stands. -/
def State.recoverSlot (s0 : State) (cl tile : Nat) (slot : Bool) : Nat → State → State
  | 0, s => s
  | fuel + 1, s =>
    match s.latestSeal cl tile slot with
    | none => s
    | some b =>
      let x := s.seal cl tile slot b
      let st := field x 60 4
      let j := s.journalOf cl tile slot x
      if (st = 0 && !s0.membersAgree cl tile slot x) || (st ≤ 1 && !s.journalOk j x) then
        s0.recoverSlot cl tile slot fuel (s.setSealState cl tile slot b 3)
      else if st ≤ 1 then
        ((s.replay j (field x 32 4 / 272) (field x 28 4)).setSealState cl tile slot b 2).updCluster j (fun c =>
          { (c.takeImages (c.journal.filter (fun i => i.tile == tile && i.slot == slot))) with
            journal := c.journal.filter (fun i => !(i.tile == tile && i.slot == slot)) })
      else s

/-- Recover every slot of a cluster; its journal is then free. A fused cluster's slots are its host's. -/
def State.recoverCluster (s0 : State) (s : State) (cl : Nat) : State :=
  (if s0.fused.contains cl then s else slotsOf.foldl (fun s x => s0.recoverSlot cl x.1 x.2 3 s) s).updCluster cl (fun c =>
    { c with journal := [], lost := false })

/-! ## Restoring domains (05 R132) -/

/-- A seal of a domain over T K B A, applied. -/
def sealWhole (launch : Nat) (x : List Byte) : Bool :=
  sealValid x && field x 40 8 == launch && field x 24 1 == 2 && field x 25 1 == 15 && field x 60 4 == 2

/-- The applied seal of every member with one DEPOCH: its HALT. -/
def State.wholeHalt (s : State) (d : Domain) (depoch : Nat) : Option Nat :=
  let halts := d.tiles.map (fun t => ([0, 1].map (s.seal t.cluster t.idx t.slot)).find? (fun x =>
    sealWhole (s.seqOf d.seq) x && field x 20 4 == depoch))
  match halts with
  | some x :: _ => if halts.all Option.isSome then some (field x 8 8) else none
  | _ => none

/-- The domain's latest seal that is applied on every member (05 R132): its HALT. -/
def State.lastWhole (s : State) (d : Domain) : Option Nat :=
  match d.tiles with
  | [] => none
  | t :: _ =>
    let mine := sortBy (fun a b => decide (field b 0 8 ≤ field a 0 8))
      (([0, 1].map (s.seal t.cluster t.idx t.slot)).filter (sealWhole (s.seqOf d.seq)))
    mine.findSome? (fun x => s.wholeHalt d (field x 20 4))

/-- Every member's latest valid seal has this HALT. -/
def State.allHalt (s : State) (d : Domain) (h : Nat) : Bool :=
  d.tiles.all (fun t => match s.latestSeal t.cluster t.idx t.slot with
    | some b => field (s.seal t.cluster t.idx t.slot b) 8 8 == h
    | none => false)

/-- The control image of a tile. -/
def State.imageOf (s : State) (t : Tile) : Option Image :=
  (s.cluster t.cluster).images.find? (fun i => i.tile == t.idx && i.slot == t.slot)

/-- Copy a range of the shadow plane to live storage. -/
def State.copyHome (s : State) (cl plane loc n : Nat) : State :=
  (s.clearRange loc n).copyOver (locShadow cl plane) loc n

/-- The banks that a lost domain held go back to the pool: those of clusters that kept their power, leaving or not, are
cleared there (04 R85, R86). -/
def State.returnBanks (s : State) (d : Domain) : State :=
  d.clusterList.foldl (fun s c => (d.heldBanks c).foldl (fun s b =>
    if (s.cluster c).banks.getD b .free == .used || (s.cluster c).banks.getD b .free == .leaving then s.setBank c b .clearing
    else s) s) s

/-- The live storage of a tile from its home images, its banks in its windows again (assumption 26 for the record
store); its slot is active unless its context was parked. -/
def State.restoreTile (s : State) (t : Tile) (i : Image) (d : Desc) (parked : Bool) : State :=
  let cl := t.cluster
  let banks := t.wins.filterMap (fun w => match w with
    | .att b => some b
    | .pend b => some b
    | .empty => none)
  let s1 := banks.foldl (fun s b => ((s.copyHome cl (planeBank b) (locBank cl b 0) (2 ^ 19)).setBank cl b .used).setTag cl b
    (i.tags.getD b Tag.raw)) s
  let s2 := s1.copyHome cl (planeB t.idx) (locB cl t.idx t.slot 0) (2 ^ 20)
  let s3 := s2.copyHome (s.seatOf cl) (planeSlot t.idx t.slot) (locAcc cl t.idx t.slot 0) (2 ^ 17)
  (s3.loadStore t d).updCluster cl (fun c => { c with
    counted := withNew c.counted i.counted
    activeB := if parked then c.activeB else upd c.activeB t.idx (fun _ => t.slot)
    slices := (List.range 64).foldl (fun l j =>
      upd l (sliceAt t.idx t.slot j) (fun _ => i.slices.getD (sliceAt t.idx t.slot j) Tag.raw)) c.slices })

/-- The current block of a tile is fetched again from its tag (05 R108); one that no longer passes is read again when the
tile goes on. -/
def State.refetchTile (s : State) (k lt : Nat) : State :=
  match s.dom? k with
  | none => s
  | some d => match d.tile? lt with
    | none => s
    | some t =>
      let bad := s.updTile k lt (fun u => u.stand (emptyBlock u.block.addr) u.rep u.start d.dtick true)
      if t.block.hdr = 0 ∨ t.badBlock ∨ t.haltTick.isSome then s
      else match fetchBlock s d t t.block.addr with
        | .error _ => bad
        | .ok b => if (worst (validate d t b t.start)).isSome then bad
          else s.updTile k lt (fun u => { (u.stand b u.rep u.start d.dtick false) with decision := u.decision })

/-- Fetch the current blocks of a restored domain again; a running domain reads one that failed at once (09 R209). -/
def State.refetch (s : State) (e : Domain) : State :=
  let s1 := e.tiles.foldl (fun s t => s.refetchTile e.seq t.lt) s
  if e.phase == .running then e.tiles.foldl (fun s t => s.retryBlock e.seq t.lt) s1 else s1

/-- A semaphore whose fences are durable. -/
def settleFences (l : List SemOp) : List SemOp := l.map (fun o => if o.kind = .pfence then { o with arrived := true } else o)

/-- The domain as its images give it: it issues from HALT, its fences durable, its unanswered requests asked again. A
domain that its seal found halted by a trap stays halted; one whose contexts were parked at the loss stays parked and
re-enters selection (05 R132, 14 R375; assumption 56). -/
def restoredDomain (base : Domain) (tiles : List Tile) (h : Nat) (parked : Bool) : Domain :=
  let d : Domain := { base with
    dtick := h
    hold := none
    released := false
    begun := 0
    hist := []
    tiles := tiles.map (fun t => { t with sems := t.sems.map settleFences })
    gops := base.gops.map (fun g => if g.pending then { g with stage := .asked } else g) }
  if parked then { d with phase := .halted, parked := true }
  else if d.phase == .halted then (if d.causes.all (fun c => requestCode c.code) then d.resumeHalted else d)
  else { d with phase := .running }

/-- A user-mode task has its lease: one that a reset has emptied builds again (03 R75). -/
def State.relet (s : State) (d : Domain) : State :=
  if d.relaxed || (s.lease? d.handle).isSome then s
  else { s with leases := s.leases ++ [newLease d.pkt d.part d.seq (taskDesc d.pkt d.desc)] }

/-- The task starts over from its packet, its seals discarded (05 R132). -/
def State.restart (s : State) (d : Domain) : State :=
  let s1 := (d.tiles.foldl (fun s t =>
    (s.setSealState t.cluster t.idx t.slot 0 3).setSealState t.cluster t.idx t.slot 1 3) s).returnBanks d
  let k : Task := ⟨d.seq, d.pkt, d.desc, d.part, d.master⟩
  let s2 : State := { s1 with domains := s1.domains.filter (fun e => e.seq != d.seq) }
  if d.sup then s2.updDie (field d.pkt 84 1) (fun q => { q with supWaiting := q.supWaiting ++ [k] })
  else ({ s2 with queues := s2.queues ++ [k] } : State).relet d

/-- Recover one lost domain: it resumes, ends in a restore fault, or starts over (05 R132). -/
def State.restoreDomain (s : State) (d : Domain) : State :=
  match s.lastWhole d with
  | none => s.restart d
  | some h =>
    if !s.allHalt d h then ((s.updDom d.seq (fun e => { e with dtick := h })).endTask d 1 cRestore h [])
    else match d.tiles.mapM (fun t => s.imageOf t) with
      | none => s.restart d
      | some images => match images with
        | [] => s.restart d
        | i0 :: _ =>
          let e := restoredDomain i0.base (images.map (fun i => i.ctrl.recount)) h d.parked
          let s1 := (e.tiles.zip images).foldl (fun s x => s.restoreTile x.1 x.2 (taskDesc d.pkt d.desc) d.parked)
            (s.returnBanks d)
          let s2 := (((s1.updDom d.seq (fun _ => e)).countRecords d.seq).refetch e).relet d
          if e.phase == .halted && !e.parked then s2.postNotices e else s2

/-- Epochs of lost domains are no more. -/
def State.dropEpochs (s : State) (seqs : List Nat) : State :=
  { s with clusters := s.clusters.map (fun c => (c.1, { c.2 with
      epochs := c.2.epochs.filter (fun e => !seqs.contains e.seq)
      frozen := c.2.frozen.filter (fun l => !c.2.epochs.any (fun e => seqs.contains e.seq &&
        e.parts.any (fun p => p.lines.contains l))) })) }

/-- Every lost domain resumes, ends in a restore fault, or starts over (05 R132). -/
def State.restoreLost (s : State) : State :=
  let lost := s.domains.filter (fun d => d.phase == .lost)
  (lost.foldl (fun s d => s.restoreDomain d) (s.dropEpochs (lost.map (fun d => d.seq)))).releaseFreed.select

/-- The supervisor recovers every slot, then every lost domain, before it reports READY (18 R439). Assumption 56. -/
def State.recover (s : State) : State :=
  ((s.clusters.map (fun c => c.1)).foldl (fun t c => if s.keepsPower c then t else s.recoverCluster t c) s).restoreLost

/-- The power returns to a module that has kept running: the supervisor recovers every slot of the clusters that had lost
it, and the slots that lost domains have elsewhere, then the domains; HBM, leases and registers stand (05 R131, 00 R5,
R6). -/
def State.powerBack (s : State) : State :=
  let back := (s.clusters.filter (fun c => c.2.lost)).map (fun c => c.1)
  let s1 := back.foldl (fun t c => s.recoverCluster t c) s
  ((s.domains.filter (fun d => d.phase == .lost)).foldl (fun t d => (d.tiles.filter (fun x =>
    !back.contains (s.seatOf x.cluster))).foldl (fun t x =>
      s.recoverSlot (s.seatOf x.cluster) x.idx x.slot 3 t) t) s1).restoreLost

/-! ## The firmware image (18 R437) -/

/-- Length of the image at a location: header and body. -/
def State.imageLen (s : State) (loc : Nat) : Nat := 836 + s.readLE (loc + 8) 4

/-- The four conditions of the boot ROM (assumption 29 for the exponent's byte order). -/
def State.imageOk (s : State) (loc : Nat) : Bool :=
  let h := s.readBytes loc 836
  let key := (h.drop 64).take 388
  field h 0 4 == 0x4B525746 && decide (field h 8 4 ≤ Config.flashSize) && digestBits (sha256 key) == Config.keyHash &&
    rsaPssOk (fromBE (key.take 384)) (fromLE (key.drop 384)) ((h.drop 452).take 384)
      (h.take 64 ++ s.readBytes (loc + 836) (field h 8 4)) &&
    decide (Config.minVersion.toNat ≤ field h 4 4)

/-- The verified image's hash and version. -/
def State.adopt (s : State) (loc : Nat) : State :=
  { s with
    imageHash := digestBits (sha256 (s.readBytes loc (s.imageLen loc)))
    imageVersion := BitVec.ofNat 32 (s.readLE (loc + 4) 4) }

/-! ## The stages (18 R428, R439) -/

/-- Training outcomes and self-test that a reset started by a register write meets (assumption 28). -/
def bootInputs (b : BitVec 32) : BootInputs :=
  let link (i : Nat) : Training :=
    ⟨b.extractLsb' i 3, (if b.getLsbD (i + 3) then 16 else if b.getLsbD (i + 4) then 8 else 4), b.extractLsb' (i + 5) 3,
      b.getLsbD (i + 8)⟩
  ⟨b.getLsbD 0, b.getLsbD 1, link 2, link 11, b.getLsbD 20⟩

/-- BOOTST: stage and error. -/
def State.setBoot (s : State) (stage err : Nat) : State := { s with bootst := BitVec.ofNat 64 (err * 16 + stage) }

/-- Stage 7: the self-test; the firmware runs once it has passed. -/
def State.bootLast (s : State) (selfTest : Bool) : State := s.setBoot 7 (if selfTest then 0 else 7)

/-- The firmware is running and has yet to report READY (18 R439). -/
def State.firmwareBoots (s : State) : Bool := s.bootst.extractLsb' 0 8 == 7

/-- Stage 9: the firmware, its PARTMAP entries written, has recovered every slot and reports READY (18 R427, R439). -/
def State.reportReady (s : State) : State := (s.recover.setBoot 9 0).serveAttest.select

/-- Stage 6 on. -/
def State.bootImage (s : State) (selfTest : Bool) : State :=
  if s.imageOk (locFlash 0) then (s.adopt (locFlash 0)).bootLast selfTest else s.setBoot 8 6

/-- Stages 1 to 5 on; with both links down the sequence waits at stage 5. Assumption 66. -/
def State.boot (s : State) (b : BootInputs) : State :=
  if !b.fuseOk then s.setBoot 3 3
  else if !b.hbmOk then s.setBoot 4 4
  else
    let s1 := (s.train 0 b.link0).train 1 b.link1
    if s1.hostUp then s1.bootImage b.selfTestOk else s1.setBoot 5 0

/-- A location that the resets keep: the shadow plane, the flash, the memories of host and peers, and the storage of
clusters in brumation. -/
def State.survives (s : State) (a : Nat) : Bool :=
  match liveCluster a with
  | some c => s.keepsPower c
  | none => (decide (region 2 ≤ a) && decide (a < region 3)) || (decide (region 7 ≤ a) && decide (a < region 8)) ||
      (decide (region 9 ≤ a) && decide (a < region 10)) || decide (region 65536 ≤ a)

/-- The module as a reset leaves it before the stages run: every register at its reset value; the shadow plane, the fuses
and the lost domains stand. Sequence numbers start at 1 again, those of surviving launches apart (14 R364; assumption 30). -/
def State.afterReset (s : State) : State :=
  let s1 := s.losePower (List.range 196)
  let kept := s1.domains.filter (fun d => d.phase == .lost || d.phase == .halted)
  { State.reset with
    domains := kept
    clusters := s1.clusters.map (fun c => if s1.keepsPower c.1 then c else (c.1, c.2.afterLoss))
    mem := s.mem.filter (fun x => s.survives x.1)
    flawed := s.flawed.filter (fun f => s.survives (f.1 * 128))
    nextSeq := (kept.map (fun d => d.seq + 1)).foldl max 1
    seqBases := if kept.isEmpty then [] else (kept.map (fun d => d.seq)).foldl max 0 :: s.seqBases
    fused := s.fused
    arrivals := []
    answers := s.answers
    inputs := s.inputs
    fresh := s.fresh
    cycle := s.cycle }

/-- A warm reset (18 R428, R439). -/
def State.warmReset (s : State) (stages : BootInputs) : State := s.afterReset.boot stages

/-- RESETC.LOAD: in RECOVERY, an image that passes goes to the flash and the sequence goes on; another is discarded
(18 R437). -/
def State.loadImage8 (s : State) : State :=
  if s.bootst.extractLsb' 0 4 != 8 then s
  else if s.imageOk (locRecovery 0) then
    let n := s.imageLen (locRecovery 0)
    let s1 := s.writeBytes (locFlash 0) (s.readBytes (locRecovery 0) n)
    let s2 := (s1.adopt (locFlash 0)).tickFresh
    s2.bootLast (bootInputs (Config.bootBits s.fresh)).selfTestOk
  else s.clearRange (locRecovery 0) (2 ^ 19)

/-- COLD_RESET. -/
def execColdReset (stages : BootInputs) (s : State) : Out := .next (s.afterReset.boot stages)

/-- A boot that waits at stage 5 goes on once a link is up (18 R439). -/
def State.linked (s : State) : State :=
  if s.bootst.extractLsb' 0 8 = 5 && s.hostUp then
    s.tickFresh.bootImage (bootInputs (Config.bootBits s.fresh)).selfTestOk
  else s

/-- LINK_TRAINING. -/
def execLinkTraining (link : Nat) (result : Training) (s : State) : Out := .next (s.train link result).linked

/-- LINK_RETRY_TIMER: both links down, they train again. -/
def execLinkRetryTimer (first second : Training) (s : State) : Out :=
  .next (if s.hostUp then s else ((s.train 0 first).train 1 second).linked)

end Sys2Proof.Machine
end

