-- ==== Sys2Proof/Machine/Registers.lean ====
section
/-!
DEFINITION. The registers of the configuration window (18 R424-R432), the requests of host and peers, and the aperture
(18 R424, R432).
-/

namespace Sys2Proof.Machine

/-! ## Registers (18 R426) -/

/-- Who accesses the window. -/
inductive Who where | host | supervisor | peer
  deriving DecidableEq, Repr

/-- A register of the configuration window. -/
inductive Reg where
  | mail (ofs : Nat) | mbctl | pcap | pcapst | pfloor (p : Nat) | boost | pwrlog (die : Nat)
  | egbase (n : Nat) | egsize (n : Nat) | eghost (n : Nat)
  | lnkst (l : Nat) | bootst | intst | resetc
  | frbase (p : Nat) | frsize (p : Nat) | frhead (p : Nat) | frtail (p : Nat) | frstat (p : Nat) | dwrite (p : Nat)
  | srbase (p : Nat) | srsize (p : Nat) | leasecmd (p : Nat)
  | lqrank (q : Nat) | lpdrop | lpacl (m : Nat) | macl (m : Nat) | partmap (c : Nat)
  | ptroot (die k : Nat) | tlbinv (die : Nat) | recovery (ofs : Nat)
  deriving DecidableEq, Repr

/-- The register of partition p at an offset of its 0x80 bytes. -/
def partReg (p o : Nat) : Option Reg :=
  match o with
  | 0 => some (.frbase p)
  | 8 => some (.frsize p)
  | 16 => some (.frhead p)
  | 24 => some (.frtail p)
  | 32 => some (.frstat p)
  | 40 => some (.dwrite p)
  | 48 => some (.srbase p)
  | 56 => some (.srsize p)
  | 64 => some (.leasecmd p)
  | _ => none

/-- The register at an offset, a multiple of 8; the places within 0x01000 are presumed (assumption 27). -/
def regAt (o : Nat) : Option Reg :=
  if o < 0x200 then some (.mail o)
  else if o = 0x200 then some .mbctl
  else if o = 0x1000 then some .pcap
  else if o = 0x1008 then some .pcapst
  else if 0x1010 ≤ o ∧ o < 0x1090 then some (.pfloor ((o - 0x1010) / 8))
  else if o = 0x1090 then some .boost
  else if 0x1098 ≤ o ∧ o < 0x10B8 then some (.pwrlog ((o - 0x1098) / 8))
  else if 0x2000 ≤ o ∧ o < 0x2200 then
    let n := (o - 0x2000) / 32
    (match o % 32 with
      | 0 => some (.egbase n)
      | 8 => some (.egsize n)
      | 16 => some (.eghost n)
      | _ => none)
  else if o = 0x3000 then some (.lnkst 0)
  else if o = 0x3008 then some (.lnkst 1)
  else if o = 0x3010 then some .bootst
  else if o = 0x3018 then some .intst
  else if o = 0x3020 then some .resetc
  else if 0x4000 ≤ o ∧ o < 0x4800 then partReg ((o - 0x4000) / 128) (o % 128)
  else if 0x4800 ≤ o ∧ o < 0x4880 then some (.lqrank ((o - 0x4800) / 8))
  else if o = 0x4880 then some .lpdrop
  else if 0x5000 ≤ o ∧ o < 0x7000 then some (.lpacl ((o - 0x5000) / 8))
  else if 0x7000 ≤ o ∧ o < 0x9000 then some (.macl ((o - 0x7000) / 8))
  else if 0x9000 ≤ o ∧ o < 0x9600 then some (.partmap ((o - 0x9000) / 8))
  else if 0x10000 ≤ o ∧ o < 0x50000 then
    let d := (o - 0x10000) / 0x10000
    let r := o % 0x10000
    if r < 0x80 then some (.ptroot d (r / 8)) else if r = 0x80 then some (.tlbinv d) else none
  else if 0x80000 ≤ o ∧ o < 0x100000 then some (.recovery (o - 0x80000))
  else none

/-- What a register reads as. PWRLOG's read takes its entry out. -/
def State.regValue (s : State) (r : Reg) : W64 :=
  match r with
  | .mail o => BitVec.ofNat 64 (s.readLE (locMail o) 8)
  | .mbctl => s.mbctl
  | .pcap => s.pcap.setWidth 64
  | .pcapst => s.pcapst
  | .pfloor p => (s.part p).pfloor.setWidth 64
  | .boost => 0
  | .pwrlog d => (s.popLog d).1
  | .egbase n => (s.egress.getD n (0, 0, 0)).1
  | .egsize n => (s.egress.getD n (0, 0, 0)).2.1
  | .eghost n => (s.egress.getD n (0, 0, 0)).2.2
  | .lnkst l => s.lnkst.getD l 0
  | .bootst => (s.bootst &&& 0xFF) ||| (Config.romVersion.setWidth 64 <<< 8)
  | .intst => s.intst
  | .resetc => 0
  | .frbase p => (s.part p).frbase
  | .frsize p => (s.part p).frsize
  | .frhead p => (s.part p).frhead.setWidth 64
  | .frtail p => (s.part p).frtail.setWidth 64
  | .frstat p => (s.part p).frstat
  | .dwrite p => (s.part p).dwrite
  | .srbase p => (s.part p).srbase
  | .srsize p => (s.part p).srsize
  | .leasecmd _ => 0
  | .lqrank q => (s.lqrank.getD q 0).setWidth 64
  | .lpdrop => s.lpdrop
  | .lpacl m => s.lpaclOf m
  | .macl m => assoc s.macl m 0
  | .partmap c => assoc s.partmap c 0
  | .ptroot d k => (s.die d).ptroot.getD k 0
  | .tlbinv d => (s.die d).tlbinv
  | .recovery o => BitVec.ofNat 64 (s.readLE (locRecovery o) 8)

def State.readReg (s : State) (r : Reg) : W64 × State :=
  match r with
  | .pwrlog d => s.popLog d
  | _ => (s.regValue r, s)

/-- Bits that clear, or start something, when a 1 is written (W1C, W1S). -/
def onesMask : Reg → W64
  | .mbctl => 3
  | .intst => 0xFFFFFFFFFFFFFFFF
  | .frstat _ => 14
  | .tlbinv _ => 0x8000000000000000
  | _ => 0

/-- The masters that the "Written by" column names (18 R426, R429, R430; 17 R415). -/
def mayWrite (w : Who) : Reg → Bool
  | .mail o => (w == .host && decide (o < 0x100)) || (w == .supervisor && decide (0x100 ≤ o))
  | .mbctl => w != .peer
  | .pcap => w == .host
  | .pcapst => false
  | .pfloor _ => w == .host
  | .boost => w == .supervisor
  | .pwrlog _ => false
  | .egbase _ => w == .host
  | .egsize _ => w == .host
  | .eghost _ => w == .host
  | .lnkst _ => false
  | .bootst => false
  | .intst => w != .peer
  | .resetc => w == .host
  | .frbase _ => w != .peer
  | .frsize _ => w != .peer
  | .frhead _ => false
  | .frtail _ => w != .peer
  | .frstat _ => w != .peer
  | .dwrite _ => w != .peer
  | .srbase _ => w == .host
  | .srsize _ => w == .host
  | .leasecmd _ => w != .peer
  | .lqrank _ => w != .peer
  | .lpdrop => w != .peer
  | .lpacl _ => w == .supervisor
  | .macl _ => w == .supervisor
  | .partmap _ => w == .supervisor
  | .ptroot _ _ => w == .supervisor
  | .tlbinv _ => w != .peer
  | .recovery _ => w == .host

/-- FRSIZE and SRSIZE take a power of two from 64 to 65,536 (03 R79). -/
def ringSizeOk (x : W64) : Bool :=
  [64, 128, 256, 512, 1024, 2048, 4096, 8192, 16384, 32768, 65536].any (fun n => x == BitVec.ofNat 64 n)

/-- Each 16-bit field of INTST clears when 1s are written over all of it (18 R435). -/
def clearInts (old x : W64) : W64 :=
  [0, 16, 32, 48].foldl (fun r i => if x.extractLsb' i 16 = 0xFFFF then r &&& ~~~((0xFFFF : W64) <<< i) else r) old

/-- Set register windows of the egress table. -/
def State.setEgress (s : State) (n : Nat) (f : W64 × W64 × W64 → W64 × W64 × W64) : State :=
  { s with egress := upd s.egress n f }

/-- A write of a register by a master that may write it: its writable fields take the value, with the register's own
rules; an LPACL entry keeps V = 0 until READY (18 R439). -/
def State.putReg (s : State) (r : Reg) (x : W64) : State :=
  match r with
  | .mail o => if o < 0x100 ∧ s.mbctl.getLsbD 0 then s else s.writeLE (locMail o) 8 x.toNat
  | .mbctl =>
    let s1 := if x.getLsbD 1 then { s with mbctl := s.mbctl &&& ~~~2 } else s
    if x.getLsbD 0 then ({ s1 with mbctl := (s1.mbctl ||| 1) &&& ~~~4 }).serveAttest else s1
  | .pcap => s.writePcap x
  | .pcapst => s
  | .pfloor p => s.writePfloor p x
  | .boost => s.writeBoost x
  | .pwrlog _ => s
  | .egbase n => s.setEgress n (fun w => (x &&& 0x0000FFFFFFE000F3, w.2))
  | .egsize n => s.setEgress n (fun w => (w.1, x &&& 0xFFFFFFFF, w.2.2))
  | .eghost n => s.setEgress n (fun w => (w.1, w.2.1, x))
  | .lnkst _ => s
  | .bootst => s
  | .intst => { s with intst := clearInts s.intst x }
  | .resetc =>
    let s1 := if x.getLsbD 0 then s.tickFresh.warmReset (bootInputs (Config.bootBits s.fresh)) else s
    if x.getLsbD 1 then s1.loadImage8 else s1
  | .frbase p => s.updPart p (fun q => { q with frbase := x })
  | .frsize p => if ringSizeOk x then s.updPart p (fun q => { q with frsize := x }) else s
  | .frhead _ => s
  | .frtail p => s.writeFrtail p x
  | .frstat p => s.updPart p (fun q => { q with
      frstat := ((q.frstat &&& ~~~(x &&& 14)) &&& ~~~1) ||| (x &&& 1) })
  | .dwrite p => s.updPart p (fun q => { q with dwrite := x })
  | .srbase p => s.updPart p (fun q => { q with srbase := x, srcount := 0 })
  | .srsize p => if ringSizeOk x then s.updPart p (fun q => { q with srsize := x, srcount := 0 }) else s
  | .leasecmd p => s.leaseCommand p x
  | .lqrank q => { s with lqrank := upd s.lqrank q (fun _ => x.setWidth 4) }
  | .lpdrop => { s with lpdrop := x }
  | .lpacl m => { s with lpacl := setAssoc s.lpacl m (x &&& (if s.ready then 0xFFFF01F1 else 0xFFFF01F0)) }
  | .macl m => { s with macl := setAssoc s.macl m (x &&& 0xFF0FE1) }
  | .partmap c => { s with partmap := setAssoc s.partmap c (x &&& 0x1F) }
  | .ptroot d k => s.updDie d (fun q => { q with ptroot := upd q.ptroot k (fun _ => x) })
  | .tlbinv d => match execTlbinvGo d x s with
    | .next s1 => s1
    | _ => s
  | .recovery o => if s.bootst.extractLsb' 0 4 = 8 then s.writeLE (locRecovery o) 8 x.toNat else s

/-- A write of an offset by a master of a class: ignored where no register stands or the master may not write it. -/
def State.writeReg (s : State) (w : Who) (o : Nat) (x : W64) : State :=
  match regAt (o / 8 * 8) with
  | none => s
  | some r => if mayWrite w r then s.putReg r x else s

/-- What a read of an offset gives, with its effect. -/
def State.readOffset (s : State) (o : Nat) : W64 × State :=
  match regAt (o / 8 * 8) with
  | none => (0, s)
  | some r => s.readReg r

/-! ## Masters (18 R432) -/

def whoOf (m : Nat) : Who := if isHostMaster m then .host else if isSupMaster m then .supervisor else .peer

def State.maclOf (s : State) (m : Nat) : W64 := assoc s.macl m 0

/-- Add 1 to INTST.DENY, saturating. -/
def State.deny (s : State) : State :=
  if s.intst.extractLsb' 48 16 = 0xFFFF then s else { s with intst := s.intst + (1 <<< 48) }

/-- A granule that fails its check at the exit goes with the poison marker: INTST.POISON + 1, saturating (18 R434). -/
def State.countPoison (s : State) : State :=
  if s.intst.extractLsb' 32 16 = 0xFFFF then s else { s with intst := s.intst + (1 <<< 32) }

/-- A master may use the configuration window: the supervisor always, others by V and CFG. -/
def State.cfgAllowed (s : State) (m : Nat) : Bool :=
  isSupMaster m || ((s.maclOf m).getLsbD 0 && (s.maclOf m).getLsbD 7)

/-- The host's requests come over an up link (18 R424). -/
def State.reaches (s : State) (m : Nat) : Bool := !isHostMaster m || s.hostUp

/-- A write to the configuration window reaches the device over a link and is checked by its master's entry (18 R424,
R432); `f` is what a permitted one does. -/
def State.window (s : State) (m : Nat) (f : State → State) : State :=
  if !s.reaches m then s else if !s.cfgAllowed m then s.deny else f s

/-- A permitted write of one register, which its "Written by" column may still exclude. -/
def State.putAs (s : State) (m : Nat) (r : Reg) (x : W64) : State :=
  s.window m (fun s => if mayWrite (whoOf m) r then s.putReg r x else s)

/-- REGISTER_WRITE (00 R11, 18 R426). -/
def execRegisterWrite (master offset : Nat) (value : BitVec 64) (s : State) : Out :=
  .next (s.window master (fun s => s.writeReg (whoOf master) offset value))

/-- The host function whose accesses PCAP_WRITE, PFLOOR_WRITE and ATTEST are, of the sixteen of 18 R432; the others' come
as REGISTER_WRITE. Assumption 93. -/
def hostId : Nat := 0x3F0

/-- PCAP_WRITE (17 R416). -/
def execPcapWrite (value : BitVec 64) (s : State) : Out := .next (s.putAs hostId .pcap value)

/-- PFLOOR_WRITE (17 R416). -/
def execPfloorWrite (part : Nat) (value : BitVec 64) (s : State) : Out :=
  .next (s.putAs hostId (.pfloor part) value)

/-- ATTEST: the host writes the command and sets GO; while a command is posted the buffer takes no other. -/
def State.postAttest (s : State) (nonce : List Byte) : State :=
  if s.mbctl.getLsbD 0 then s
  else
    let s1 := s.writeBytes (locMail mailCommand) ((toLE 2 1 ++ toLE 2 nonce.length ++ nonce).take 256)
    ({ s1 with mbctl := s1.mbctl ||| 1 } : State).serveAttest

/-- ATTEST (18 R425, R438). -/
def execAttest (nonce : List (BitVec 8)) (s : State) : Out :=
  .next (s.window hostId (fun s => if mayWrite .host (.mail 0) then s.postAttest nonce else s))

/-! ## Resets by RESETC (18 R428) -/

/-- WARM_RESET. -/
def execWarmReset (master : Nat) (stages : BootInputs) (s : State) : Out :=
  .next (s.window master (fun s => if mayWrite (whoOf master) .resetc then s.warmReset stages else s))

/-- RECOVERY_LOAD. -/
def execRecoveryLoad (master : Nat) (s : State) : Out :=
  .next (s.window master (fun s => if mayWrite (whoOf master) .resetc then s.loadImage8 else s))

/-- MRDAT_WRITE: the register that MRSEL selects, with its own access (18 R427). -/
def execMrdatWrite (die : Nat) (value : BitVec 64) (s : State) : Out :=
  .next (s.writeReg .supervisor (s.die die).mrsel.toNat value)

/-! ## The aperture (18 R424) -/

/-- Read or write of an aperture piece that no page carries: the error record of 03 R80. DESIGN CHOICE: its WHO and launch
sequence number are 0, since 03 R80 gives them for a tile's access alone (assumption 60). -/
def State.apertureFault (s : State) (m part : Nat) (wr : Bool) (va : W64) (size : Nat) (w : Walk) : State :=
  match w with
  | .bad c lv e p => (s.countWalk va w).ringRecord part (ringBytes 2 c lv wr part m 0 0 va 0 size e p 0)
  | .ok .. => s

/-- Read an aperture range, piece by piece: its bytes, and the granules of the address that leave with the poison marker,
each of which adds 1 to INTST.POISON (18 R434); none when a walk failed. -/
def State.apertureRead (s : State) (m part : Nat) : Nat → W64 → Nat → Option (List Byte × List Nat) × State
  | 0, _, _ => (some ([], []), s)
  | fuel + 1, va, len =>
    if len = 0 then (some ([], []), s)
    else
      let n := min len (4096 - lowAddr va % 4096)
      match resolve s part m .report false va with
      | .error w => (none, s.apertureFault m part false va n w)
      | .ok p =>
        let bad := if p.discarded then [] else s.flawsIn [(p.loc, n)]
        let bs := if p.discarded then List.replicate n 0 else s.readBytes p.loc n
        let s1 := if p.discarded then s.countRead part
          else bad.foldl (fun s _ => s.countPoison) (s.countFlaws [(p.loc, n)])
        let r := s1.apertureRead m part fuel (va + BitVec.ofNat 64 n) (len - n)
        (r.1.map (fun x => (bs ++ x.1, bad.map (fun f => lowAddr va / 128 + (f.1 - p.loc / 128)) ++ x.2)), r.2)

/-- Write an aperture range, piece by piece, up to a walk that fails or a granule that it would merge with and that fails
its check (18 R433); its answer says whether all landed. -/
def State.apertureWrite (s : State) (m part : Nat) : Nat → W64 → List Byte → Bool × State
  | 0, _, _ => (true, s)
  | fuel + 1, va, bs =>
    if bs.isEmpty then (true, s)
    else
      let n := min bs.length (4096 - lowAddr va % 4096)
      match resolve s part m .report true va with
      | .error w => (false, s.apertureFault m part true va n w)
      | .ok p =>
        if !p.discarded && !s.mergeSound (p.loc, n) then (false, s.countFlaws [(p.loc, n)])
        else (if p.discarded then s.countWrite part else s.writeBytes p.loc (bs.take n)).apertureWrite m part fuel
          (va + BitVec.ofNat 64 n) (bs.drop n)

/-- An aperture address: the die in bits 49:48, then the virtual address in its space. -/
def apertureVa (a : BitVec 50) : W64 := (a.extractLsb' 48 2).setWidth 64 <<< 61 ||| (a.extractLsb' 0 48).setWidth 64

/-- Bytes for the mailbox command or the recovery aperture. -/
def State.bufferBytes (s : State) (w : Who) : Nat → List Byte → State
  | _, [] => s
  | o, b :: bs =>
    let s1 := if w != .host then s
      else if o < 0x100 then (if s.mbctl.getLsbD 0 then s else s.writeByte (locMail o) b)
      else if 0x80000 ≤ o ∧ o < 0x100000 ∧ s.bootst.extractLsb' 0 4 = 8 then s.writeByte (locRecovery (o - 0x80000)) b
      else s
    s1.bufferBytes w (o + 1) bs

/-- A refused or failed request: its read returns an error completion, its write is dropped. -/
def State.answer (s : State) (a : Answer) : State := { s with answers := s.answers ++ [a] }

/-- APERTURE_ACCESS (18 R424, R432). -/
def execApertureAccess (master : Nat) (access : HostAccess) (s : State) : Out :=
  let e := s.maclOf master
  let part := (e.extractLsb' 8 4).toNat
  if !s.reaches master then .next s
  else match access with
  | .cfgRead o =>
    if !s.cfgAllowed master then .next (s.deny.answer .error)
    else
      let r := s.readOffset o
      .next (r.2.answer (.data (toLE 8 r.1.toNat)))
  | .cfgWrite o x => .next (if s.cfgAllowed master then s.writeReg (whoOf master) o x else s.deny)
  | .bufferWrite o bs => .next (if s.cfgAllowed master then s.bufferBytes (whoOf master) o bs else s.deny)
  | .memRead a n =>
    if !(e.getLsbD 0 && e.getLsbD 5) then .next (s.deny.answer .error)
    else
      let r := s.apertureRead master part (pieces n) (apertureVa a) n
      .next (r.2.answer (match r.1 with
        | some (bs, []) => .data bs
        | some (bs, gs) => .poisoned bs (gs.map (fun g => g - lowAddr (apertureVa a) / 128))
        | none => .error))
  | .memWrite a bs =>
    if !(e.getLsbD 0 && e.getLsbD 6) then .next s.deny
    else
      let r := s.apertureWrite master part (pieces bs.length) (apertureVa a) bs
      .next (if r.1 then r.2 else r.2.answer .error)

end Sys2Proof.Machine
end

