-- ==== Sys2Proof/Machine/Csr.lean ====
section
/-!
DEFINITION. The CSR words (11 R284-R287): what each CSR reads as, and what a write of it does.
-/

namespace Sys2Proof.Machine

/-! ## Reads -/

/-- FNLAT, FCAUSE and the other frame CSRs of the tile that SVSEL of a die names; 0 where no halted domain stands. -/
def State.frameCsr (s : State) (die n : Nat) : W64 :=
  match s.frameOf die with
  | some (d, t) => frameRead d t n
  | none => 0

/-- The module cluster that holds the tile of SVSEL (11 R287). -/
def State.svCluster (s : State) (die : Nat) : Nat := (s.die die).svsel.toNat / 4

/-- WINMAPw: ATT and PEND, the bank in supervisor mode, and the bank's tag (04 R89). -/
def winmapValue (s : State) (d : Domain) (t : Tile) (w : Nat) : W64 :=
  match t.win w with
  | .empty => 0
  | .pend _ => 1 <<< 14
  | .att b =>
    let g := s.tagOf t.cluster b
    BitVec.ofNat 64 (2 ^ 15 + (if d.sup then b * 256 else 0) + g.spl.toNat * 64 + g.blk.toNat * 16 + g.fmt.toNat)

/-- RDV (11 R278). -/
def rdvValue (t : Tile) : W64 :=
  t.rdv.getD 3 0 ++ t.rdv.getD 2 0 ++ t.rdv.getD 1 0 ++ t.rdv.getD 0 0

/-- Every marker that the tile has pushed is ordered before its present word by a WAITRV (11 R278, 06 R146). -/
def Domain.markersWaited (d : Domain) (lt : Nat) : Bool :=
  d.evs.all (fun e => !(e.lt == lt) || (match e.kind with
    | .mark _ _ => d.evs.any (fun w => w.lt == lt && w.kind == .waitrv && w.after.contains e.id)
    | _ => true))

/-- A record that signals semaphore k is open for its tile (06 R157, detail 6). -/
def Domain.signalOpen (d : Domain) (t : Tile) (k : BitVec 4) : Bool :=
  t.recs.any (fun r => r.sen && r.ssem == k && openFor d.vg d.dtick true r)

/-- The halted tile whose FTRAPEN a CSR word reaches: in a supervisor launch the one that SVSEL names, where one stands
(15 R389, 11 R287; DESIGN CHOICE, assumption 86). -/
def State.handled (s : State) (d : Domain) (t : Tile) : Option Tile :=
  if d.sup then (s.frameOf (dieOf t.cluster)).map (fun x => x.2) else none

/-- The value of a CSR at the present tick (11 R285). -/
def csrValue (s : State) (d : Domain) (t : Tile) (c : BitVec 12) : W64 :=
  let die := dieOf t.cluster
  let n := c.toNat
  if 0x10 ≤ n ∧ n ≤ 0x1F then (semRead (t.sem (BitVec.ofNat 4 n))).setWidth 64
  else if 0x28 ≤ n ∧ n ≤ 0x2F then winmapValue s d t (n - 0x28)
  else if 0x30 ≤ n ∧ n ≤ 0x32 then (t.pace.getD (n - 0x30) 0).setWidth 64
  else if 0x50 ≤ n ∧ n ≤ 0x5D then s.frameCsr die n
  else match n with
    | 0x00 => BitVec.ofNat 64 t.lt
    | 0x01 => BitVec.ofNat 64 d.dtick
    | 0x02 => btickOf t
    | 0x03 => t.block.addr
    | 0x04 => t.flags.setWidth 64
    | 0x05 => ((s.handled d t).getD t).trapen.setWidth 64
    | 0x06 => t.rmdyn.setWidth 64
    | 0x07 => t.laneflg
    | 0x20 => BitVec.ofNat 64 d.lead
    | 0x21 => BitVec.ofNat 64 d.tickbud
    | 0x22 => BitVec.ofNat 64 d.holdbud
    | 0x23 => BitVec.ofNat 64 d.holdcnt
    | 0x24 => t.confl.setWidth 64
    | 0x25 => rdvValue t
    | 0x26 => pdirty s d t
    | 0x27 => t.depoch ++ t.epoch
    | 0x40 => t.sampctl
    | 0x41 => t.sampDrops ++ t.sampHead
    | 0x60 => BitVec.ofNat 64 (field d.pkt 16 8)
    | 0x70 => (s.die die).svsel
    | 0x71 => (s.cluster (s.svCluster die)).cpctl
    | 0x72 => (s.cluster (s.svCluster die)).cpstat
    | 0x74 => (s.cluster (s.svCluster die)).cpseal
    | 0x75 => (s.popNotice die).1
    | 0x76 => (s.die die).sverr
    | 0x77 => (s.die die).mctidx
    | 0x78 => (s.mcEntry die (mctNode (s.die die).mctidx) (mctId (s.die die).mctidx)).setWidth 64
    | 0x79 => (s.die die).mrsel
    | 0x7A => (s.readOffset (s.die die).mrsel.toNat).1
    | _ => 0

/-- What a read leaves: a notice or a log entry that it takes out. -/
def csrAfterRead (s : State) (t : Tile) (c : BitVec 12) : State :=
  let die := dieOf t.cluster
  match c.toNat with
  | 0x75 => (s.popNotice die).2
  | 0x7A => (s.readOffset (s.die die).mrsel.toNat).2
  | _ => s

/-- An open record of the tile sets the tag of the bank in window w: a tag counts as a location (06 R157, detail 2). -/
def Domain.tagOpen (d : Domain) (t : Tile) (w : Nat) : Bool :=
  match t.bank? w with
  | some b => t.recs.any (fun r => openFor d.vg d.dtick true r && rangesMeet r.writes [bankTag t.cluster b])
  | none => false

/-- The detail of the footprint fault of a CSRR that a rule forbids, in every mode: a marker not waited for (11 R278), a
tag that an open record sets, or a semaphore with an open signal (06 R157; assumption 38). -/
def csrRaces (d : Domain) (t : Tile) (c : BitVec 12) : Option Nat :=
  let n := c.toNat
  if n = 0x25 ∧ !d.markersWaited t.lt then some 6
  else if 0x28 ≤ n ∧ n ≤ 0x2F ∧ d.tagOpen t (n - 0x28) then some 2
  else if 0x10 ≤ n ∧ n ≤ 0x1F ∧ d.signalOpen t (BitVec.ofNat 4 n) then some 6
  else none

/-- CSRR: the value at t, delivered at t + 2; a footprint fault suppresses it into its latch (15 R381). -/
def execCsrr (dst : Dst) (c : BitVec 12) (s : State) : Out :=
  onDom s (fun d t =>
    let s1 := (csrAfterRead s t c).put (t.send (scalarFlight t d.dtick 2 .sq (dstDest dst) (csrValue s d t c)))
    match csrRaces d t c with
    | none => s1
    | some x => (s1.updDom d.seq (fun e => e.suppress t.lt .sq cFootprint)).raise 0 cFootprint x 0)

/-! ## Writes -/

/-- The three writes of 11 R284. -/
inductive CsrOp where | write | set | clear
  deriving DecidableEq, Repr

/-- The value that a word writes; a bit where a written 1 acts reads as 0 in the old value, so that CSRS writes just the
operand's 1s there, and CSRC none. Assumption 51. -/
def CsrOp.value (op : CsrOp) (old ones a : W64) : W64 :=
  match op with
  | .write => a
  | .set => (old &&& ~~~ones) ||| a
  | .clear => (old &&& ~~~ones) &&& ~~~a

def CsrOp.act (op : CsrOp) (n : BitVec 16) : SemAct :=
  match op with
  | .write => .set n
  | .set => .or n
  | .clear => .clear n

/-- The bits of a CSR where a written 1 acts (W1C, WO). -/
def csrOnes (s : State) (die : Nat) (c : BitVec 12) : W64 :=
  match c.toNat with
  | 0x5B => 1 <<< 47
  | 0x5D => 1
  | 0x73 => 1
  | 0x76 => 7
  | 0x7A => (match regAt ((s.die die).mrsel.toNat / 8 * 8) with
    | some r => onesMask r
    | none => 0)
  | _ => 0

/-- A write of SEMk takes its place in signal order (11 R279). -/
def semWrite (s : State) (d : Domain) (t : Tile) (k : BitVec 4) (act : SemAct) : State :=
  s.updDom d.seq (fun e => (e.semOp t.lt k ⟨d.dtick, t.lt, .csr, act, true, false, d.nextId⟩).addEv
    (newEv d t .sq .semsig))

/-- A state change of a frame word, where one exists. -/
def nextOr (s : State) (o : Out) : State :=
  match o with
  | .next s1 => s1
  | .fault _ => s
  | .refused _ => s

/-- SVSEL takes a tile of the supervisor's own die (11 R287). -/
def State.writeSvsel (s : State) (die : Nat) (x : W64) : State :=
  let p := x &&& 0x3FF
  if dieOf (p.toNat / 4) = die then s.updDie die (fun q => { q with svsel := p }) else s

/-- A change of the tile that the frame CSRs reach. -/
def State.onFrame (s : State) (die : Nat) (f : Tile → Tile) : State :=
  match s.frameOf die with
  | some (d, t) => s.updTile d.seq t.lt f
  | none => s

/-- A write of value x to a supervisor CSR. Assumption 86. -/
def supWrite (s : State) (t : Tile) (n : Nat) (x : W64) : State :=
  let die := dieOf t.cluster
  match n with
  | 0x56 => s.onFrame die (fun u => { u with flags := x.setWidth 9 })
  | 0x5A => s.onFrame die (fun u => { u with latsel := x &&& 0x1FFFFF })
  | 0x5B => if x.getLsbD 47 then nextOr s (execLathdrOwedClear die s) else s
  | 0x5C => nextOr s (execLatdataWrite die x s)
  | 0x5D => if x.getLsbD 0 then nextOr s (execFend die s) else s
  | 0x70 => s.writeSvsel die x
  | 0x71 => if s.svCluster die < 192 then s.writeCpctl (s.svCluster die) x else s
  | 0x73 => if x.getLsbD 0 ∧ s.svCluster die < 192 then s.wake (s.svCluster die) else s
  | 0x76 => s.updDie die (fun q => { q with sverr := q.sverr &&& ~~~(x &&& 7) })
  | 0x77 => s.updDie die (fun q => { q with mctidx := x &&& 0x3FFF })
  | 0x78 => s.writeMct die x
  | 0x79 => s.updDie die (fun q => { q with mrsel := x &&& 0xFFFF8 })
  | 0x7A => s.writeReg .supervisor (s.die die).mrsel.toNat x
  | _ => s

/-- A write of value x to a CSR of the tile itself; read-only and reserved bits keep their values (00 R11). -/
def tileWrite (t : Tile) (n : Nat) (x : W64) : Tile :=
  match n with
  | 0x04 => { t with flags := x.setWidth 9 }
  | 0x05 => { t with trapen := x.setWidth 9 }
  | 0x06 => if 5 ≤ (x.extractLsb' 0 3).toNat then t else { t with rmdyn := x.setWidth 3 }
  | 0x24 => { t with confl := x.setWidth 32 }
  | 0x30 => { t with pace := upd t.pace 0 (fun _ => x.setWidth 8) }
  | 0x31 => { t with pace := upd t.pace 1 (fun _ => x.setWidth 8) }
  | 0x32 => { t with pace := upd t.pace 2 (fun _ => x.setWidth 8) }
  | 0x40 => { t with sampctl := x &&& 0x1000FFFFF }
  | _ => t

/-- A CSR write of operand a (11 R284); FTRAPEN is the handled tile's where there is one (15 R389). -/
def csrWord (op : CsrOp) (a : SSpec) (c : BitVec 12) (s : State) : Out :=
  onDom s (fun d t =>
    let n := c.toNat
    if 0x10 ≤ n ∧ n ≤ 0x1F then semWrite s d t (BitVec.ofNat 4 n) (op.act ((t.sval a).setWidth 16))
    else
      let x := op.value (csrValue s d t c) (csrOnes s (dieOf t.cluster) c) (t.sval a)
      if n = 0x05 ∧ (s.handled d t).isSome then s.onFrame (dieOf t.cluster) (fun u => tileWrite u n x)
      else if n < 0x50 then s.put (tileWrite t n x) else supWrite s t n x)

def execCsrw (a : SSpec) (c : BitVec 12) (s : State) : Out := csrWord .write a c s
def execCsrs (a : SSpec) (c : BitVec 12) (s : State) : Out := csrWord .set a c s
def execCsrc (a : SSpec) (c : BitVec 12) (s : State) : Out := csrWord .clear a c s

end Sys2Proof.Machine
end

