-- ==== Sys2Proof/Machine/Supervisor.lean ====
section
/-!
DEFINITION. The supervisor's words RTE, SEAL and SLOT (11 R271, R288, R289; 15 R389; 05 R129, R130).
-/

namespace Sys2Proof.Machine

/-! ## RTE, the return from an exception (11 R271, 15 R383, R389) -/

/-- The domain whose context holds the tile of SVSEL of a die, halted or not. -/
def State.svContext (s : State) (die : Nat) : Option (Domain × Tile) :=
  let p := (s.die die).svsel.toNat
  s.contextOn (p / 4) (p % 4) (s.activeSlot (p / 4) (p % 4))

/-- A quiesce keeps the domain halted until step 6 of 05 R129 releases it (assumption 31). -/
def State.quiesced (s : State) (d : Domain) : Bool := (s.runsOn d).any (fun c => (s.cluster c).qreq)

/-- The detail of the supervisor fault that an RTE takes, if any. -/
def State.rteFault (s : State) (die : Nat) : Option Nat :=
  match s.frameOf die with
  | none => some 2
  | some (d, _) =>
    if d.fatal || !s.contextsHeld d || s.quiesced d then some 2
    else if d.tiles.any (fun t => t.flights.any (fun f => f.owed)) then some 3
    else none

/-- RTE. -/
def execRte (s : State) : Out :=
  onDom s (fun _ t =>
    let die := dieOf t.cluster
    match s.rteFault die with
    | some e => svFault s t e
    | none => match s.frameOf die with
      | some (d, _) => (s.resumeFrame d.seq).select
      | none => s)

/-! ## SEAL (11 R288, 05 R129) -/

/-- The volumes that a SEAL's epochs of a domain would have in a cluster. -/
def State.sealVolumes (s : State) (cl : Nat) (d : Domain) : List Nat :=
  if s.parkedOut d then (s.tilesOn d cl).map (fun t => sealVolume s d t)
  else d.clusterList.map (fun c => ((d.tiles.filter (fun t => t.cluster == c)).map (fun t => sealVolume s d t)).sum)

/-- The domains that a SEAL of a cluster seals. -/
def State.sealable (s : State) (cl : Nat) : List Domain :=
  s.domains.filter (fun d => s.onCluster d cl && d.phase == .halted)

/-- The detail of the supervisor fault that a SEAL takes, if any. -/
def State.sealFault (s : State) (die cl : Nat) : Option Nat :=
  if 192 ≤ cl ∨ cl / 48 ≠ die then some 1
  else if !(s.cluster cl).qack then some 2
  else if (s.sealable cl).any (fun d => (s.sealVolumes cl d).any (fun v => decide (volumeLimit < v))) then some 2
  else none

/-- SEAL: the sealing epochs start; SEALED rises once all are applied. A SEAL of a cluster that is sealed already lowers
SEALED until its own epochs are applied (assumption 106). -/
def execSeal (a : SSpec) (s : State) : Out :=
  onDom s (fun _ t =>
    let cl := (t.sval a).toNat
    match s.sealFault (dieOf t.cluster) cl with
    | some e => svFault s t e
    | none =>
      let s1 := (s.sealable cl).foldl (fun s d => s.sealDomain cl d) s
      (s1.updCluster cl (fun c => { c with sealed := false, sealReq := true })).raiseSealed)

/-! ## SLOT (11 R289, 05 R130) -/

/-- The detail of the supervisor fault that a SLOT takes, if any. -/
def State.slotFault (s : State) (die cl idx : Nat) (b : Bool) : Option Nat :=
  if 192 ≤ cl ∨ cl / 48 ≠ die then some 1
  else if b && s.hosting cl then some 4
  else if !s.tileIdle cl idx then some 2
  else none

/-- SLOT: the active context parks, and the named slot is the tile's; a context there stays halted until its RTE. -/
def execSlotw (a : SSpec) (i : BitVec 2) (b : Bool) (s : State) : Out :=
  onDom s (fun _ t =>
    let cl := (t.sval a).toNat
    match s.slotFault (dieOf t.cluster) cl i.toNat b with
    | some e => svFault s t e
    | none =>
      if s.activeSlot cl i.toNat = b then s
      else
        let s1 := match s.contextOn cl i.toNat (s.activeSlot cl i.toNat) with
          | some (d, u) => s.park d.seq u.lt
          | none => s
        s1.updCluster cl (fun c => { c with activeB := upd c.activeB i.toNat (fun _ => b) }))

end Sys2Proof.Machine
end

