-- ==== Sys2Proof/Machine/VectorMisc.lean ====
section
/-!
DEFINITION. The MISC words of the VX column: lane moves, reductions, FP8 and FP16 packing, classes (12 R310-R317).
-/

namespace Sys2Proof.Machine

/-- VEXT: lane n, zero-extended, enters the SQ queue at t + 3 (12 R311). -/
def execVext (a : VSpec) (n : BitVec 6) (s : State) : Out :=
  onTile s (fun d t => t.send (scalarFlight t d.dtick 3 .vx (.sq none) (((t.vval a).getD n.toNat 0).setWidth 64)))

/-- VEXT.W64: pair n enters the SQ queue (12 R311). -/
def execVextW64 (a : VSpec) (n : BitVec 6) (s : State) : Out :=
  onTile s (fun d t => t.send (scalarFlight t d.dtick 3 .vx (.sq none) ((t.vpairs a).getD n.toNat 0)))

/-- VPERM: lane i is lane b_i mod 32 of A (12 R312). -/
def execVperm (a b : VSpec) (s : State) : Out :=
  bitWord s 2 (.vx none) (fun t => map32 (t.vval b) (fun i => (t.vval a).getD (i.toNat % 32) 0))

/-- VROT: lane i is lane (i + n) mod 32 of A (12 R312). -/
def execVrot (a : VSpec) (n : BitVec 6) (s : State) : Out :=
  bitWord s 2 (.vx none) (fun t => (List.range 32).map (fun i => (t.vval a).getD ((i + n.toNat) % 32) 0))

/-! ## Reductions (12 R313) -/

/-- One level of the fixed tree. -/
def treeLevel {α : Type} (f : α → α → α) : List α → List α
  | x :: y :: r => f x y :: treeLevel f r
  | l => l

/-- The tree over at most 2^fuel leaves. -/
def treeReduce {α : Type} (f : α → α → α) : Nat → List α → List α
  | 0, l => l
  | fuel + 1, l => treeReduce f fuel (treeLevel f l)

/-- A step of a floating-point tree, gathering flags. -/
def withFlags (f : Nat → Nat → Nat × Flg) (x y : Nat × Flg) : Nat × Flg :=
  ((f x.1 y.1).1, x.2 ||| y.2 ||| (f x.1 y.1).2)

def fpTree (f : Nat → Nat → Nat × Flg) (xs : List Nat) : Nat × Flg :=
  (treeReduce (withFlags f) 5 (xs.map (fun x => (x, (0 : Flg))))).headD (0, 0)

/-- The step of a VREDF or VREDD tree. -/
def redStep (f : FpFormat) : RedF → Nat → Nat → Nat × Flg
  | .add => f.add .rne false
  | .max => f.minmax true
  | .min => f.minmax false
  | .maxabs => f.minmax true

/-- VREDF: the value stands in every lane (12 R313). -/
def execVredf (a : VSpec) (o : RedF) (s : State) : Out :=
  vecWord s 6 .vx (.vx none) (fun t =>
    let xs := (t.vval a).map (fun x => if o = .maxabs then (x &&& 0x7FFFFFFF).toNat else x.toNat)
    splitLanes (List.replicate 32 (fpTree (redStep fp32F o) xs)))

/-- VREDD: the value stands in every pair (12 R313). -/
def execVredd (a : VSpec) (o : RedD) (s : State) : Out :=
  vecWord s 6 .vx (.vx none) (fun t =>
    let step := match o with
      | .add => RedF.add
      | .max => RedF.max
      | .min => RedF.min
    splitPairs (List.replicate 16 (fpTree (redStep fp64F step) ((t.vpairs a).map (fun x => x.toNat)))))

def rediStep : RedI → W32 → W32 → W32
  | .add => (· + ·)
  | .max => fun x y => if x.slt y then y else x
  | .min => fun x y => if y.slt x then y else x
  | .and => (· &&& ·)
  | .or => (· ||| ·)

/-- VREDI (12 R313). -/
def execVredi (a : VSpec) (o : RedI) (s : State) : Out :=
  bitWord s 6 (.vx none) (fun t => List.replicate 32 ((treeReduce (rediStep o) 5 (t.vval a)).headD 0))

/-! ## FP8 and FP16 -/

/-- Byte n of a word replaced. -/
def putByte (w : W32) (n q : Nat) : W32 :=
  (w &&& ~~~((0xFF : W32) <<< (8 * n))) ||| (BitVec.ofNat 32 (q % 256) <<< (8 * n))

/-- QNT8 (12 R314). -/
def execQnt8 (n : BitVec 2) (f sat : Bool) (a b c : VSpec) (s : State) : Out :=
  vecWord s latConvert .vx (.vx none) (fun t =>
    splitLanes (fmap3 (fun x y z =>
      let q := mulToFp8 f sat x y
      ((putByte (BitVec.ofNat 32 z) n.toNat q.1).toNat, q.2)) (t.vval a) (t.vval b) (t.vval c)))

/-- DQ8 (12 R315). -/
def execDq8 (f : Bool) (n : BitVec 2) (a : VSpec) (s : State) : Out :=
  bitWord s latConvert (.vx none) (fun t =>
    map32 (t.vval a) (fun x => BitVec.ofNat 32 (fp8ToFp32 f (x.toNat / 256 ^ n.toNat % 256))))

/-- CVTH (12 R316). -/
def execCvth (a b : VSpec) (s : State) : Out :=
  vecWord s latConvert .vx (.vx none) (fun t =>
    splitLanes (fmap2 (fun x y => packHalves (fp16F.convert fp32F .rne x) (fp16F.convert fp32F .rne y))
      (t.vval a) (t.vval b)))

/-- CVTHU (12 R316). -/
def execCvthu (a : VSpec) (h : Bool) (s : State) : Out :=
  vecWord s latConvert .vx (.vx none) (fun t =>
    splitLanes (fmap1 (fun x => fp16ToFp32 (halfOf h (BitVec.ofNat 32 x)).toNat) (t.vval a)))

/-- The class of an FP32 word: the bit that VCLASS sets (12 R317). -/
def classOf (x : Nat) : Nat :=
  match fp32F.decode x with
  | .nan _ fr => if fr < fp32F.quietBit then 0 else 1
  | .inf s => if s then 2 else 9
  | .num s m _ =>
    let normal := decide (2 ^ 23 ≤ m)
    if m = 0 then (if s then 5 else 6)
    else if s then (if normal then 3 else 4) else (if normal then 8 else 7)

def execVclass (a : VSpec) (s : State) : Out :=
  bitWord s latCompare (.vx none) (fun t => map32 (t.vval a) (fun x => (1 : W32) <<< classOf x.toNat))

end Sys2Proof.Machine
end

