-- ==== Sys2Proof/Machine/Dispatch.lean ====
section
/-!
DEFINITION. One arm for each instruction, a direct call of its meaning.
-/

namespace Sys2Proof.Machine

def exec (i : Instr) (s : State) : Host.Outcome State Fault Refusal :=
  match i with
  | .prep _ t o => Sys2Proof.Machine.execPrep t o s
  | .prepS _ t sp => Sys2Proof.Machine.execPrepS t sp s
  | .prepRet _ t => Sys2Proof.Machine.execPrepRet t s
  | .leap _ t p sp => Sys2Proof.Machine.execLeap t p sp s
  | .leapl _ t p sp => Sys2Proof.Machine.execLeapl t p sp s
  | .leapD _ t p sp => Sys2Proof.Machine.execLeapD t p sp s
  | .vote _ d w a b c => Sys2Proof.Machine.execVote d w a b c s
  | .halt _ => Sys2Proof.Machine.execHalt s
  | .trap _ code => Sys2Proof.Machine.execTrap code s
  | .rte _ => Sys2Proof.Machine.execRte s
  | .waitrv _ e n => Sys2Proof.Machine.execWaitrv e n s
  | .mark _ e n => Sys2Proof.Machine.execMark e n s
  | .skipl _ n => Sys2Proof.Machine.execSkipl n s
  | .add _ d a b => Sys2Proof.Machine.execAdd d a b s
  | .sub _ d a b => Sys2Proof.Machine.execSub d a b s
  | .mul _ d a b => Sys2Proof.Machine.execMul d a b s
  | .mulh _ d a b => Sys2Proof.Machine.execMulh d a b s
  | .mulhu _ d a b => Sys2Proof.Machine.execMulhu d a b s
  | .div _ d a b => Sys2Proof.Machine.execDiv d a b s
  | .divu _ d a b => Sys2Proof.Machine.execDivu d a b s
  | .rem _ d a b => Sys2Proof.Machine.execRem d a b s
  | .remu _ d a b => Sys2Proof.Machine.execRemu d a b s
  | .and _ d a b => Sys2Proof.Machine.execAnd d a b s
  | .or _ d a b => Sys2Proof.Machine.execOr d a b s
  | .xor _ d a b => Sys2Proof.Machine.execXor d a b s
  | .andn _ d a b => Sys2Proof.Machine.execAndn d a b s
  | .shl _ d a b => Sys2Proof.Machine.execShl d a b s
  | .shr _ d a b => Sys2Proof.Machine.execShr d a b s
  | .sar _ d a b => Sys2Proof.Machine.execSar d a b s
  | .rol _ d a b => Sys2Proof.Machine.execRol d a b s
  | .min _ d a b => Sys2Proof.Machine.execMin d a b s
  | .max _ d a b => Sys2Proof.Machine.execMax d a b s
  | .minu _ d a b => Sys2Proof.Machine.execMinu d a b s
  | .maxu _ d a b => Sys2Proof.Machine.execMaxu d a b s
  | .sel _ d a b p => Sys2Proof.Machine.execSel d a b p s
  | .clz _ d a => Sys2Proof.Machine.execClz d a s
  | .ctz _ d a => Sys2Proof.Machine.execCtz d a s
  | .popc _ d a => Sys2Proof.Machine.execPopc d a s
  | .bswap _ d a => Sys2Proof.Machine.execBswap d a s
  | .addsh _ d a b n => Sys2Proof.Machine.execAddsh d a b n s
  | .extu _ d a b => Sys2Proof.Machine.execExtu d a b s
  | .exts _ d a b => Sys2Proof.Machine.execExts d a b s
  | .ins _ d a b => Sys2Proof.Machine.execIns d a b s
  | .mov _ d a => Sys2Proof.Machine.execMov d a s
  | .addi _ d a im => Sys2Proof.Machine.execAddi d a im s
  | .andi _ d a im => Sys2Proof.Machine.execAndi d a im s
  | .ori _ d a im => Sys2Proof.Machine.execOri d a im s
  | .xori _ d a im => Sys2Proof.Machine.execXori d a im s
  | .shli _ d a im => Sys2Proof.Machine.execShli d a im s
  | .shri _ d a im => Sys2Proof.Machine.execShri d a im s
  | .sari _ d a im => Sys2Proof.Machine.execSari d a im s
  | .movi _ d im => Sys2Proof.Machine.execMovi d im s
  | .ldcp _ d im => Sys2Proof.Machine.execLdcp d im s
  | .cmp _ d w a b c => Sys2Proof.Machine.execCmp d w a b c s
  | .cmpi _ d w a im c => Sys2Proof.Machine.execCmpi d w a im c s
  | .plog _ d a b o => Sys2Proof.Machine.execPlog d a b o s
  | .pclr _ m => Sys2Proof.Machine.execPclr m s
  | .pmovToRegister _ d p => Sys2Proof.Machine.execPmovToRegister d p s
  | .pmovToSlot _ a p => Sys2Proof.Machine.execPmovToSlot a p s
  | .mq _ r p e sp o => Sys2Proof.Machine.execMq r p e sp o s
  | .gq _ r p e sp o => Sys2Proof.Machine.execGq r p e sp o s
  | .cq _ r p e sp o => Sys2Proof.Machine.execCq r p e sp o s
  | .hq _ r p e sp o => Sys2Proof.Machine.execHq r p e sp o s
  | .semsig _ sp im => Sys2Proof.Machine.execSemsig sp im s
  | .semwait _ sp c => Sys2Proof.Machine.execSemwait sp c s
  | .give _ w t x sp => Sys2Proof.Machine.execGive w t x sp s
  | .bmap _ b t w a => Sys2Proof.Machine.execBmap b t w a s
  | .bfree _ t w a => Sys2Proof.Machine.execBfree t w a s
  | .bfmt _ w f b sp => Sys2Proof.Machine.execBfmt w f b sp s
  | .pfence _ k a sp => Sys2Proof.Machine.execPfence k a sp s
  | .cfenceLo _ m a sp => Sys2Proof.Machine.execCfenceLo m a sp s
  | .cfenceHi _ m a sp => Sys2Proof.Machine.execCfenceHi m a sp s
  | .csrr _ d c => Sys2Proof.Machine.execCsrr d c s
  | .csrw _ sp c => Sys2Proof.Machine.execCsrw sp c s
  | .csrs _ sp c => Sys2Proof.Machine.execCsrs sp c s
  | .csrc _ sp c => Sys2Proof.Machine.execCsrc sp c s
  | .seal _ a => Sys2Proof.Machine.execSeal a s
  | .slotw _ a t sp => Sys2Proof.Machine.execSlotw a t sp s
  | .sample _ im => Sys2Proof.Machine.execSample im s
  | .skip _ n => Sys2Proof.Machine.execSkip n s
  | .kput _ n => Sys2Proof.Machine.execKput n s
  | .inc _ n => Sys2Proof.Machine.execInc n s
  | .dec _ n => Sys2Proof.Machine.execDec n s
  | .vput _ n => Sys2Proof.Machine.execVput n s
  | .vzero _ n => Sys2Proof.Machine.execVzero n s
  | .ffma _ r a b c w => Sys2Proof.Machine.execFfma r a b c w s
  | .ffms _ r a b c w => Sys2Proof.Machine.execFfms r a b c w s
  | .fnfma _ r a b c w => Sys2Proof.Machine.execFnfma r a b c w s
  | .fnfms _ r a b c w => Sys2Proof.Machine.execFnfms r a b c w s
  | .dfma _ r a b c w => Sys2Proof.Machine.execDfma r a b c w s
  | .dfms _ r a b c w => Sys2Proof.Machine.execDfms r a b c w s
  | .imad _ a b c w => Sys2Proof.Machine.execImad a b c w s
  | .vxSel _ a b c w => Sys2Proof.Machine.execVxSel a b c w s
  | .fadd _ r a b d => Sys2Proof.Machine.execFadd r a b d s
  | .fsub _ r a b d => Sys2Proof.Machine.execFsub r a b d s
  | .fmul _ r a b d => Sys2Proof.Machine.execFmul r a b d s
  | .fmin _ a b d => Sys2Proof.Machine.execFmin a b d s
  | .fmax _ a b d => Sys2Proof.Machine.execFmax a b d s
  | .fminn _ a b d => Sys2Proof.Machine.execFminn a b d s
  | .fmaxn _ a b d => Sys2Proof.Machine.execFmaxn a b d s
  | .fcpysgn _ a b d => Sys2Proof.Machine.execFcpysgn a b d s
  | .fceq _ a b d => Sys2Proof.Machine.execFceq a b d s
  | .fclt _ a b d => Sys2Proof.Machine.execFclt a b d s
  | .fcle _ a b d => Sys2Proof.Machine.execFcle a b d s
  | .fcun _ a b d => Sys2Proof.Machine.execFcun a b d s
  | .fabs _ a d => Sys2Proof.Machine.execFabs a d s
  | .fneg _ a d => Sys2Proof.Machine.execFneg a d s
  | .frint _ r a d => Sys2Proof.Machine.execFrint r a d s
  | .fscalb _ r a b d => Sys2Proof.Machine.execFscalb r a b d s
  | .dadd _ r a b d => Sys2Proof.Machine.execDadd r a b d s
  | .dsub _ r a b d => Sys2Proof.Machine.execDsub r a b d s
  | .dmul _ r a b d => Sys2Proof.Machine.execDmul r a b d s
  | .dmin _ a b d => Sys2Proof.Machine.execDmin a b d s
  | .dmax _ a b d => Sys2Proof.Machine.execDmax a b d s
  | .dceq _ a b d => Sys2Proof.Machine.execDceq a b d s
  | .dclt _ a b d => Sys2Proof.Machine.execDclt a b d s
  | .dcle _ a b d => Sys2Proof.Machine.execDcle a b d s
  | .dabs _ a d => Sys2Proof.Machine.execDabs a d s
  | .dneg _ a d => Sys2Proof.Machine.execDneg a d s
  | .drint _ r a d => Sys2Proof.Machine.execDrint r a d s
  | .dcun _ a b d => Sys2Proof.Machine.execDcun a b d s
  | .iadd _ a b d => Sys2Proof.Machine.execIadd a b d s
  | .isub _ a b d => Sys2Proof.Machine.execIsub a b d s
  | .imul _ a b d => Sys2Proof.Machine.execImul a b d s
  | .imulh _ a b d => Sys2Proof.Machine.execImulh a b d s
  | .imulhu _ a b d => Sys2Proof.Machine.execImulhu a b d s
  | .imin _ a b d => Sys2Proof.Machine.execImin a b d s
  | .imax _ a b d => Sys2Proof.Machine.execImax a b d s
  | .iminu _ a b d => Sys2Proof.Machine.execIminu a b d s
  | .imaxu _ a b d => Sys2Proof.Machine.execImaxu a b d s
  | .iand _ a b d => Sys2Proof.Machine.execIand a b d s
  | .ior _ a b d => Sys2Proof.Machine.execIor a b d s
  | .ixor _ a b d => Sys2Proof.Machine.execIxor a b d s
  | .iandn _ a b d => Sys2Proof.Machine.execIandn a b d s
  | .ishl _ a b d => Sys2Proof.Machine.execIshl a b d s
  | .ishr _ a b d => Sys2Proof.Machine.execIshr a b d s
  | .isar _ a b d => Sys2Proof.Machine.execIsar a b d s
  | .iceq _ a b d => Sys2Proof.Machine.execIceq a b d s
  | .iclt _ a b d => Sys2Proof.Machine.execIclt a b d s
  | .icltu _ a b d => Sys2Proof.Machine.execIcltu a b d s
  | .iadds _ a b d => Sys2Proof.Machine.execIadds a b d s
  | .isubs _ a b d => Sys2Proof.Machine.execIsubs a b d s
  | .iabs _ a d => Sys2Proof.Machine.execIabs a d s
  | .cvtF32I32 _ r a d => Sys2Proof.Machine.execCvtF32I32 r a d s
  | .cvtI32F32 _ r a d => Sys2Proof.Machine.execCvtI32F32 r a d s
  | .cvtF64F32 _ a d => Sys2Proof.Machine.execCvtF64F32 a d s
  | .cvtF32F64 _ r a d => Sys2Proof.Machine.execCvtF32F64 r a d s
  | .cvtBf16F32 _ r a b d => Sys2Proof.Machine.execCvtBf16F32 r a b d s
  | .cvtF32Bf16 _ a h d => Sys2Proof.Machine.execCvtF32Bf16 a h d s
  | .vext _ a n => Sys2Proof.Machine.execVext a n s
  | .vextW64 _ a n => Sys2Proof.Machine.execVextW64 a n s
  | .vperm _ a b => Sys2Proof.Machine.execVperm a b s
  | .vrot _ a n => Sys2Proof.Machine.execVrot a n s
  | .vredf _ a o => Sys2Proof.Machine.execVredf a o s
  | .vredi _ a o => Sys2Proof.Machine.execVredi a o s
  | .vredd _ a o => Sys2Proof.Machine.execVredd a o s
  | .qnt8 _ n f sp a b c => Sys2Proof.Machine.execQnt8 n f sp a b c s
  | .dq8 _ f n a => Sys2Proof.Machine.execDq8 f n a s
  | .cvth _ a b => Sys2Proof.Machine.execCvth a b s
  | .cvthu _ a h => Sys2Proof.Machine.execCvthu a h s
  | .vclass _ a => Sys2Proof.Machine.execVclass a s
  | .exp _ r a => Sys2Proof.Machine.execExp r a s
  | .exp2 _ r a => Sys2Proof.Machine.execExp2 r a s
  | .log _ r a => Sys2Proof.Machine.execLog r a s
  | .log2 _ r a => Sys2Proof.Machine.execLog2 r a s
  | .erf _ r a => Sys2Proof.Machine.execErf r a s
  | .erfc _ r a => Sys2Proof.Machine.execErfc r a s
  | .sqrt _ r a => Sys2Proof.Machine.execSqrt r a s
  | .rsqrt _ r a => Sys2Proof.Machine.execRsqrt r a s
  | .rcp _ r a => Sys2Proof.Machine.execRcp r a s
  | .tanh _ r a => Sys2Proof.Machine.execTanh r a s
  | .sigm _ r a => Sys2Proof.Machine.execSigm r a s
  | .expm1 _ r a => Sys2Proof.Machine.execExpm1 r a s
  | .log1p _ r a => Sys2Proof.Machine.execLog1p r a s
  | .divF32 _ r a b => Sys2Proof.Machine.execDivF32 r a b s
  | .expF64 _ r a => Sys2Proof.Machine.execExpF64 r a s
  | .exp2F64 _ r a => Sys2Proof.Machine.execExp2F64 r a s
  | .logF64 _ r a => Sys2Proof.Machine.execLogF64 r a s
  | .log2F64 _ r a => Sys2Proof.Machine.execLog2F64 r a s
  | .erfF64 _ r a => Sys2Proof.Machine.execErfF64 r a s
  | .erfcF64 _ r a => Sys2Proof.Machine.execErfcF64 r a s
  | .sqrtF64 _ r a => Sys2Proof.Machine.execSqrtF64 r a s
  | .rsqrtF64 _ r a => Sys2Proof.Machine.execRsqrtF64 r a s
  | .rcpF64 _ r a => Sys2Proof.Machine.execRcpF64 r a s
  | .tanhF64 _ r a => Sys2Proof.Machine.execTanhF64 r a s
  | .sigmF64 _ r a => Sys2Proof.Machine.execSigmF64 r a s
  | .expm1F64 _ r a => Sys2Proof.Machine.execExpm1F64 r a s
  | .log1pF64 _ r a => Sys2Proof.Machine.execLog1pF64 r a s
  | .divF64 _ r a b => Sys2Proof.Machine.execDivF64 r a b s
  | .ldsV _ c b o => Sys2Proof.Machine.execLdsV c b o s
  | .ldsD _ c b o => Sys2Proof.Machine.execLdsD c b o s
  | .stsV _ c d b o => Sys2Proof.Machine.execStsV c d b o s
  | .stsE _ c d b o => Sys2Proof.Machine.execStsE c d b o s
  | .ldsG _ c d b => Sys2Proof.Machine.execLdsG c d b s
  | .stsS _ c d b im => Sys2Proof.Machine.execStsS c d b im s
  | .ldsW32 _ c b o => Sys2Proof.Machine.execLdsW32 c b o s
  | .ldsW64 _ c b o => Sys2Proof.Machine.execLdsW64 c b o s
  | .stsW32 _ c d b o => Sys2Proof.Machine.execStsW32 c d b o s
  | .stsW64 _ c d b o => Sys2Proof.Machine.execStsW64 c d b o s
  | .amos _ c d b o => Sys2Proof.Machine.execAmos c d b o s
  | .amog _ c d b o => Sys2Proof.Machine.execAmog c d b o s
  | .waitw _ c d b e => Sys2Proof.Machine.execWaitw c d b e s
  | .waitg _ c d b e => Sys2Proof.Machine.execWaitg c d b e s
  | .ldgW64 _ c b o => Sys2Proof.Machine.execLdgW64 c b o s
  | .stgW64 _ c d b o => Sys2Proof.Machine.execStgW64 c d b o s
  | .ldgV _ c b o => Sys2Proof.Machine.execLdgV c b o s
  | .stgV _ c d b o => Sys2Proof.Machine.execStgV c d b o s
  | .ldgD _ c b o => Sys2Proof.Machine.execLdgD c b o s
  | .lda _ c b w h => Sys2Proof.Machine.execLda c b w h s
  | .sta _ c d b h => Sys2Proof.Machine.execSta c d b h s
  | .launchPost port master offset data => Sys2Proof.Machine.execLaunchPost port master offset data s
  | .warmReset master stages => Sys2Proof.Machine.execWarmReset master stages s
  | .recoveryLoad master => Sys2Proof.Machine.execRecoveryLoad master s
  | .mma => Sys2Proof.Machine.execMma s
  | .mms => Sys2Proof.Machine.execMms s
  | .mzero => Sys2Proof.Machine.execMzero s
  | .acopy => Sys2Proof.Machine.execAcopy s
  | .mload => Sys2Proof.Machine.execMload s
  | .gather => Sys2Proof.Machine.execGather s
  | .copy => Sys2Proof.Machine.execCopy s
  | .fill => Sys2Proof.Machine.execFill s
  | .copyb => Sys2Proof.Machine.execCopyb s
  | .ag => Sys2Proof.Machine.execAg s
  | .rs => Sys2Proof.Machine.execRs s
  | .a2a => Sys2Proof.Machine.execA2a s
  | .bar => Sys2Proof.Machine.execBar s
  | .send => Sys2Proof.Machine.execSend s
  | .recv => Sys2Proof.Machine.execRecv s
  | .bcast => Sys2Proof.Machine.execBcast s
  | .deferredFootprintFault => Sys2Proof.Machine.execDeferredFootprintFault s
  | .returnStackRefill => Sys2Proof.Machine.execReturnStackRefill s
  | .holdRelease => Sys2Proof.Machine.execHoldRelease s
  | .holdLeadExpiry => Sys2Proof.Machine.execHoldLeadExpiry s
  | .columnResultCompletion => Sys2Proof.Machine.execColumnResultCompletion s
  | .voteDelivery => Sys2Proof.Machine.execVoteDelivery s
  | .leapDCheck => Sys2Proof.Machine.execLeapDCheck s
  | .blockBoundary => Sys2Proof.Machine.execBlockBoundary s
  | .blockFetchDone => Sys2Proof.Machine.execBlockFetchDone s
  | .deadlineFaultTick => Sys2Proof.Machine.execDeadlineFaultTick s
  | .deadlineFaultHold => Sys2Proof.Machine.execDeadlineFaultHold s
  | .taskRetire => Sys2Proof.Machine.execTaskRetire s
  | .giveAttach => Sys2Proof.Machine.execGiveAttach s
  | .bmapAttach => Sys2Proof.Machine.execBmapAttach s
  | .bfreeComplete => Sys2Proof.Machine.execBfreeComplete s
  | .recordCompletion => Sys2Proof.Machine.execRecordCompletion s
  | .markerRetire => Sys2Proof.Machine.execMarkerRetire s
  | .semaphoreIncrementApply => Sys2Proof.Machine.execSemaphoreIncrementApply s
  | .semCsrWrite => Sys2Proof.Machine.execSemCsrWrite s
  | .collectiveCommit => Sys2Proof.Machine.execCollectiveCommit s
  | .collectiveFailure => Sys2Proof.Machine.execCollectiveFailure s
  | .globalRequestTranslate => Sys2Proof.Machine.execGlobalRequestTranslate s
  | .pageWalkComplete => Sys2Proof.Machine.execPageWalkComplete s
  | .globalLoadDataArrival => Sys2Proof.Machine.execGlobalLoadDataArrival s
  | .globalStorePerformed => Sys2Proof.Machine.execGlobalStorePerformed s
  | .tlbinvGo die value => Sys2Proof.Machine.execTlbinvGo die value s
  | .tlbinvDone => Sys2Proof.Machine.execTlbinvDone s
  | .leaseBuildPage => Sys2Proof.Machine.execLeaseBuildPage s
  | .leaseRecordDeferredWrite => Sys2Proof.Machine.execLeaseRecordDeferredWrite s
  | .leasecmdRetry part handle => Sys2Proof.Machine.execLeasecmdRetry part handle s
  | .leasecmdRelease part handle => Sys2Proof.Machine.execLeasecmdRelease part handle s
  | .frtailWrite part value => Sys2Proof.Machine.execFrtailWrite part value s
  | .epochJournal => Sys2Proof.Machine.execEpochJournal s
  | .epochConfirm => Sys2Proof.Machine.execEpochConfirm s
  | .epochApplyDone => Sys2Proof.Machine.execEpochApplyDone s
  | .cpctlQreqSet cluster => Sys2Proof.Machine.execCpctlQreqSet cluster s
  | .quiesceAck => Sys2Proof.Machine.execQuiesceAck s
  | .cpctlClkgateSet cluster => Sys2Proof.Machine.execCpctlClkgateSet cluster s
  | .retentionCaptureDone => Sys2Proof.Machine.execRetentionCaptureDone s
  | .cpctlClkgateClear cluster => Sys2Proof.Machine.execCpctlClkgateClear cluster s
  | .cpctlRailOff cluster => Sys2Proof.Machine.execCpctlRailOff cluster s
  | .cpctlRailSelect cluster vl => Sys2Proof.Machine.execCpctlRailSelect cluster vl s
  | .railSwitchDone => Sys2Proof.Machine.execRailSwitchDone s
  | .cpwake cluster => Sys2Proof.Machine.execCpwake cluster s
  | .wakeRestoreDone => Sys2Proof.Machine.execWakeRestoreDone s
  | .cpctlQreqClear cluster => Sys2Proof.Machine.execCpctlQreqClear cluster s
  | .domainHalt => Sys2Proof.Machine.execDomainHalt s
  | .preemptionRequest launch => Sys2Proof.Machine.execPreemptionRequest launch s
  | .quantumEnd => Sys2Proof.Machine.execQuantumEnd s
  | .fatalTaskEnd => Sys2Proof.Machine.execFatalTaskEnd s
  | .svhaltRead die => Sys2Proof.Machine.execSvhaltRead die s
  | .lathdrOwedClear die => Sys2Proof.Machine.execLathdrOwedClear die s
  | .latdataWrite die value => Sys2Proof.Machine.execLatdataWrite die value s
  | .fend die => Sys2Proof.Machine.execFend die s
  | .packetApply => Sys2Proof.Machine.execPacketApply s
  | .taskEndEvent => Sys2Proof.Machine.execTaskEndEvent s
  | .taskBind => Sys2Proof.Machine.execTaskBind s
  | .domainStart => Sys2Proof.Machine.execDomainStart s
  | .supLaunchBind => Sys2Proof.Machine.execSupLaunchBind s
  | .bankClearDone => Sys2Proof.Machine.execBankClearDone s
  | .flitReceive die node port header payload => Sys2Proof.Machine.execFlitReceive die node port header payload s
  | .mctdatWrite die value => Sys2Proof.Machine.execMctdatWrite die value s
  | .controlInterval die readings overCurrent => Sys2Proof.Machine.execControlInterval die readings overCurrent s
  | .pcapWrite value => Sys2Proof.Machine.execPcapWrite value s
  | .pfloorWrite part value => Sys2Proof.Machine.execPfloorWrite part value s
  | .boostWrite value => Sys2Proof.Machine.execBoostWrite value s
  | .pwrlogRead die => Sys2Proof.Machine.execPwrlogRead die s
  | .periodicSample => Sys2Proof.Machine.execPeriodicSample s
  | .linkTraining link result => Sys2Proof.Machine.execLinkTraining link result s
  | .apertureAccess master access => Sys2Proof.Machine.execApertureAccess master access s
  | .attest nonce => Sys2Proof.Machine.execAttest nonce s
  | .mailboxFirmwareCommand response rejected => Sys2Proof.Machine.execMailboxFirmwareCommand response rejected s
  | .mrdatWrite die value => Sys2Proof.Machine.execMrdatWrite die value s
  | .coldReset stages => Sys2Proof.Machine.execColdReset stages s
  | .linkRetryTimer first second => Sys2Proof.Machine.execLinkRetryTimer first second s
  | .unplannedPowerLoss clusters => Sys2Proof.Machine.execUnplannedPowerLoss clusters s
  | .registerWrite master offset value => Sys2Proof.Machine.execRegisterWrite master offset value s
  | .rentanLinkDown link => Sys2Proof.Machine.execRentanLinkDown link s

end Sys2Proof.Machine
end

