-- ==== Sys2Proof/Machine/Schedule.lean ====
section
/-!
DEFINITION. What may happen next: the one move of each running domain (09 R200-R226), and the events of its engines,
requests and loaders, of clusters, dies and the distributor, which go on beside it.
-/

namespace Sys2Proof.Machine

/-- A move of the machine. `event` and `word` perform an instruction; the others are the steps of a domain's clock. -/
inductive Move where
  /-- An event of the device, at the place that `cur` names. -/
  | event (i : Instr) (c : Cur)
  /-- A word issues; its column's stream goes on. -/
  | word (i : Instr) (c : Cur) (st : Stream)
  /-- The domain takes a hold at its present tick (09 R221). -/
  | takeHold (k : Nat)
  /-- One more cycle of a hold. -/
  | holdCycle (k : Nat)
  /-- The tick's start goes on. -/
  | begun (k n : Nat)
  /-- What the probes of this tick's block entries found, and those of its words and requests (09 R220). -/
  | entry (k : Nat)
  | probe (k : Nat)
  /-- The Rentan Link reports a store to H visible in host memory (06 R143). -/
  | report (k id : Nat)
  /-- A link is up: the spilled words of a tile that waited for it reach host memory (18 R423). -/
  | spillOut (k lt : Nat)
  /-- A multicast granule that waited for frozen lines lands (05 R117). -/
  | land (die : Nat) (f : FlitAt)
  /-- The tick ends. -/
  | tick (k : Nat)
  /-- The power has returned, and the supervisor recovers (05 R131). -/
  | powerBack
  /-- The firmware reports READY (18 R439). -/
  | ready

/-! ## Places -/

def domCur (d : Domain) : Cur := ⟨d.seq, 0, .sq, .me, 0, 0, 0⟩

def tileCur (d : Domain) (t : Tile) : Cur := { domCur d with lt := t.lt, die := dieOf t.cluster, cluster := t.cluster }

def placeCur (die cluster lt item : Nat) : Cur := ⟨0, lt, .sq, .me, item, die, cluster⟩

/-! ## The move of a running domain -/

/-- The halt tick has come. -/
def Domain.haltDue (d : Domain) : Bool :=
  match d.haltAt with
  | some h => decide (h ≤ d.dtick)
  | none => false

def Domain.allHalted (d : Domain) : Bool := d.tiles.all (fun t => t.haltTick.isSome)

/-- The halt comes before any hold of this tick: a deadline, or a request latched while held (09 R221, R225; 15 R390). -/
def Domain.haltsNow (d : Domain) : Bool :=
  d.haltDue && d.causes.any (fun c => c.det == d.dtick && (requestCode c.code || c.code == cDeadline))

/-- The next step of the tiles at a boundary: the one whose continuation is in place enters it, or the fetch of one that
lies in resident pages arrives (09 R204, R205). -/
def boundaryMove (s : State) (d : Domain) : Option Move :=
  match d.tiles.find? (fun t => t.atBoundary && t.ready) with
  | some t => some (.event .blockBoundary (tileCur d t))
  | none => d.tiles.findSome? (fun t =>
      let a := t.continuation.1
      if t.atBoundary && s.blockResident d t s.tlbs a then
        (firstIdx (fun f => f.addr == a && f.stage == .asked) t.loader).map (fun i =>
          .event .blockFetchDone { tileCur d t with item := i })
      else none)

/-- Some tile at a boundary waits for its continuation. -/
def Domain.entriesWait (d : Domain) : Bool := d.tiles.any (fun t => t.atBoundary && !t.ready)

/-- The move of a held domain (09 R221, R225): entries that it waits for are made as they arrive, the words of the tick are
probed once all are, and the release comes when nothing is missed any more. -/
def heldMove (s : State) (d : Domain) (h : Hold) : Move :=
  if d.haltsNow then .event .domainHalt (domCur d)
  else match h.lead with
    | some _ => if d.holdbud < d.holdcnt + d.lead then .event .deadlineFaultHold (domCur d)
        else .event .holdLeadExpiry (domCur d)
    | none => (boundaryMove s d).getD (
      if !d.entriesWait && d.begun = 2 then .probe d.seq
      else if !d.entriesWait && !holdNeeded s d then .event .holdRelease (domCur d)
      else if d.holdbud < d.holdcnt + 1 then .event .deadlineFaultHold (domCur d) else .holdCycle d.seq)

/-- What a tick performs before its words: blocks, then votes, results, comparisons, attaches and late faults. -/
def arrivalMove (s : State) (d : Domain) : Option Move :=
  match boundaryMove s d with
  | some m => some m
  | none =>
    if d.ballots.head?.any (fun b => decide (b.tick + d.voteLat ≤ d.dtick)) then some (.event .voteDelivery (domCur d))
    else match d.tiles.find? (fun t => t.dueFlight d.dtick) with
      | some t => some (.event .columnResultCompletion (tileCur d t))
      | none =>
        if d.choices.head?.any (fun c => decide (c.tick + d.voteLat ≤ d.dtick)) then some (.event .leapDCheck (domCur d))
        else if d.attaches.head?.any (fun a => decide (a.due ≤ d.dtick)) then some (.event .giveAttach (domCur d))
        else if d.dueDeferred.isSome then some (.event .deferredFootprintFault (domCur d))
        else if decide (d.tickbud ≤ d.dtick) && !d.allHalted && !d.causes.any (fun c => c.code == cDeadline) then
          some (.event .deadlineFaultTick (domCur d))
        else none

/-- The steps that open a tick, its arrivals done: the quantum check, a hold for an entry that still waits, the probes;
then the hold, before it a halt that no hold precedes and after it any other (14 R375, 09 R220, R221, 15 R379). -/
def openMove (s : State) (d : Domain) : Option Move :=
  if d.begun = 1 then
    some (if d.quantumDue && s.outranked d then .event .quantumEnd (domCur d) else .begun d.seq 2)
  else if d.begun = 2 then
    some (if d.haltsNow then .event .domainHalt (domCur d)
      else if d.entriesWait then .takeHold d.seq else .probe d.seq)
  else if d.begun = 3 then
    some (if d.haltsNow then .event .domainHalt (domCur d)
      else if !d.released && d.probeMiss then .takeHold d.seq
      else if d.haltDue then .event .domainHalt (domCur d) else .begun d.seq beginSteps)
  else none

/-- The next periodic sample of the tick (17 R420). -/
def sampleMove (d : Domain) : Option Move :=
  (d.tiles.find? (fun t => decide (d.begun ≤ beginSteps + t.lt) && t.sampleDue d.dtick)).map (fun t =>
    .event .periodicSample (tileCur d t))

/-- FLAGS, FTRAPEN and LANEFLG, on which the flags of a tick act first (08 R189, R191, 11 R284). -/
def isFlagsCsr (n : BitVec 12) : Bool := n == 0x004 || n == 0x005 || n == 0x007

/-- The SQ word reads or writes one of them. -/
def flagsWord : Instr → Bool
  | .csrr _ _ n => isFlagsCsr n
  | .csrw _ _ n => isFlagsCsr n
  | .csrs _ _ n => isFlagsCsr n
  | .csrc _ _ n => isFlagsCsr n
  | _ => false

/-- The columns of a tile in the order in which its words of this tick act: SQ, VX, XC, LS (04 R88), but LS before an SQ
word on FLAGS, FTRAPEN or LANEFLG. -/
def Tile.order (t : Tile) : List Column :=
  match t.dueWord .sq with
  | some (i, _) => if flagsWord i then [.ls, .sq, .vx, .xc] else columns
  | none => columns

/-- The next word of the tick: the lowest tile's, in column order (09 R201; assumption 7). -/
def wordMove (d : Domain) : Option Move :=
  d.tiles.findSome? (fun t => t.order.findSome? (fun c =>
    if t.issues d.dtick c then (t.dueWord c).map (fun w => .word w.1 { tileCur d t with col := c } w.2) else none))

/-- Nothing is in flight for a coming tick. -/
def Domain.settled (d : Domain) : Bool :=
  d.tiles.all (fun t => t.flights.all (fun f => f.cause != 0) && t.cuts.isEmpty) && d.ballots.isEmpty &&
    d.choices.isEmpty && d.attaches.isEmpty && d.deferred.isEmpty && d.haltAt.isNone

/-- Every epoch of the domain is durable (05 R125). -/
def State.allDurable (s : State) (d : Domain) : Bool :=
  d.clusterList.all (fun c => (s.cluster c).epochs.all (fun e => e.seq != d.seq || e.stage == .confirmed ||
    e.stage == .applied))

/-- An address can be reached: one in the host's memory needs a link (18 R423). -/
def State.reachable (s : State) (va : W64) : Bool := ownerOf va != 4 || s.hostUp

/-- The task may retire (09 R225). -/
def State.mayRetire (s : State) (d : Domain) : Bool :=
  d.allHalted && d.settled && d.tiles.all (fun t => t.recs.all (fun r => !r.live) &&
    t.engines.all (fun q => q.entries.isEmpty)) && !d.gops.any GOp.pending && d.tiles.all (fun t => t.owed.isEmpty) && s.allDurable d

/-- The end of a tick, or of the task; none while only its engines have work left. -/
def closeMove (s : State) (d : Domain) : Option Move :=
  if !d.allHalted || !d.settled then some (.tick d.seq)
  else if s.mayRetire d && s.reachable (BitVec.ofNat 64 (field d.pkt 64 8)) then some (.event .taskRetire (domCur d)) else none

/-- The move of a running domain. -/
def domainMove (s : State) (d : Domain) : Option Move :=
  match d.hold with
  | some h => some (heldMove s d h)
  | none =>
    if d.resume then some (.event .holdLeadExpiry (domCur d))
    else if d.begun = 0 then some (.entry d.seq)
    else (arrivalMove s d).orElse (fun _ => (openMove s d).orElse (fun _ => (sampleMove d).orElse (fun _ =>
      (wordMove d).orElse (fun _ => closeMove s d))))

/-! ## Engines (13 R343-R345, 16 R402-R407) -/

/-- The instruction of a record's kind (10 R251). -/
def recordInstr (k : Nat) : Option Instr :=
  if k = kMma then some .mma
  else if k = kMms then some .mms
  else if k = kMzero then some .mzero
  else if k = kAcopy then some .acopy
  else if k = kMload then some .mload
  else if k = kGather then some .gather
  else if k = kCopy then some .copy
  else if k = kFill then some .fill
  else if k = kCopyb then some .copyb
  else if k = kAg then some .ag
  else if k = kRs then some .rs
  else if k = kA2a then some .a2a
  else if k = kBar then some .bar
  else if k = kSend then some .send
  else if k = kRecv then some .recv
  else if k = kBcast then some .bcast
  else none

/-- In relaxed mode a record waits for earlier records of its domain that conflict with it (06 R159). -/
def Domain.relaxedWaits (d : Domain) (r : Rec) : Bool :=
  d.relaxed && d.tiles.any (fun t => t.recs.any (fun x => decide (x.id < r.id) && x.live &&
    (rangesMeet x.writes (r.reads ++ r.writes) || rangesMeet x.reads r.writes)))

/-- PACE ticks have passed since the previous dequeue; once every tile has halted no tick is waited for (13 R343;
assumption 32). -/
def paceMet (s : State) (d : Domain) (t : Tile) (g : Engine) : Bool :=
  d.allHalted || (match (t.engine g).lastDeq with
    | some l => decide (l + spacing s d t g ≤ d.dtick)
    | none => true)

/-- The record at the head of an idle engine may start: its wait, guard and pacing (13 R343), no frozen line that it writes
(05 R117), and what a fence or happens-before puts before it has performed (06 R142, R154). -/
def mayStart (s : State) (d : Domain) (t : Tile) (r : Rec) : Bool :=
  r.stage == .queued && r.resolved.isSome && (!r.wen || semReady (t.sem r.wsem) r.tick t.lt r.wcnt) &&
    paceMet s d t r.eng && !d.relaxedWaits r && !meetsFrozen (s.cluster t.cluster) r.writes &&
    !(d.recEvs r).any (fun e => d.fenceWaits { s.present d with tick := d.dtick + 1 } e || d.pendingBefore e)

/-- Every member of the collective of tile t's chorus record has joined, and t is the first of them. -/
def collectiveMove (s : State) (d : Domain) (t : Tile) (r : Rec) : Option Instr :=
  if (d.group r.group).head? != some t.lt then none
  else match d.members r.group r.coll with
    | none => none
    | some ms =>
      if ms.any (fun x => meetsFrozen (s.cluster x.1.cluster) x.2.writes) then none
      else if (collectiveFault s d r.group ms).isSome then some .collectiveFailure else some .collectiveCommit

/-- The word of the present tick holds on a record of its tile: a WAITW on its arrival word, a SEMWAIT on its signal, a
WAITRV behind it, an LDA interlocked on it, or a GIVE whose drain holds it (13 R345). -/
def holdsOn (d : Domain) (t : Tile) (r : Rec) : Instr → Bool
  | .waitw _ _ _ b _ => r.aen && (match t.bank? r.awin, bankAt t (t.sval b) 4 with
    | some k, .ok (k', ofs) => k == k' && ofs == r.aoff
    | _, _ => false)
  | .semwait _ k _ => r.sen && r.ssem == k
  | .waitrv _ m _ => (maskEngines m).contains r.eng
  | .lda _ _ b _ h => (match accAt (t.sval b) with
    | .ok (a, row) => (t.accWriters d.dtick (accLoc t a row (if h then 32 else 0))).any (fun x => x.id == r.id)
    | .error _ => false)
  | .give _ w _ _ _ => (match t.bank? w.toNat with
    | some b => decide (r.tick + d.lead ≤ d.dtick) && namesBank t.cluster b r
    | none => false)
  | _ => false

/-- A word of the tile holds the domain on the record. -/
def heldOn (s : State) (d : Domain) (t : Tile) (r : Rec) : Bool :=
  d.hold.isSome && decide (3 ≤ d.begun) && (tileMisses s d (s.probeView d) t).any (holdsOn d t r)

/-- The line that a record's arrival word lies in is frozen. -/
def arrivalFrozen (s : State) (t : Tile) (r : Rec) : Bool :=
  r.aen && (match t.bank? r.awin with
    | some b => meetsFrozen (s.cluster t.cluster) [(locBank t.cluster b r.aoff, 4)]
    | none => false)

/-- A record names a bank that a BFREE drains (11 R283). -/
def State.inLeavingBank (s : State) (t : Tile) (r : Rec) : Bool :=
  (((s.cluster t.cluster).banks.zipIdx).any (fun b => b.1 == .leaving && namesBank t.cluster b.2 r))

/-- What an engine does next; a record that reaches the host waits for a link (18 R423). From the halt on, no record starts and no collective commits (15 R385). A record that stands at a
failed walk ends once a word of its tile holds on it, the task has only to retire, or a BFREE drains its bank (13 R345;
assumption 16). -/
def engineMove (s : State) (d : Domain) (t : Tile) (g : Engine) : Option Instr :=
  let q := t.engine g
  let runs := d.phase == .running
  let linked (r : Rec) : Bool := s.hostUp || !(r.reads ++ r.writes).any (fun x => isHostLoc x.1)
  match q.run with
  | none => (match q.entries with
    | .record id :: _ => (match t.rec? id with
      | some r => if runs && linked r && mayStart s d t r then recordInstr r.kindCode else none
      | none => none)
    | .marker _ _ :: _ => some .markerRetire
    | [] => none)
  | some id => match t.rec? id with
    | none => none
    | some r => match r.stage with
      | .queued =>
        if r.fault.isSome then
          (if ((runs && (heldOn s d t r || d.allHalted)) || s.inLeavingBank t r) && !arrivalFrozen s t r then some .recordCompletion else none)
        else if runs && linked r && !meetsFrozen (s.cluster t.cluster) r.writes then recordInstr r.kindCode else none
      | .joined => if runs then collectiveMove s d t r else none
      | .written =>
        if (runs || g != .ch) && !arrivalFrozen s t r then some .recordCompletion else none
      | .squashed => none
      | .complete => none

/-! ## Events beside the clock of a domain -/

/-- The kind of increment that the SQ word of the present tick makes on semaphore k of its tile (06 R144). -/
def dueSignal (s : State) (d : Domain) (t : Tile) (k : Nat) : Option SemKind :=
  let csr (n : BitVec 12) : Option SemKind := if n.toNat = 0x10 + k then some .csr else none
  let push (n : BitVec 10) : Option SemKind :=
    let b := s.slotBits t n.toNat
    if b.getLsbD 36 ∧ fieldAt b 32 4 = k then some .record else none
  if !t.issues d.dtick .sq then none
  else match t.dueWord .sq with
    | some (.semsig _ j _, _) => if j.toNat = k then some .semsig else none
    | some (.pfence _ j .., _) => if j.toNat = k then some .pfence else none
    | some (.csrw _ _ n, _) => csr n
    | some (.csrs _ _ n, _) => csr n
    | some (.csrc _ _ n, _) => csr n
    | some (.mq _ n .., _) => push n
    | some (.gq _ n .., _) => push n
    | some (.cq _ n .., _) => push n
    | some (.hq _ n .., _) => push n
    | _ => none

/-- In a held tick, nothing that its words have still to do comes before an operation of that tick. -/
def signalDue (s : State) (d : Domain) (t : Tile) (k : Nat) (o : SemOp) : Bool :=
  decide (d.begun < 3) || (match dueSignal s d t k with
    | some x => semBefore { o with lt := t.lt, kind := x } o
    | none => false)

/-- The first operation not yet applied on semaphore k has arrived, and none of its tick can come before it any more: its
tick is past, or it is held and no word of it makes an earlier one, or every tile has halted (06 R144; assumption 84). -/
def semMove (s : State) (d : Domain) (t : Tile) (k : Nat) (l : List SemOp) : Option Instr :=
  match l.find? (fun o => !o.applied) with
  | some o => if o.arrived && (decide (o.tick < d.dtick) || (d.hold.isSome && !signalDue s d t k o) || d.allHalted) then
      some (if o.kind = .csr then .semCsrWrite else .semaphoreIncrementApply) else none
  | none => none

/-- A tile's share of the spill area is read: it can be reached, no spilled word waits for the link, and a read that has
failed is not made again before the frame is handled (09 R216, 18 R423, R434). -/
def refillDue (s : State) (d : Domain) (t : Tile) : Bool :=
  let told (code : Nat) : Bool := d.causes.any (fun c => c.lt == t.lt && c.src == 0 && c.code == code)
  decide (0 < t.refill) && t.owed.isEmpty && d.phase == .running && s.reachable (BitVec.ofNat 64 d.spillBase) &&
    (match resolveFor s d t false (d.shareSlot t.lt (t.spills - 1)) with
      | .ok p => p.discarded || s.sound [(p.loc, 8)] || !told cIntegrity
      | .error _ => !(told cLease || told cTranslation))

/-- A request's next event (03 R61-R70, 06 R151, 13 R326); one to the host waits for a link (18 R423). -/
def gopMove (hostUp : Bool) (d : Domain) (g : GOp) : Option Instr :=
  match g.stage with
  | .asked => some .globalRequestTranslate
  | .walking => some .pageWalkComplete
  | .ready loc _ => if d.mayPerform g && (hostUp || !isHostLoc loc) then
      some (if g.kind = .store then .globalStorePerformed else .globalLoadDataArrival) else none
  | .failed _ => none
  | .done => none

/-- The events of one tile's loader, return stack, semaphores and engines. -/
def tileMoves (s : State) (d : Domain) (t : Tile) : List Move :=
  ((t.loader.zipIdx).filterMap (fun f => if f.1.stage = .asked
    then some (.event .blockFetchDone { tileCur d t with item := f.2 }) else none)) ++
  (if !t.owed.isEmpty && s.hostUp then [.spillOut d.seq t.lt] else []) ++
  (if refillDue s d t then [.event .returnStackRefill (tileCur d t)] else []) ++
  (t.sems.zipIdx).filterMap (fun l => (semMove s d t l.2 l.1).map (fun i => .event i { tileCur d t with item := l.2 })) ++
  ([.me, .gu, .ce, .ch] : List Engine).filterMap (fun g => (engineMove s d t g).map (fun i =>
    .event i { tileCur d t with eng := g }))

/-- The cluster's clock runs: it stops for a gate, and while the multiplexer switches (05 R129, 17 R410). -/
def Cluster.clocked (c : Cluster) : Bool :=
  !(c.clkoff || c.capturing || c.rail == .off || c.wakepend || c.switching.isSome)

/-- The clock of a cluster, and of its host if it is fused off, runs (02 R49). -/
def State.clocked (s : State) (cl : Nat) : Bool :=
  (s.cluster cl).clocked && (match s.hostOf cl with
    | some h => (s.cluster h).clocked
    | none => true)

/-- The Rentan Link has still to report a store to H that the egress has taken (06 R143). -/
def reportDue (s : State) (g : GOp) : Bool :=
  g.kind == .store && g.stage == .done && !g.seen && ownerOf g.va == 4 && s.hostUp

/-- The events of a bound domain beside its clock. -/
def liveMoves (s : State) (d : Domain) : List Move :=
  (d.tiles.filter (fun t => s.clocked t.cluster)).flatMap (tileMoves s d) ++
  d.gops.filterMap (fun g => (gopMove s.hostUp d g).map (fun i => .event i { domCur d with lt := g.lt, item := g.id })) ++
  (d.gops.filter (reportDue s)).map (fun g => .report d.seq g.id)

/-- The engines of a domain have stopped (15 R385). -/
def Domain.stopped (d : Domain) : Bool := d.tiles.all (fun t => !t.enginesBusy)

/-- The moves of a domain, by its phase. A tick waits for the clock of every cluster (17 R411). -/
def domainMoves (s : State) (d : Domain) : List Move :=
  (if s.confirmable d && !d.clusterList.isEmpty && d.phase != .lost then [.event .epochConfirm (domCur d)] else []) ++
  (match d.phase with
    | .binding dies => dies.map (fun x => .event .taskBind { domCur d with die := x })
    | .starting => .event .domainStart (domCur d) :: liveMoves s d
    | .running => (if d.clusterList.all s.clocked then (domainMove s d).toList else []) ++ liveMoves s d
    | .halted => (if d.fatal && d.stopped && s.reachable (BitVec.ofNat 64 (field d.pkt 64 8)) then [.event .fatalTaskEnd (domCur d)] else []) ++ liveMoves s d
    | .lost => []
    | .ended => []
    | .freed => [])

/-! ## Clusters -/

/-- A park waits to be journaled and sealed: a tile that it parks has a record whose last writes are still to come
(15 R391). A park freezes no bank's line, so that they come. -/
def State.parkWaits (s : State) (e : Epoch) : Bool :=
  !e.sealing && e.parts.all (fun p => p.sem.isNone) && (match s.dom? e.seq with
    | some d => e.parts.any (fun p => (d.tile? p.lt).any (fun t => t.enginesBusy))
    | none => false)

/-- The next event of the epoch at the head of a cluster's queue (05 R123, R124). A step of a record reads and writes at
once, so that a halted domain owes its engines' completions alone (15 R385, R391). -/
def epochMove (s : State) (cl : Nat) : Option Instr :=
  match (s.cluster cl).headEpoch with
  | none => none
  | some e => match e.stage with
    | .waiting => if s.parkWaits e then none else some .epochJournal
    | .committed => none
    | .confirmed => some .epochApplyDone
    | .applied => none

/-- A bank that leaves is drained and has no frozen line (11 R283, 05 R116). -/
def State.bankDrained (s : State) (cl b : Nat) : Bool :=
  !bankFrozen (s.cluster cl) cl b && !s.domains.any (fun d => d.tiles.any (fun t => t.cluster == cl &&
    t.recs.any (fun r => r.live && namesBank cl b r)))

/-- The next event of a physical window that the supervisor's words changed, at its place. -/
def winMove (s : State) (cl idx p : Nat) : Option Move :=
  match s.winAt cl idx p with
  | .empty => none
  | .pend b => if s.inGive cl b then none else some (.event .bmapAttach (placeCur (dieOf cl) cl idx p))
  | .att b => if (s.cluster cl).banks.getD b .free = .leaving ∧ s.bankDrained cl b
      then some (.event .bfreeComplete (placeCur (dieOf cl) cl idx p)) else none

/-- The events of a cluster. -/
def clusterMoves (s : State) (cl : Nat) : List Move :=
  let c := s.cluster cl
  let ev (i : Instr) : Move := .event i (placeCur (dieOf cl) cl 0 0)
  ((epochMove s cl).map ev).toList ++
  (if c.qreq && !c.qack && s.quiet cl then [ev .quiesceAck] else []) ++
  (if c.capturing then [ev .retentionCaptureDone] else []) ++
  (if c.switching.isSome then [ev .railSwitchDone] else []) ++
  (if c.wakepend && c.switching.isNone then [ev .wakeRestoreDone] else []) ++
  ((c.banks.zipIdx).filterMap (fun b => if b.1 = .clearing
    then some (.event .bankClearDone (placeCur (dieOf cl) cl 0 b.2)) else none)) ++
  (if 192 ≤ cl then [] else (List.range 4).flatMap (fun i => (List.range 24).filterMap (fun p => winMove s cl i p)))

/-! ## Dies and the module -/

/-- The flit that an output port of a router serves next goes to the router it leads to (16 R398). -/
def flitMove (s : State) (die : Nat) (o : Nat × Port) : Option Move :=
  match receiver die o.1 o.2, s.nextFlit die o.1 o.2 with
  | some r, some f => some (.event (.flitReceive r.1 r.2.1 r.2.2 f.header f.payload) (placeCur r.1 0 0 0))
  | _, _ => none

/-- The output ports that flits of a die wait for. -/
def waitedPorts (q : Die) : List (Nat × Port) := (q.flits.flatMap (fun f => f.outs.map (fun p => (f.node, p)))).eraseDups

/-- The events of a die. -/
def dieMoves (s : State) (q : Die) (die : Nat) : List Move :=
  (if q.tlbinv.getLsbD 63 then [.event .tlbinvDone (placeCur die 0 0 0)] else []) ++
  (if !q.supWaiting.isEmpty && !q.fwParked then [.event .supLaunchBind (placeCur die 0 0 0)] else []) ++
  (waitedPorts q).filterMap (flitMove s die) ++
  (q.flits.filter (fun f => f.outs.contains .loc && !s.localWaits die f.node f.header f.payload)).map (fun f => .land die f)

/-- The events of the distributor and of the leases, and what the firmware does unasked. -/
def moduleMoves (s : State) : List Move :=
  (if s.firmwareBoots then [.ready] else []) ++
  (if s.ready && (s.clusters.any (fun c => c.2.lost) || s.domains.any (fun d => d.phase == .lost)) then [.powerBack] else []) ++
  s.leases.filterMap (fun l => if l.state = .building
    then some (.event .leaseBuildPage (placeCur 0 0 0 l.handle)) else none) ++
  s.leases.filterMap (fun l => if s.recordReady l && s.reachable (s.part l.part).frbase
    then some (.event .leaseRecordDeferredWrite (placeCur 0 0 0 l.handle)) else none) ++
  (match s.stream with
    | .packet _ _ _ pkt :: _ => if s.reachable (BitVec.ofNat 64 (field pkt 40 8)) && s.reachable (BitVec.ofNat 64 (field pkt 64 8))
        then [.event .packetApply (placeCur 0 0 0 0)] else []
    | .taskEnd .. :: _ => [.event .taskEndEvent (placeCur 0 0 0 0)]
    | [] => []) ++
  (if s.bindReady then [.event .taskBind (placeCur 0 0 0 0)] else [])

/-- Every move that may come next. Assumption 77. -/
def moves (s : State) : List Move :=
  s.domains.flatMap (domainMoves s) ++ s.clusters.flatMap (fun c => clusterMoves s c.1) ++
    (s.dies.zipIdx).flatMap (fun q => dieMoves s q.1 q.2) ++ moduleMoves s

/-! ## Making a move -/

/-- A word leaves its stream; an FP64 word of the XC is remembered for the spacing check (09 R208). -/
def issueWord (i : Instr) (c : Cur) (st : Stream) (s : State) : State :=
  { (s.updDom c.dom (fun d => d.updTile c.lt (fun t => { t with
      streams := upd t.streams (colIdx c.col) (fun _ => st)
      lastF64 := if isXcF64 i then some d.dtick else t.lastF64 }))) with cur := c }

/-- A store to H is visible in host memory. -/
def State.reportGop (s : State) (k id : Nat) : State :=
  s.updDom k (fun d => { d with gops := d.gops.map (fun g => if g.id = id then { g with seen := true } else g) })

end Sys2Proof.Machine
end

