-- ==== Sys2Proof/Machine/Step.lean ====
section
/-!
DEFINITION. One step of the machine: an event from outside first, else one of the moves that may come next; and the
placing of one instruction where the next step takes it.
-/

namespace Sys2Proof.Machine

/-- Make a move. -/
def Move.make (m : Move) (s : State) : Out :=
  match m with
  | .event i c => exec i { s with cur := c }
  | .word i c st => exec i (issueWord i c st s)
  | .takeHold k => .next (s.takeHold k)
  | .holdCycle k => .next (s.holdCycle k)
  | .begun k n => .next (s.updDom k (fun d => { d with begun := n }))
  | .entry k => .next (s.entryTick k)
  | .probe k => .next (s.probeTick k)
  | .report k i => .next (s.reportGop k i)
  | .spillOut k l => .next (s.spillOut k l)
  | .land die f => .next (s.landFlit die f)
  | .tick k => .next (s.endTick k).strike
  | .powerBack => .next s.powerBack
  | .ready => .next s.reportReady

/-- One step: an event from outside; else what has reached the launch port since the device last moved, as one cycle
(14 R364); else a move. With several moves possible, which comes first is open (assumption 1). -/
def step (s : State) : Host.Outcome State Fault Refusal :=
  match s.inputs with
  | i :: rest => exec i { s with inputs := rest }
  | [] => if !s.arrivals.isEmpty then .next s.serialise else match moves s with
    | [] => .next ({ s with cycle := s.cycle + 1 } : State).strike
    | [m] => m.make s
    | m :: ms => ((m :: ms).getD (Config.schedule s.fresh % (m :: ms).length) m).make s.tickFresh

/-! ## Placing an instruction (assumption 33) -/

/-- A packet of an S1 launch in open mode, or of a supervisor launch: its mode and a tick budget. -/
def placedPacket (sup : Bool) : List Byte :=
  [1, 0, 0, if sup then 2 else 1] ++ List.replicate 4 0 ++ [0xFF, 0xFF, 0xFF, 0xFF, 0xFF, 0xFF, 0xFF, 0xFF] ++
    List.replicate 112 0

/-- The block that holds a word's halfwords in one column and nothing else. -/
def placedBlock (c : Column) (hs : List Half) : Block where
  addr := 8
  hdr := 0xB10C00000000FFFF
  streams := columns.map (fun x => if x = c then hs else [])
  after := 16
  err := none

/-- A tile at block tick `b` of the block, its stream before its first word. -/
def placedTile (lt cl : Nat) (blk : Block) (b : Nat) : Tile :=
  { launchTile lt cl (lt % 4) false 8 (List.replicate 8 .empty) with
    block := blk, streams := blk.freshStreams, btick := b, loader := [] }

/-- A domain at its tick 0, past the tick's start, whose tile 0 issues the word now. -/
def placedDomain (sup : Bool) (c : Column) (hs : List Half) : Domain where
  seq := 1
  pkt := placedPacket sup
  desc := []
  part := 0
  master := 0
  ranges := []
  groups := []
  mcast := []
  sup := sup
  phase := .running
  tiles := if sup then [placedTile 0 192 (placedBlock c hs) (gapOf (hs.headD 0)).1]
    else placedTile 0 0 (placedBlock c hs) (gapOf (hs.headD 0)).1 ::
      [1, 2, 3].map (fun i => placedTile i 0 (placedBlock c []) (gapOf (hs.headD 0)).1)
  dtick := 0
  holdcnt := 0
  hold := none
  probeMiss := false
  hist := []
  froze := []
  released := true
  wasHeld := false
  begun := beginSteps + 4
  gops := []
  evs := []
  nextId := 0
  ballots := []
  choices := []
  attaches := []
  deferred := []
  causes := []
  chief := none
  haltAt := none
  fatal := false
  endCode := none
  resume := false
  parked := false
  collDone := []
  lostFlits := []

/-- The state whose next step issues the word of the bits: the word stands in the stream of its column, in the one running
domain, with no other move possible. -/
def State.withFetchWord (s : State) (nbits w : Nat) : State :=
  let hs := tableHalves nbits w
  match firstColumn hs [.sq, .vx, .xc, .ls] with
  | some (c, i) => { s with
      domains := [placedDomain i.supervisorWord c hs], inputs := [], arrivals := [], stream := [], room := none, leases := [], queues := []
      selected := none, clusters := []
      dies := s.dies.map (fun q => { q with tlbinv := 0, supWaiting := [], flits := [] }) }
  | none => { s with
      domains := [placedDomain false .sq hs], inputs := [], arrivals := [], stream := [], room := none, leases := [], queues := []
      selected := none, clusters := []
      dies := s.dies.map (fun q => { q with tlbinv := 0, supWaiting := [], flits := [] }) }

end Sys2Proof.Machine
end

