-- ==== Sys2Proof/Safety.lean ====
section
/-!
DEFINITION. What a claim means by a safe run: that an instruction completes, what it leaves, and what holds of every
state that a step leaves.
-/

namespace Sys2Proof.Machine

/-- The instruction or step answers a next state, of which P holds. -/
def Completes (o : Host.Outcome State Fault Refusal) (P : State → Prop) : Prop := ∃ t, o = .next t ∧ P t

/-- If it answers a next state, then P holds of it. -/
def Leaves (o : Host.Outcome State Fault Refusal) (P : State → Prop) : Prop := ∀ t, o = .next t → P t

/-- The storage of the module is in its canonical form. -/
def State.memOk (s : State) : Prop := Memory.wf s.mem = true

/-- The domain and the tile that `cur` names stand in the state: the place of a word. -/
def State.At (s : State) (d : Domain) (t : Tile) : Prop :=
  s.dom? s.cur.dom = some d ∧ d.tile? s.cur.lt = some t

/-- The instruction's whole effect is one result more under way in its tile. -/
def Yields (i : Instr) (s : State) (t : Tile) (f : Flight) : Prop := exec i s = .next (s.put (t.send f))

/-- The instruction's whole effect is to raise a cause at the present tick of its tile. -/
def Raises (i : Instr) (s : State) (src code detail : Nat) (addr : W64) : Prop :=
  exec i s = .next (s.raise src code detail addr)

end Sys2Proof.Machine
end

