-- ==== Sys2Proof/Certificates/Slice0/Obligations.lean ====
section
/-!
DEFINITION. The statements about the model, each formalising rules of the specification that its docstring names: first the
results of the scalar, vector and function words, then predicates, decisions, traps, semaphores, fences, pushes and banks,
then the accesses, the engines' records, blocks and tasks, leases, durability, power, the host's interface, and last the
step itself and the encoding.
-/

open Sys2Proof Sys2Proof.Machine

/-- Results of the two-operand words that take one tick (11 R255, R258): x and y are the operands, m the shift count. -/
def Sys2Proof.Claims.aluRows (g : BitVec 4) (dst : Dst) (a b : SSpec) (x y : W64) : List (Instr × W64) :=
  let m := y.toNat % 64
  [ (.add g dst a b, x + y), (.sub g dst a b, x - y), (.and g dst a b, x &&& y), (.or g dst a b, x ||| y),
    (.xor g dst a b, x ^^^ y), (.andn g dst a b, x &&& ~~~y), (.shl g dst a b, BitVec.ofNat 64 (x.toNat * 2 ^ m)),
    (.shr g dst a b, BitVec.ofNat 64 (x.toNat / 2 ^ m)), (.sar g dst a b, BitVec.ofInt 64 (x.toInt / 2 ^ m)),
    (.rol g dst a b, BitVec.ofNat 64 (x.toNat * 2 ^ m ||| x.toNat / 2 ^ (64 - m))),
    (.min g dst a b, BitVec.ofInt 64 (min x.toInt y.toInt)), (.max g dst a b, BitVec.ofInt 64 (max x.toInt y.toInt)),
    (.minu g dst a b, BitVec.ofNat 64 (min x.toNat y.toNat)), (.maxu g dst a b, BitVec.ofNat 64 (max x.toNat y.toNat)) ]

/-- R258: each two-operand SA word of one tick gives the table's result of its operands' values at the issue tick, due
one tick later, and changes nothing else. -/
def Sys2Proof.Claims.ScalarAluResults : Prop :=
  ∀ (s : State) (d : Domain) (t : Tile), s.At d t → ∀ (g : BitVec 4) (dst : Dst) (a b : SSpec),
    ∀ r ∈ Claims.aluRows g dst a b (t.sval a) (t.sval b),
      Yields r.1 s t (scalarFlight t d.dtick 1 .sq (dstDest dst) r.2)

/-- The products and divisions of R258 and R259 with their latencies (R255). -/
def Sys2Proof.Claims.mulDivRows (g : BitVec 4) (dst : Dst) (a b : SSpec) (x y : W64) : List (Instr × Nat × W64) :=
  [ (.mul g dst a b, 3, BitVec.ofNat 64 (x.toNat * y.toNat)),
    (.mulh g dst a b, 3, BitVec.ofInt 64 (x.toInt * y.toInt / 2 ^ 64)),
    (.mulhu g dst a b, 3, BitVec.ofNat 64 (x.toNat * y.toNat / 2 ^ 64)),
    (.div g dst a b, 20, if y = 0 then 0xFFFFFFFFFFFFFFFF else BitVec.ofInt 64 (x.toInt.tdiv y.toInt)),
    (.divu g dst a b, 20, if y = 0 then 0xFFFFFFFFFFFFFFFF else BitVec.ofNat 64 (x.toNat / y.toNat)),
    (.rem g dst a b, 20, if y = 0 then x else BitVec.ofInt 64 (x.toInt.tmod y.toInt)),
    (.remu g dst a b, 20, if y = 0 then x else BitVec.ofNat 64 (x.toNat % y.toNat)) ]

/-- R258, R259: products take three ticks and divisions twenty; a division by zero gives all ones, its remainder the
dividend, and −2^63 by −1 wraps; nothing else changes. -/
def Obligations.ScalarProductsAndDivisions : Prop :=
  ∀ (s : State) (d : Domain) (t : Tile), s.At d t → ∀ (g : BitVec 4) (dst : Dst) (a b : SSpec),
    ∀ r ∈ Claims.mulDivRows g dst a b (t.sval a) (t.sval b),
      Yields r.1 s t (scalarFlight t d.dtick r.2.1 .sq (dstDest dst) r.2.2)

/-- The one-operand words of R258 and the immediates of R261: x is the operand, i the eight immediate bits. -/
def Sys2Proof.Claims.unaryRows (g : BitVec 4) (dst : Dst) (a : SSpec) (i : BitVec 8) (x : W64) : List (Instr × W64) :=
  [ (.clz g dst a, BitVec.ofNat 64 ((List.range 64).findIdx (fun k => x.getLsbD (63 - k)))),
    (.ctz g dst a, BitVec.ofNat 64 ((List.range 64).findIdx (fun k => x.getLsbD k))),
    (.popc g dst a, BitVec.ofNat 64 ((List.range 64).countP (fun k => x.getLsbD k))),
    (.bswap g dst a, x.extractLsb' 0 8 ++ x.extractLsb' 8 8 ++ x.extractLsb' 16 8 ++ x.extractLsb' 24 8 ++
      x.extractLsb' 32 8 ++ x.extractLsb' 40 8 ++ x.extractLsb' 48 8 ++ x.extractLsb' 56 8),
    (.mov g dst a, x),
    (.addi g dst a i, BitVec.ofInt 64 (x.toInt + i.toInt)), (.andi g dst a i, x &&& BitVec.ofInt 64 i.toInt),
    (.ori g dst a i, x ||| BitVec.ofInt 64 i.toInt), (.xori g dst a i, x ^^^ BitVec.ofInt 64 i.toInt) ]

/-- The shifts by an immediate of R261, which the loader admits with IMM8 below 64. -/
def Sys2Proof.Claims.shiftRows (g : BitVec 4) (dst : Dst) (a : SSpec) (i : BitVec 8) (x : W64) : List (Instr × W64) :=
  [ (.shli g dst a i, BitVec.ofNat 64 (x.toNat * 2 ^ i.toNat)), (.shri g dst a i, BitVec.ofNat 64 (x.toNat / 2 ^ i.toNat)),
    (.sari g dst a i, BitVec.ofInt 64 (x.toInt / 2 ^ i.toNat)) ]

/-- R258, R261, R262: the counting, byte and move words, the immediate words and MOVI give the table's result one tick
later, and the shifts by an immediate below 64 theirs; nothing else changes. -/
def Sys2Proof.Claims.ScalarUnaryAndImmediateResults : Prop :=
  ∀ (s : State) (d : Domain) (t : Tile), s.At d t → ∀ (g : BitVec 4) (dst : Dst) (a : SSpec) (i : BitVec 8) (j : BitVec 14),
    (∀ r ∈ Claims.unaryRows g dst a i (t.sval a), Yields r.1 s t (scalarFlight t d.dtick 1 .sq (dstDest dst) r.2)) ∧
    (i.toNat < 64 → ∀ r ∈ Claims.shiftRows g dst a i (t.sval a),
      Yields r.1 s t (scalarFlight t d.dtick 1 .sq (dstDest dst) r.2)) ∧
    Yields (.movi g dst j) s t (scalarFlight t d.dtick 1 .sq (dstDest dst) (BitVec.ofInt 64 j.toInt))

/-- R258, R260: SEL takes its first operand when the slot's value is true; ADDSH adds the shifted second operand; the field
words act on bits lo to lo + w − 1, cut at bit 63. INS reads its own destination, 0 for s0 or the queue alone. -/
def Sys2Proof.Claims.ScalarSelectAndFieldResults : Prop :=
  ∀ (s : State) (d : Domain) (t : Tile), s.At d t → ∀ (g : BitVec 4) (dst : Dst) (a b : SSpec) (n : BitVec 2),
    let x := t.sval a
    let y := t.sval b
    let lo := y.toNat % 64
    let w := min (y.toNat / 64 % 64 + 1) (64 - lo)
    let f := x.toNat / 2 ^ lo % 2 ^ w
    let old : W64 := match dst with
      | .reg m => if m = 0 then 0 else t.s.getD m.toNat 0
      | .queue => 0
    Yields (.sel g dst a b n) s t (scalarFlight t d.dtick 1 .sq (dstDest dst)
      (if ((t.preds.getD n.toNat ⟨false, false⟩).value) then x else y)) ∧
    Yields (.addsh g dst a b n) s t (scalarFlight t d.dtick 1 .sq (dstDest dst)
      (BitVec.ofNat 64 (x.toNat + y.toNat * 2 ^ (n.toNat + 1)))) ∧
    Yields (.extu g dst a b) s t (scalarFlight t d.dtick 1 .sq (dstDest dst) (BitVec.ofNat 64 f)) ∧
    Yields (.exts g dst a b) s t (scalarFlight t d.dtick 1 .sq (dstDest dst)
      (BitVec.ofInt 64 (if 2 ^ (w - 1) ≤ f then (f : Int) - 2 ^ w else f))) ∧
    ∃ v : W64, Yields (.ins g dst a b) s t (scalarFlight t d.dtick 1 .sq (dstDest dst) v) ∧
      ∀ k < 64, v.getLsbD k = if lo ≤ k ∧ k < lo + w then x.getLsbD (k - lo) else old.getLsbD k

/-- R258, R260, R261, R262: the scalar words of one tick: two operands, one operand or an immediate, selections and bit fields. -/
def Obligations.ScalarAluAndFieldResults : Prop :=
  Claims.ScalarAluResults ∧ Claims.ScalarUnaryAndImmediateResults ∧ Claims.ScalarSelectAndFieldResults

/-- R240, R262: LDCP gives the 8-byte constant of its slot of the record store, two ticks later; KPUT, INC and DEC write
their register one tick later with no queue entry. A short word that names s0 changes no register (R240): its result is for
s0, which discards it. -/
def Sys2Proof.Claims.ConstantsAndShortScalarWords : Prop :=
  ∀ (s : State) (d : Domain) (t : Tile), s.At d t → ∀ (g : BitVec 4) (h : BitVec 3) (dst : Dst) (i : BitVec 14) (n : BitVec 5),
    (Yields (.ldcp g dst i) s t (scalarFlight t d.dtick 2 .sq (dstDest dst)
      (BitVec.ofNat 64 (fromLE ((List.range 8).map (fun k =>
        s.readByte (locRec t.cluster t.idx t.slot (8 * i.toNat + k)))))))) ∧
    Yields (.kput h n) s t (scalarFlight t d.dtick 1 .sq (.sreg n) (t.sqQ.getD 0 0)) ∧
    Yields (.inc h n) s t (scalarFlight t d.dtick 1 .sq (.sreg n) (t.sreg n + 1)) ∧
    Yields (.dec h n) s t (scalarFlight t d.dtick 1 .sq (.sreg n) (t.sreg n - 1)) ∧
    ∀ u : Tile, (u.enter (scalarFlight t d.dtick 1 .sq (.sreg 0) (t.sreg n + 1))) = u

/-- A vector result under way: its lanes, and the flags that each lane raised. -/
def Sys2Proof.Claims.lanesFlight (t : Tile) (now lat : Nat) (col : Column) (dest : Dest) (r : List (Nat × Flg)) : Flight :=
  vectorFlight t now lat col dest (r.map (fun x => BitVec.ofNat 32 x.1)) (r.map (fun x => x.2))

/-- A result of pairs under way: pair k is words 2k and 2k + 1, and both carry its flags (10 R235, 08 R191). -/
def Sys2Proof.Claims.pairsFlight (t : Tile) (now lat : Nat) (col : Column) (dest : Dest) (r : List (Nat × Flg)) : Flight :=
  vectorFlight t now lat col dest
    (r.flatMap (fun x => [BitVec.ofNat 32 x.1, BitVec.ofNat 32 (x.1 / 2 ^ 32)])) (r.flatMap (fun x => [x.2, x.2]))

/-- The FP32 and INT32 words of three operands (12 R298, R299): the word, its latency, its lanes. -/
def Sys2Proof.Claims.triRows (g : BitVec 4) (r m : Rm) (a b c : VSpec) (w : Bool) (x y z : Lanes) :
    List (Instr × Nat × List (Nat × Flg)) :=
  let each (f : Nat → Nat → Nat → Nat × Flg) : List (Nat × Flg) :=
    List.zipWith (fun p k => f p.1.toNat p.2.toNat (k : W32).toNat) (List.zip x y) z
  [ (.ffma g r a b c w, 4, each (fp32F.fma m false false)), (.ffms g r a b c w, 4, each (fp32F.fma m false true)),
    (.fnfma g r a b c w, 4, each (fp32F.fma m true false)), (.fnfms g r a b c w, 4, each (fp32F.fma m true true)) ]

/-- R298, R299: the fused words give s1·a·b + s2·c rounded once in the mode in force, four ticks later for FP32 lanes and
six for FP64 pairs; IMAD gives a·b + c modulo 2^32 and SEL chooses by c, one tick later, with no flag. Each enters the VX
queue, and C too when WC is set and C is a register; nothing else changes. That its function rounds the exact value once is
FloatResultsRoundTheExactValueOnce. -/
def Obligations.VectorThreeOperandResults : Prop :=
  ∀ (s : State) (d : Domain) (t : Tile), s.At d t → ∀ (g : BitVec 4) (r : Rm) (a b c : VSpec) (w : Bool),
    let m := t.rounding r
    let dest : Dest := match c, w with
      | .v n, true => .vx (some n)
      | _, _ => .vx none
    let each (f : W32 → W32 → W32 → W32) : Lanes :=
      List.zipWith (fun p k => f p.1 p.2 k) (List.zip (t.vval a) (t.vval b)) (t.vval c)
    let pairs (n : Bool) : List (Nat × Flg) :=
      List.zipWith (fun p k => fp64F.fma m false n p.1.toNat p.2.toNat (k : W64).toNat)
        (List.zip (t.vpairs a) (t.vpairs b)) (t.vpairs c)
    (∀ q ∈ Claims.triRows g r m a b c w (t.vval a) (t.vval b) (t.vval c),
      Yields q.1 s t (Claims.lanesFlight t d.dtick q.2.1 .vx dest q.2.2)) ∧
    Yields (.dfma g r a b c w) s t (Claims.pairsFlight t d.dtick 6 .vx dest (pairs false)) ∧
    Yields (.dfms g r a b c w) s t (Claims.pairsFlight t d.dtick 6 .vx dest (pairs true)) ∧
    Yields (.imad g a b c w) s t (vectorFlight t d.dtick 1 .vx dest
      (each (fun x y z => BitVec.ofNat 32 (x.toNat * y.toNat + z.toNat))) []) ∧
    Yields (.vxSel g a b c w) s t (vectorFlight t d.dtick 1 .vx dest (each (fun x y z => if z = 0 then y else x)) [])

/-- The FP32 words of one or two operands (12 R300-R306, R308, R309): the word, its latency, its lanes. -/
def Sys2Proof.Claims.fp32Rows (g : BitVec 4) (r m : Rm) (a b : VSpec) (d : VDst) (x y : Lanes) :
    List (Instr × Nat × List (Nat × Flg)) :=
  let two (f : Nat → Nat → Nat × Flg) : List (Nat × Flg) := List.zipWith (fun p q => f p.toNat q.toNat) x y
  let one (f : Nat → Nat × Flg) : List (Nat × Flg) := x.map (fun p => f p.toNat)
  let mask (c : FCmp) : List (Nat × Flg) :=
    two (fun p q => (if (fp32F.cmp c p q).1 then 0xFFFFFFFF else 0, (fp32F.cmp c p q).2))
  [ (.fadd g r a b d, 4, two (fp32F.add m false)), (.fsub g r a b d, 4, two (fp32F.add m true)),
    (.fmul g r a b d, 4, two (fp32F.mul m)), (.fmin g a b d, 2, two (fp32F.minmax false)),
    (.fmax g a b d, 2, two (fp32F.minmax true)), (.fminn g a b d, 2, two (fp32F.minmaxNum false)),
    (.fmaxn g a b d, 2, two (fp32F.minmaxNum true)), (.fceq g a b d, 2, mask .eq), (.fclt g a b d, 2, mask .lt),
    (.fcle g a b d, 2, mask .le), (.fcun g a b d, 2, mask .un), (.frint g r a d, 3, one (fp32F.rint m)),
    (.fscalb g r a b d, 4, two (fun p q => fp32F.scalb m p (BitVec.ofNat 32 q).toInt)),
    (.cvtF32I32 g r a d, 3, one (fun p => intToFp32 m (BitVec.ofNat 32 p).toInt)),
    (.cvtI32F32 g r a d, 3, one (fun p => ((fp32ToInt m p).1.toNat, (fp32ToInt m p).2))),
    (.cvtBf16F32 g r a b d, 3, two (fun p q => ((bf16F.convert fp32F m p).1 + (bf16F.convert fp32F m q).1 * 2 ^ 16,
      (bf16F.convert fp32F m p).2 ||| (bf16F.convert fp32F m q).2))) ]

/-- R301-R306, R308, R309: each FP32 word gives its function of every lane, rounded in the mode in force, at its latency,
into the VX queue and, in FORM 01, its register; nothing else changes. That its function rounds the exact value once is
FloatResultsRoundTheExactValueOnce. -/
def Sys2Proof.Claims.VectorFp32Results : Prop :=
  ∀ (s : State) (d : Domain) (t : Tile), s.At d t → ∀ (g : BitVec 4) (r : Rm) (a b : VSpec) (e : VDst),
    ∀ q ∈ Claims.fp32Rows g r (t.rounding r) a b e (t.vval a) (t.vval b),
      Yields q.1 s t (Claims.lanesFlight t d.dtick q.2.1 .vx (vdstDest e) q.2.2)

/-- The FP64 words of one or two operands (12 R301-R305): the word, its latency, its pairs. -/
def Sys2Proof.Claims.fp64Rows (g : BitVec 4) (r m : Rm) (a b : VSpec) (d : VDst) (x y : List W64) :
    List (Instr × Nat × List (Nat × Flg)) :=
  let two (f : Nat → Nat → Nat × Flg) : List (Nat × Flg) := List.zipWith (fun p q => f p.toNat q.toNat) x y
  let mask (c : FCmp) : List (Nat × Flg) :=
    two (fun p q => (if (fp64F.cmp c p q).1 then 2 ^ 64 - 1 else 0, (fp64F.cmp c p q).2))
  [ (.dadd g r a b d, 6, two (fp64F.add m false)), (.dsub g r a b d, 6, two (fp64F.add m true)),
    (.dmul g r a b d, 6, two (fp64F.mul m)), (.dmin g a b d, 2, two (fp64F.minmax false)),
    (.dmax g a b d, 2, two (fp64F.minmax true)), (.dceq g a b d, 2, mask .eq), (.dclt g a b d, 2, mask .lt),
    (.dcle g a b d, 2, mask .le), (.dcun g a b d, 2, mask .un),
    (.drint g r a d, 3, x.map (fun p => fp64F.rint m p.toNat)) ]

/-- R301-R305, R308: each FP64 word gives its function of every pair at its latency; DABS and DNEG act on the sign bit
alone, with no flag; the two conversions between FP32 lanes and FP64 pairs go by lane k and pair k, lanes 16-31 of
CVT.F32.F64 being +0. Nothing else changes. -/
def Sys2Proof.Claims.VectorFp64Results : Prop :=
  ∀ (s : State) (d : Domain) (t : Tile), s.At d t → ∀ (g : BitVec 4) (r : Rm) (a b : VSpec) (e : VDst),
    let bits (f : W64 → W64) : Lanes := (t.vpairs a).flatMap (fun x => [(f x).setWidth 32, (f x >>> 32).setWidth 32])
    let wide := ((t.vval a).take 16).map (fun x => fp64F.convert fp32F .rne x.toNat)
    let narrow := (t.vpairs a).map (fun x => fp32F.convert fp64F (t.rounding r) x.toNat)
    (∀ q ∈ Claims.fp64Rows g r (t.rounding r) a b e (t.vpairs a) (t.vpairs b),
      Yields q.1 s t (Claims.pairsFlight t d.dtick q.2.1 .vx (vdstDest e) q.2.2)) ∧
    Yields (.dabs g a e) s t (vectorFlight t d.dtick 1 .vx (vdstDest e) (bits (fun x => BitVec.ofNat 64 (x.toNat % 2 ^ 63))) []) ∧
    Yields (.dneg g a e) s t (vectorFlight t d.dtick 1 .vx (vdstDest e) (bits (fun x => BitVec.ofNat 64 (x.toNat + 2 ^ 63))) []) ∧
    Yields (.cvtF64F32 g a e) s t (Claims.pairsFlight t d.dtick 3 .vx (vdstDest e) wide) ∧
    Yields (.cvtF32F64 g r a e) s t (vectorFlight t d.dtick 3 .vx (vdstDest e)
      (narrow.map (fun x => BitVec.ofNat 32 x.1) ++ List.replicate 16 0) (narrow.map (fun x => x.2)))

/-- R301-R306, R308, R309: the floating-point words of one or two operands, in lanes and in pairs. -/
def Obligations.VectorFloatingPointResults : Prop :=
  Claims.VectorFp32Results ∧ Claims.VectorFp64Results

/-- The words of 12 R303, R304, R307 and R308 that act on bits or integers: the word, its latency, its lane of x and y. -/
def Sys2Proof.Claims.intRows (g : BitVec 4) (a b : VSpec) (d : VDst) : List (Instr × Nat × (W32 → W32 → W32)) :=
  let mask (p : Prop) [Decidable p] : W32 := if p then 0xFFFFFFFF else 0
  let clamp (x : Int) : W32 := BitVec.ofInt 32 (max (-2 ^ 31) (min (2 ^ 31 - 1) x))
  [ (.iadd g a b d, 1, fun x y => BitVec.ofNat 32 (x.toNat + y.toNat)), (.isub g a b d, 1, fun x y => BitVec.ofInt 32 (x.toInt - y.toInt)),
    (.imul g a b d, 1, fun x y => BitVec.ofNat 32 (x.toNat * y.toNat)),
    (.imulh g a b d, 1, fun x y => BitVec.ofInt 32 (x.toInt * y.toInt / 2 ^ 32)),
    (.imulhu g a b d, 1, fun x y => BitVec.ofNat 32 (x.toNat * y.toNat / 2 ^ 32)),
    (.imin g a b d, 1, fun x y => BitVec.ofInt 32 (min x.toInt y.toInt)),
    (.imax g a b d, 1, fun x y => BitVec.ofInt 32 (max x.toInt y.toInt)),
    (.iminu g a b d, 1, fun x y => BitVec.ofNat 32 (min x.toNat y.toNat)),
    (.imaxu g a b d, 1, fun x y => BitVec.ofNat 32 (max x.toNat y.toNat)),
    (.iand g a b d, 1, fun x y => x &&& y), (.ior g a b d, 1, fun x y => x ||| y), (.ixor g a b d, 1, fun x y => x ^^^ y),
    (.iandn g a b d, 1, fun x y => x &&& ~~~y),
    (.ishl g a b d, 1, fun x y => BitVec.ofNat 32 (x.toNat * 2 ^ (y.toNat % 32))),
    (.ishr g a b d, 1, fun x y => BitVec.ofNat 32 (x.toNat / 2 ^ (y.toNat % 32))),
    (.isar g a b d, 1, fun x y => BitVec.ofInt 32 (x.toInt / 2 ^ (y.toNat % 32))),
    (.iceq g a b d, 2, fun x y => mask (x = y)), (.iclt g a b d, 2, fun x y => mask (x.toInt < y.toInt)),
    (.icltu g a b d, 2, fun x y => mask (x.toNat < y.toNat)),
    (.iadds g a b d, 1, fun x y => clamp (x.toInt + y.toInt)), (.isubs g a b d, 1, fun x y => clamp (x.toInt - y.toInt)),
    (.fcpysgn g a b d, 1, fun x y => BitVec.ofNat 32 (x.toNat % 2 ^ 31 + y.toNat / 2 ^ 31 * 2 ^ 31)) ]

/-- The one-operand words of the same rules. -/
def Sys2Proof.Claims.intUnaryRows (g : BitVec 4) (a : VSpec) (d : VDst) (h : Bool) : List (Instr × Nat × (W32 → W32)) :=
  [ (.iabs g a d, 1, fun x => BitVec.ofInt 32 |x.toInt|), (.fabs g a d, 1, fun x => BitVec.ofNat 32 (x.toNat % 2 ^ 31)),
    (.fneg g a d, 1, fun x => BitVec.ofNat 32 (x.toNat + 2 ^ 31)),
    (.cvtF32Bf16 g a h d, 3, fun x => BitVec.ofNat 32 ((if h then x.toNat / 2 ^ 16 else x.toNat) * 2 ^ 16)) ]

/-- R303, R304, R307, R308: the integer, sign and mask words give the table's result in every lane at their latency and
raise no flag; nothing else changes. -/
def Sys2Proof.Claims.VectorIntegerResults : Prop :=
  ∀ (s : State) (d : Domain) (t : Tile), s.At d t → ∀ (g : BitVec 4) (a b : VSpec) (e : VDst) (h : Bool),
    (∀ q ∈ Claims.intRows g a b e, Yields q.1 s t
      (vectorFlight t d.dtick q.2.1 .vx (vdstDest e) (List.zipWith q.2.2 (t.vval a) (t.vval b)) [])) ∧
    ∀ q ∈ Claims.intUnaryRows g a e h, Yields q.1 s t
      (vectorFlight t d.dtick q.2.1 .vx (vdstDest e) ((t.vval a).map q.2.2) [])

/-- The result of 2^n neighbours by halves, which is the fixed tree of 12 R313. -/
def Sys2Proof.Claims.byHalves {α : Type} [Inhabited α] (f : α → α → α) : Nat → List α → α
  | 0, l => l.headD default
  | n + 1, l => f (byHalves f n (l.take (2 ^ n))) (byHalves f n (l.drop (2 ^ n)))

/-- A reduction that gathers the flags of its steps. -/
def Sys2Proof.Claims.treeOf (f : Nat → Nat → Nat × Flg) (n : Nat) (xs : List Nat) : Nat × Flg :=
  Claims.byHalves (fun p q => ((f p.1 q.1).1, p.2 ||| q.2 ||| (f p.1 q.1).2)) n (xs.map (fun x => (x, (0 : Flg))))

/-- R311-R313: VEXT and VEXT.W64 put one lane or pair in the SQ queue three ticks later; VPERM and VROT move lanes in two;
the reductions combine neighbours in the fixed tree, lower side first, and put the value in every lane or pair six ticks
later. The operand has its 32 lanes; nothing else changes. -/
def Sys2Proof.Claims.VectorMovesAndReductions : Prop :=
  ∀ (s : State) (d : Domain) (t : Tile), s.At d t → ∀ (g : BitVec 4) (a b : VSpec) (n : BitVec 6),
    (t.vval a).length = 32 → (t.vpairs a).length = 16 →
    let x := t.vval a
    let ab := x.map (fun z => (z.toNat % 2 ^ 31 : Nat))
    let whole (r : Nat × Flg) := Claims.lanesFlight t d.dtick 6 .vx (.vx none) (List.replicate 32 r)
    let wholePairs (r : Nat × Flg) := Claims.pairsFlight t d.dtick 6 .vx (.vx none) (List.replicate 16 r)
    let xs := x.map (fun z => z.toNat)
    let ps := (t.vpairs a).map (fun z => z.toNat)
    let i32 (v : W32) := vectorFlight t d.dtick 6 .vx (.vx none) (List.replicate 32 v) []
    (n.toNat < 32 → Yields (.vext g a n) s t (scalarFlight t d.dtick 3 .vx (.sq none) ((x.getD n.toNat 0).setWidth 64))) ∧
    (n.toNat < 16 → Yields (.vextW64 g a n) s t (scalarFlight t d.dtick 3 .vx (.sq none) ((t.vpairs a).getD n.toNat 0))) ∧
    Yields (.vperm g a b) s t (vectorFlight t d.dtick 2 .vx (.vx none)
      ((t.vval b).map (fun i => x.getD (i.toNat % 32) 0)) []) ∧
    (n.toNat < 32 → Yields (.vrot g a n) s t (vectorFlight t d.dtick 2 .vx (.vx none) (x.drop n.toNat ++ x.take n.toNat) [])) ∧
    Yields (.vredf g a .add) s t (whole (Claims.treeOf (fp32F.add .rne false) 5 xs)) ∧
    Yields (.vredf g a .max) s t (whole (Claims.treeOf (fp32F.minmax true) 5 xs)) ∧
    Yields (.vredf g a .min) s t (whole (Claims.treeOf (fp32F.minmax false) 5 xs)) ∧
    Yields (.vredf g a .maxabs) s t (whole (Claims.treeOf (fp32F.minmax true) 5 ab)) ∧
    Yields (.vredd g a .add) s t (wholePairs (Claims.treeOf (fp64F.add .rne false) 4 ps)) ∧
    Yields (.vredd g a .max) s t (wholePairs (Claims.treeOf (fp64F.minmax true) 4 ps)) ∧
    Yields (.vredd g a .min) s t (wholePairs (Claims.treeOf (fp64F.minmax false) 4 ps)) ∧
    Yields (.vredi g a .add) s t (i32 (BitVec.ofNat 32 xs.sum)) ∧
    Yields (.vredi g a .and) s t (i32 (x.foldr (· &&& ·) 0xFFFFFFFF)) ∧
    Yields (.vredi g a .or) s t (i32 (x.foldr (· ||| ·) 0)) ∧
    (∃ v ∈ x, Yields (.vredi g a .max) s t (i32 v) ∧ ∀ y ∈ x, y.toInt ≤ v.toInt) ∧
    (∃ v ∈ x, Yields (.vredi g a .min) s t (i32 v) ∧ ∀ y ∈ x, v.toInt ≤ y.toInt)

/-- R314-R317: QNT8 puts the quantised product into byte n of C's lane, DQ8 gives the exact FP32 value of byte n, CVTH
packs two FP16 halves, CVTHU widens one, VCLASS sets one bit by class; nothing else changes. -/
def Sys2Proof.Claims.VectorPackingAndClasses : Prop :=
  ∀ (s : State) (d : Domain) (t : Tile), s.At d t → ∀ (g : BitVec 4) (n : BitVec 2) (f sat h : Bool) (a b c : VSpec),
    let byteOf (w : Nat) := w / 256 ^ n.toNat % 256
    let put (z q : Nat) : Nat := z - byteOf z * 256 ^ n.toNat + q % 256 * 256 ^ n.toNat
    let half (w : Nat) := if h then w / 2 ^ 16 else w % 2 ^ 16
    let fp16 (p : W32) := fp16F.convert fp32F .rne p.toNat
    Yields (.qnt8 g n f sat a b c) s t (Claims.lanesFlight t d.dtick 3 .vx (.vx none)
      (List.zipWith (fun p z => (put (z : W32).toNat (mulToFp8 f sat p.1.toNat p.2.toNat).1,
        (mulToFp8 f sat p.1.toNat p.2.toNat).2)) (List.zip (t.vval a) (t.vval b)) (t.vval c))) ∧
    Yields (.dq8 g f n a) s t (vectorFlight t d.dtick 3 .vx (.vx none)
      ((t.vval a).map (fun x => BitVec.ofNat 32 (fp8ToFp32 f (byteOf x.toNat)))) []) ∧
    Yields (.cvth g a b) s t (Claims.lanesFlight t d.dtick 3 .vx (.vx none)
      (List.zipWith (fun p q => ((fp16 p).1 + (fp16 q).1 * 2 ^ 16, (fp16 p).2 ||| (fp16 q).2)) (t.vval a) (t.vval b))) ∧
    Yields (.cvthu g a h) s t (Claims.lanesFlight t d.dtick 3 .vx (.vx none)
      ((t.vval a).map (fun x => fp32F.convert fp16F .rne (half x.toNat)))) ∧
    Yields (.vclass g a) s t (vectorFlight t d.dtick 2 .vx (.vx none)
      ((t.vval a).map (fun x => BitVec.ofNat 32 (2 ^ classOf x.toNat))) [])

/-- R303, R304, R307, R308, R311-R317: the integer words, the moves and reductions, and the packing and class words. -/
def Obligations.VectorIntegerAndPermuteResults : Prop :=
  Claims.VectorIntegerResults ∧ Claims.VectorMovesAndReductions ∧ Claims.VectorPackingAndClasses

/-- The latencies of the XC words in FP32 and in FP64 (12 R321). -/
def Sys2Proof.Claims.xcRows (g : BitVec 4) (r : Rm) (a : VSpec) : List (Fn × Instr × Nat × Instr × Nat) :=
  [ (.exp, .exp g r a, 12, .expF64 g r a, 28), (.exp2, .exp2 g r a, 12, .exp2F64 g r a, 26),
    (.log, .log g r a, 12, .logF64 g r a, 28), (.log2, .log2 g r a, 12, .log2F64 g r a, 28),
    (.erf, .erf g r a, 14, .erfF64 g r a, 32), (.erfc, .erfc g r a, 14, .erfcF64 g r a, 34),
    (.sqrt, .sqrt g r a, 10, .sqrtF64 g r a, 22), (.rsqrt, .rsqrt g r a, 10, .rsqrtF64 g r a, 24),
    (.rcp, .rcp g r a, 10, .rcpF64 g r a, 22), (.tanh, .tanh g r a, 14, .tanhF64 g r a, 32),
    (.sigm, .sigm g r a, 14, .sigmF64 g r a, 32), (.expm1, .expm1 g r a, 12, .expm1F64 g r a, 28),
    (.log1p, .log1p g r a, 12, .log1pF64 g r a, 28) ]

/-- R318, R319, R321: each XC word gives its function of every lane or pair in the mode in force, into the XC queue alone,
at the latency of the table; nothing else changes. That its function rounds the exact value once is
FloatResultsRoundTheExactValueOnce, for RCP, SQRT and RSQRT; the others are assumption 12. -/
def Obligations.FunctionWordResults : Prop :=
  ∀ (s : State) (d : Domain) (t : Tile), s.At d t → ∀ (g : BitVec 4) (r : Rm) (a b : VSpec),
    let m := t.rounding r
    (∀ q ∈ Claims.xcRows g r a,
      Yields q.2.1 s t (Claims.lanesFlight t d.dtick q.2.2.1 .xc .xc ((t.vval a).map (fun x => fp32F.func q.1 m x.toNat))) ∧
      Yields q.2.2.2.1 s t
        (Claims.pairsFlight t d.dtick q.2.2.2.2 .xc .xc ((t.vpairs a).map (fun x => fp64F.func q.1 m x.toNat)))) ∧
    Yields (.divF32 g r a b) s t (Claims.lanesFlight t d.dtick 12 .xc .xc
      (List.zipWith (fun x y => fp32F.div m x.toNat y.toNat) (t.vval a) (t.vval b))) ∧
    Yields (.divF64 g r a b) s t (Claims.pairsFlight t d.dtick 24 .xc .xc
      (List.zipWith (fun x y => fp64F.div m x.toNat y.toNat) (t.vpairs a) (t.vpairs b)))

/-- R240: VPUT writes VX age 0 and VZERO writes zeros into their register one tick later, with no queue entry; nothing else
changes. -/
def Sys2Proof.Claims.ShortVectorWords : Prop :=
  ∀ (s : State) (d : Domain) (t : Tile), s.At d t → ∀ (g : BitVec 3) (n : BitVec 4),
    Yields (.vput g n) s t (vectorFlight t d.dtick 1 .vx (.vreg n) (t.vxQ.getD 0 (List.replicate 32 0)) []) ∧
    Yields (.vzero g n) s t (vectorFlight t d.dtick 1 .vx (.vreg n) (List.replicate 32 0) [])

/-- R240, R262: LDCP and the short words of the two columns that write registers. -/
def Obligations.ConstantsAndShortWords : Prop :=
  Claims.ConstantsAndShortScalarWords ∧ Claims.ShortVectorWords

/-- The comparisons of 11 R263. -/
def Sys2Proof.Claims.holds (c : Cond) (x y : W64) : Prop :=
  match c with
  | .eq => x = y
  | .ne => x ≠ y
  | .lt => x.toInt < y.toInt
  | .le => x.toInt ≤ y.toInt
  | .gt => y.toInt < x.toInt
  | .ge => y.toInt ≤ x.toInt
  | .ltu => x.toNat < y.toNat
  | .leu => x.toNat ≤ y.toNat
  | .gtu => y.toNat < x.toNat
  | .geu => y.toNat ≤ x.toNat
  | .bitset => x.toNat / 2 ^ (y.toNat % 64) % 2 = 1
  | .bitclr => x.toNat / 2 ^ (y.toNat % 64) % 2 = 0
  | .always => True
  | .never => False

/-- The operations of PLOG (11 R264). -/
def Sys2Proof.Claims.logic (o : LogicOp) (x y : Prop) : Prop :=
  match o with
  | .and => x ∧ y
  | .or => x ∨ y
  | .xor => ¬(x ↔ y)
  | .andn => x ∧ ¬y
  | .nand => ¬(x ∧ y)
  | .nor => ¬(x ∨ y)
  | .xnor => x ↔ y
  | .not => ¬x

/-- R263-R266: CMP, CMPI, PLOG and PMOV to a slot write their slot's value, and its written bit, one tick later; PW ANDs
a comparison with the slot's old value, read at the issue tick; PMOV from a slot gives value and written bit; PCLR clears.
Nothing else changes. -/
def Obligations.PredicateWords : Prop :=
  ∀ (s : State) (d : Domain) (t : Tile), s.At d t → ∀ (g : BitVec 4) (p pa pb m3 : BitVec 3) (w : Bool) (a b : SSpec)
    (i : BitVec 6) (c : Cond) (o : LogicOp) (m : BitVec 8) (dst : Dst),
    let slot (q : BitVec 3) : Pred := t.preds.getD q.toNat ⟨false, false⟩
    let put (q : BitVec 3) (v : Bool) : Flight := scalarFlight t d.dtick 1 .sq (.slot q v) 0
    let old : Prop := w = true → (slot p).value = true
    (∃ v : Bool, Yields (.cmp g p w a b c) s t (put p v) ∧ (v = true ↔ Claims.holds c (t.sval a) (t.sval b) ∧ old)) ∧
    (∃ v : Bool, Yields (.cmpi g p w a i c) s t (put p v) ∧
      (v = true ↔ Claims.holds c (t.sval a) (BitVec.ofInt 64 i.toInt) ∧ old)) ∧
    (∃ v : Bool, Yields (.plog g p pa pb o) s t (put p v) ∧
      (v = true ↔ Claims.logic o ((slot pa).value = true) ((slot pb).value = true))) ∧
    (∃ v : Bool, Yields (.pmovToSlot g a m3) s t (put m3 v) ∧ (v = true ↔ t.sval a ≠ 0)) ∧
    (∃ x : W64, Yields (.pmovToRegister g dst m3) s t (scalarFlight t d.dtick 1 .sq (dstDest dst) x) ∧
      x.getLsbD 0 = (slot m3).value ∧ x.getLsbD 1 = (slot m3).written ∧ x.toNat < 4) ∧
    Yields (.pclr g m) s t (scalarFlight t d.dtick 1 .sq (.clear m) 0)

/-- R213, R236, R238, R240, R265: what a result does to its destination. A scalar result enters the SQ queue as age 0, of
16 entries, and its register unless that is s0; a vector result the VX queue and its register; an XC or LS result its
queue of eight; a short word its register alone; a slot takes its value and its written bit; PCLR clears the masked slots.
Nothing else of the tile changes. -/
def Obligations.ResultsEnterTheirDestinations : Prop :=
  ∀ (t : Tile) (f : Flight), t.s.length = 32 → t.v.length = 16 → t.preds.length = 8 →
    match f.dest with
    | .sq none => t.enter f = { t with sqQ := (f.val :: t.sqQ).take 16 }
    | .sq (some n) => t.enter f = { t with
        s := if n = 0 then t.s else t.s.set n.toNat f.val
        sqQ := (f.val :: t.sqQ).take 16 }
    | .sreg n => t.enter f = { t with s := if n = 0 then t.s else t.s.set n.toNat f.val }
    | .vx none => t.enter f = { t with vxQ := (f.lanes :: t.vxQ).take 16 }
    | .vx (some n) => t.enter f = { t with v := t.v.set n.toNat f.lanes, vxQ := (f.lanes :: t.vxQ).take 16 }
    | .vreg n => t.enter f = { t with v := t.v.set n.toNat f.lanes }
    | .xc => t.enter f = { t with xcQ := (f.lanes :: t.xcQ).take 8 }
    | .ls => t.enter f = { t with lsQ := (f.lanes :: t.lsQ).take 8 }
    | .slot p v => t.enter f = { t with preds := t.preds.set p.toNat ⟨v, true⟩ }
    | .clear m => ∃ ps : List Pred, t.enter f = { t with preds := ps } ∧ ps.length = 8 ∧
        ∀ k < 8, ps[k]? = if m.getLsbD k then some ⟨false, false⟩ else t.preds[k]?

/-- R189, R201, R255, R293: a column result that is due and raises no enabled flag completes: its flags enter FLAGS, the
result leaves the results under way and enters its destination, and every register, queue, slot and special register of
the tile stands as that entry leaves it; memory is unchanged. -/
def Obligations.ColumnResultCompletes : Prop :=
  ∀ (s : State) (d : Domain) (t : Tile) (f : Flight), s.At d t → t.lt = s.cur.lt → firstDue d.dtick t.flights = some f →
    t.trapen &&& orFlags f.raised = 0 →
    Completes (exec .columnResultCompletion s) (fun s' => ∃ d' t', s'.At d' t' ∧
      let u := ({ t with flags := t.flags ||| orFlags f.raised, flights := t.flights.erase f } : Tile).enter f
      { t' with recs := u.recs, engines := u.engines, sems := u.sems } = u ∧
      d'.causes = d.causes ∧ s'.mem = s.mem ∧ s'.clusters = s.clusters ∧ s'.cur = s.cur)

/-- R190, R191, R296: when an enabled flag enters, the floating-point trap is taken at that tick: cause 2 on the tile from
the result's column, LANEFLG names the enabled flags raised and the lanes that raised them, and the result stays
suppressed in its latch: no register, queue or slot is written. Memory is unchanged. -/
def Obligations.FloatingPointTrapSuppressesTheResult : Prop :=
  ∀ (s : State) (d : Domain) (t : Tile) (f : Flight), s.At d t → t.lt = s.cur.lt → firstDue d.dtick t.flights = some f →
    t.trapen &&& orFlags f.raised ≠ 0 →
    let trap := t.trapen &&& orFlags f.raised
    Completes (exec .columnResultCompletion s) (fun s' => ∃ d' t', s'.At d' t' ∧
      t'.flags = t.flags ||| orFlags f.raised ∧ t'.laneflg.extractLsb' 32 9 = trap ∧
      (∀ k < 32, t'.laneflg.getLsbD k = decide (f.raised.getD k 0 &&& trap ≠ 0)) ∧
      (∃ g ∈ t'.flights, g.cause = 2 ∧ g.dest = f.dest ∧ g.val = f.val ∧ g.lanes = f.lanes) ∧
      t'.s = t.s ∧ t'.v = t.v ∧ t'.sqQ = t.sqQ ∧ t'.vxQ = t.vxQ ∧ t'.xcQ = t.xcQ ∧ t'.lsQ = t.lsQ ∧
      t'.preds = t.preds ∧ d'.causes = d.causes ++ [⟨d.dtick, s.cur.lt, colIdx f.col, 2, 0⟩] ∧
      d'.haltAt = some (match d.haltAt with
        | some h => min h (d.dtick + d.lead)
        | none => d.dtick + d.lead) ∧ s'.mem = s.mem)

/-- The tile once its target register r holds an address, ready 24 ticks later. The fetch that the register held is abandoned,
but for one whose block a taken LEAP has fixed as the continuation, which goes on for the decision; every other fetch stands,
in its order; and the register's own fetch of the block at its new address is asked for behind them (09 R210, R211). -/
def Sys2Proof.Claims.Prepared (t t' : Tile) (r : BitVec 2) (a : W64) (now : Nat) (ret : Bool) : Prop :=
  let fixed (f : Fetch) : Bool := match t.decision with
    | some ⟨true, x⟩ => x == f.addr
    | _ => false
  t' = { t with
    targets := t.targets.set r.toNat ⟨a, now + 24, ret, true⟩
    loader := t.loader.filterMap (fun f =>
      if f.owner ≠ .target r then some f else if fixed f then some { f with owner := .fixed } else none) ++
        [⟨a, .asked, .target r⟩] }

/-- R210: PREP takes the block's address plus eight times the signed offset, PREP.S a register's address, PREP.RET the top
of the return stack, which stays; the fetch that the register held before is abandoned for the new one. PREP.S of a
misaligned or illegal address raises the address fault, PREP.RET of an empty stack with nothing spilled the return-stack
fault 2; of an empty stack whose entries are all in the share it completes too, but the hold of R216 keeps a run from issuing
it there, and nothing is said of the address. Only the target register and the loader's fetches change. -/
def Obligations.TargetRegistersAreLoaded : Prop :=
  ∀ (s : State) (d : Domain) (t : Tile), s.At d t → t.targets.length = 4 → ∀ (g : BitVec 4) (r : BitVec 2) (o : BitVec 16) (a : SSpec),
    let x := t.sval a
    let legal := x.toNat % 8 = 0 ∧ x.toNat / 2 ^ 61 < 6 ∧ x.toNat / 2 ^ 48 % 2 ^ 13 = 0
    (∃ t', exec (.prep g r o) s = .next (s.put t') ∧
      Claims.Prepared t t' r (BitVec.ofInt 64 (t.block.addr.toInt + 8 * o.toInt)) d.dtick false) ∧
    (legal → ∃ t', exec (.prepS g r a) s = .next (s.put t') ∧ Claims.Prepared t t' r x d.dtick false) ∧
    (¬legal → Raises (.prepS g r a) s 0 3 0 x) ∧
    (∀ y ys, t.stack = y :: ys → ∃ t', exec (.prepRet g r) s = .next (s.put t') ∧ Claims.Prepared t t' r y d.dtick true) ∧
    (t.stack = [] → t.spills = 0 → Raises (.prepRet g r) s 0 10 2 0) ∧
    (t.stack = [] → t.spills ≠ 0 → ∃ t' y, exec (.prepRet g r) s = .next (s.put t') ∧ Claims.Prepared t t' r y d.dtick true)

/-- The tile with its decision not taken: the next repetition, or the fall-through after the last (R204). -/
def Sys2Proof.Claims.notTaken (t : Tile) : Tile :=
  { t with decision := some ⟨false, if t.rep < t.block.hdr.toNat / 2 ^ 16 % 256 then t.block.addr else t.block.after⟩ }

/-- The tile with its decision taken to a target register's address. A target of PREP.RET pops the return stack; when that
leaves seven entries of eight and the share holds one that is not yet on its way, its refill starts (R211, R216). -/
def Sys2Proof.Claims.takenTo (t : Tile) (r : TReg) : Tile :=
  let pop : Tile := { t with
    stack := t.stack.tail
    refill := if t.stack.length + t.refill = 8 ∧ t.refill < t.spills then t.refill + 1 else t.refill }
  { (if r.ret then pop else t) with decision := some ⟨true, r.addr⟩ }

/-- R204, R211, R214, R215: every LEAP, LEAPL and LEAP.D of a tile completes, whatever its slot, target and stack. One that
its slot does not select decides for the next repetition or the fall-through; one that is selected, and whose target is
loaded and ready, for the target, popping the stack of a PREP.RET target; LEAPL first pushes the fall-through, its oldest
entry going to a slot of the share that has a translation and, where the entry merges with a granule, a sound one (else
LeaplSpillsTheOldestEntry). A target not ready raises the decision fault, and a taken LEAPL with eight entries on chip or on their way there and a full share
the return-stack fault 1, each acting as not taken. LEAP.D leaves its continuation to be compared. -/
def Sys2Proof.Claims.LeapDecides : Prop :=
  ∀ (s : State) (d : Domain) (t : Tile), s.At d t → ∀ (g : BitVec 4) (r : BitVec 2) (p : BitVec 3) (sense : Bool),
    let taken := (t.preds.getD p.toNat ⟨false, false⟩).value ≠ sense
    let tr := t.targets.getD r.toNat ⟨0, 0, false, false⟩
    let good := tr.loaded = true ∧ tr.ready ≤ d.dtick
    let no := Claims.notTaken t
    let choose (u : Tile) (x : W64) : State := (s.put u).updDom s.cur.dom (fun e =>
      { e with choices := e.choices ++ [⟨t.lt, d.dtick, x, t.wordOfs .sq⟩] })
    let full := 8 ≤ t.stack.length + t.refill
    let share := field d.pkt 52 4 / (8 * d.tiles.length)
    let room := t.spills - t.refill < share
    let slot : W64 := BitVec.ofNat 64 (field d.pkt 56 8 + t.lt * 8 * share + 8 * t.spills)
    (¬taken → exec (.leap g r p sense) s = .next (s.put no) ∧ exec (.leapl g r p sense) s = .next (s.put no) ∧
      exec (.leapD g r p sense) s = .next (choose no ((no.decision.map Decision.cont).getD 0))) ∧
    (taken → good →
      exec (.leap g r p sense) s = .next (s.put (Claims.takenTo t tr)) ∧
      exec (.leapD g r p sense) s = .next (choose (Claims.takenTo t tr) tr.addr) ∧
      (¬full → exec (.leapl g r p sense) s =
        .next (s.put (Claims.takenTo { t with stack := t.block.after :: t.stack } tr))) ∧
      (full → ¬room → exec (.leapl g r p sense) s = .next ((s.put no).raise 0 10 1 0)) ∧
      (full → room → 0 < t.refill → exec (.leapl g r p sense) s = .next (s.put
        (Claims.takenTo { t with stack := t.block.after :: t.stack, refill := t.refill - 1 } tr))) ∧
      (full → room → t.refill = 0 → (∃ q, resolveFor s d t true slot = .ok q ∧
          (q.discarded = true ∨ s.cutOff q.loc = true ∨ s.mergeSound (q.loc, 8) = true)) →
        Completes (exec (.leapl g r p sense) s) (fun s' => ∃ d' t', s'.At d' t' ∧
        { t' with faddr := t.faddr, owed := t.owed } =
          Claims.takenTo { t with stack := t.block.after :: t.stack.dropLast, spills := t.spills + 1 } tr))) ∧
    (taken → ¬good → exec (.leap g r p sense) s = .next ((s.put no).raise 0 9 0 0) ∧
      exec (.leapl g r p sense) s = .next ((s.put no).raise 0 9 0 0) ∧
      exec (.leapD g r p sense) s = .next (((s.put no).raise 0 9 0 0).updDom s.cur.dom (fun e =>
        { e with choices := e.choices ++ [⟨t.lt, d.dtick, (no.decision.map Decision.cont).getD 0, t.wordOfs .sq⟩] })))

/-- R77, R81, R84, R214: a taken LEAPL that finds eight entries on chip and room in its share writes the oldest entry to slot
c of the share, little-endian; every byte outside those eight, but for the first byte of the page's leaf, where A and M
stand (R71), reads as before. On a discarded page it writes nothing and counts in DWRITE. While no link carries traffic, an
entry for host memory waits for one, and no byte of memory but the leaf's changes (18 R423). A walk that fails raises the
lease fault, or the translation fault in open mode, at the issue tick, and a granule that fails its check, which the entry
would merge with, the data-integrity fault (18 R433, R434; assumption 80); the LEAPL, a form that traps, then acts as not
taken: it pushes and pops nothing, and outside open mode no byte changes (R211). -/
def Sys2Proof.Claims.LeaplSpillsTheOldestEntry : Prop :=
  ∀ (s : State) (d : Domain) (t : Tile) (g : BitVec 4) (r : BitVec 2) (p : BitVec 3) (sense : Bool),
    s.At d t → s.memOk → (t.pred p).value ≠ sense → (t.target r).loaded = true → (t.target r).ready ≤ d.dtick →
    t.stack.length = 8 → t.refill = 0 → t.spills < field d.pkt 52 4 / (8 * d.tiles.length) →
    let share := field d.pkt 52 4 / (8 * d.tiles.length)
    let slot : W64 := BitVec.ofNat 64 (field d.pkt 56 8 + t.lt * 8 * share + 8 * t.spills)
    let oldest := t.stack.getD 7 0
    let turnedAway (code : Nat) (s' : State) : Prop := ∃ d' t', s'.At d' t' ∧ { t' with faddr := t.faddr } = Claims.notTaken t ∧
      d'.causes = d.causes ++ [⟨d.dtick, t.lt, 0, code, 0⟩] ∧ (code ≠ 7 → s'.mem = s.mem)
    (∀ q, resolveFor s d t true slot = .ok q → q.discarded = false → s.cutOff q.loc = false →
      s.mergeSound (q.loc, 8) = true → (∀ l, q.leafLoc = some l → l < q.loc ∨ q.loc + 8 ≤ l) →
      Completes (exec (.leapl g r p sense) s) (fun s' =>
        (∀ k < 8, (s'.readByte (q.loc + k)).toNat = oldest.toNat / 256 ^ k % 256) ∧
        ∀ a, (a < q.loc ∨ q.loc + 8 ≤ a) → q.leafLoc ≠ some a → s'.readByte a = s.readByte a)) ∧
    (∀ q, resolveFor s d t true slot = .ok q → q.discarded = true → Completes (exec (.leapl g r p sense) s) (fun s' =>
      s'.parts = upd s.parts d.part (fun x => { x with dwrite := x.dwrite + 1 }) ∧
      ∀ a, q.leafLoc ≠ some a → s'.readByte a = s.readByte a)) ∧
    (∀ q, resolveFor s d t true slot = .ok q → q.discarded = false → s.cutOff q.loc = true →
      Completes (exec (.leapl g r p sense) s) (fun s' => (∃ d' t', s'.At d' t' ∧ t'.owed = t.owed ++ [(q.loc, oldest)]) ∧
        ∀ a, q.leafLoc ≠ some a → s'.readByte a = s.readByte a)) ∧
    (∀ q, resolveFor s d t true slot = .ok q → q.discarded = false → s.cutOff q.loc = false →
      s.mergeSound (q.loc, 8) = false → t.lt = s.cur.lt → Completes (exec (.leapl g r p sense) s) (turnedAway 6)) ∧
    (∀ w, resolveFor s d t true slot = .error w → t.lt = s.cur.lt →
      Completes (exec (.leapl g r p sense) s) (fun s' => turnedAway (if d.relaxed then 7 else 17) s' ∧
        (d.relaxed = false → ∃ d', s'.dom? s.cur.dom = some d' ∧ d'.fatal = true)))

/-- R77, R84, R204, R211, R214-R216: the decision of a block, and the return stack of LEAPL, its spill, its failed spill (assumption 80) and its overflow. -/
def Obligations.LeapDecidesAndSpills : Prop :=
  Claims.LeapDecides ∧ Claims.LeaplSpillsTheOldestEntry

/-- R229, R269, R270: SKIP and SKIPL only move their stream on by n ticks; HALT ends the tile's issue at this tick and
squashes its records whose guards are unresolved; TRAP raises the software trap, cause 1, with its code as detail. -/
def Obligations.FillersHaltAndTrap : Prop :=
  ∀ (s : State) (d : Domain) (t : Tile), s.At d t → ∀ (g : BitVec 4) (h : BitVec 3) (n : BitVec 6) (m : BitVec 20) (i : BitVec 8),
    let later (k : Nat) : Tile := { t with streams := t.streams.modify (colIdx s.cur.col) (fun st => { st with base := st.base + k }) }
    exec (.skip h n) s = .next (s.put (later n.toNat)) ∧
    exec (.skipl g m) s = .next (s.put (later m.toNat)) ∧
    Raises (.trap g i) s 0 1 i.toNat 0 ∧
    (t.recs.Pairwise (fun x y => x.id ≠ y.id) → Completes (exec (.halt g) s) (fun s' => ∃ d' t', s'.At d' t' ∧
      t'.haltTick = some d.dtick ∧
      t'.recs = t.recs.map (fun x => if x.guard.isSome ∧ x.resolved = none
        then { x with stage := .squashed, resolved := some d.dtick } else x) ∧
      t'.flights = t.flights ∧ t'.s = t.s ∧ t'.preds = t.preds ∧ d'.attaches = d.attaches ∧ s'.mem = s.mem))

/-- R379, R380, R382: what taking a trap or fault does. The cause is recorded with its tick, tile, source and detail; the
domain asks to halt a lead later, or at the tick itself for a deadline fault or a request latched in a hold, and the
least tick asked for stands; a fatal code marks the domain; the first address of an address cause of the tile is kept in
FADDR. No other register, and no byte of memory, changes. -/
def Obligations.RaisingACause : Prop :=
  ∀ (s : State) (d : Domain) (t : Tile), s.At d t → ∀ (src code detail : Nat) (addr : W64),
    let now := code = 21 ∨ (32 ≤ code ∧ d.hold.isSome)
    let tick := if now then d.dtick else d.dtick + (if 4 ≤ field d.pkt 1 1 then 64 else 24)
    let keep := 3 ≤ code ∧ code ≤ 7 ∧ ∀ c ∈ d.causes, c.lt = s.cur.lt → ¬(3 ≤ c.code ∧ c.code ≤ 7)
    let t' : Tile := if keep then { t with faddr := addr } else t
    s.raise src code detail addr = (s.put t').updDom s.cur.dom (fun e => { e with
      causes := e.causes ++ [⟨d.dtick, s.cur.lt, src, code, detail⟩]
      haltAt := some (match d.haltAt with
        | some h => min h tick
        | none => tick)
      fatal := e.fatal || (decide (16 ≤ code) && decide (code < 32)) })

/-- R218: VOTE leaves its tile's part for the delivery; at t + Lv the members' parts give one result, OR, AND, signed
maximum or minimum, or sum, which enters every member: a slot and its written bit, under PW ANDed with its old value, or
the SQ queue. A vote with a part missing, a group above 255 or a tile outside its group raises the fatal vote fault on every
tile, and the results of its words stay suppressed in their latches (15 R381). No byte of memory changes. -/
def Sys2Proof.Claims.VotesReduceOverTheGroup : Prop :=
  (∀ (s : State) (d : Domain) (t : Tile), s.At d t → ∀ (g : BitVec 4) (p : BitVec 3) (w : Bool) (a b : SSpec) (c : VoteOp),
    exec (.vote g p w a b c) s = .next (s.updDom s.cur.dom (fun e => { e with ballots := e.ballots ++
      [⟨t.lt, d.dtick, (t.sval b).toNat, c, t.sval a, p, w, t.wordOfs .sq⟩] }))) ∧
  ∀ (s : State) (d : Domain) (b : Ballot) (rest : List Ballot), s.dom? s.cur.dom = some d → d.ballots = b :: rest →
    let members := if b.group = 0 then d.tiles.map (fun t => t.lt) else assoc d.groups b.group []
    let part (m : Nat) (x : Ballot) : Prop := d.ballotOf b m = some x
    let whole := b.group ≤ 255 ∧ b.lt ∈ members ∧ ∀ m ∈ members, ∃ x, part m x
    (¬whole → d.tiles ≠ [] → Completes (exec .voteDelivery s) (fun s' => s'.mem = s.mem ∧ ∃ d', s'.dom? s.cur.dom = some d' ∧
      d'.causes = d.causes ++ d.tiles.map (fun t => ⟨b.tick + (if 4 ≤ field d.pkt 1 1 then 112 else 48), t.lt, 0, 20, 0⟩) ∧
      d'.fatal = true ∧ ∀ x ∈ d.ballots, x.tick = b.tick → d.voteOk x = false → ∀ t, d.tile? x.lt = some t →
        ∃ t', d'.tile? x.lt = some t' ∧ ∃ f ∈ t'.flights, f.cause = 20 ∧ f.issue = x.tick)) ∧
    (whole → members.Nodup → Completes (exec .voteDelivery s) (fun s' => s'.mem = s.mem ∧ ∃ d' r, s'.dom? s.cur.dom = some d' ∧
      d'.causes = d.causes ∧
      (b.op = .any → (r = 1 ∨ r = 0) ∧ (r = 1 ↔ ∃ m ∈ members, ∃ x, part m x ∧ x.value ≠ 0)) ∧
      (b.op = .all → (r = 1 ∨ r = 0) ∧ (r = 1 ↔ ∀ m ∈ members, ∀ x, part m x → x.value ≠ 0)) ∧
      (b.op = .max → (∃ m ∈ members, ∃ x, part m x ∧ x.value = r) ∧ ∀ m ∈ members, ∀ x, part m x → x.value.toInt ≤ r.toInt) ∧
      (b.op = .min → (∃ m ∈ members, ∃ x, part m x ∧ x.value = r) ∧ ∀ m ∈ members, ∀ x, part m x → r.toInt ≤ x.value.toInt) ∧
      (b.op = .add → r = BitVec.ofNat 64 ((members.map (fun m => ((d.ballotOf b m).map (fun x => x.value.toNat)).getD 0)).sum)) ∧
      ∀ m ∈ members, ∀ t x, d.tile? m = some t → part m x → ∃ t', d'.tile? m = some t' ∧ t'.s = t.s ∧
        if b.op = .any ∨ b.op = .all
        then t'.sqQ = t.sqQ ∧ t'.preds = t.preds.set x.slot.toNat ⟨decide (r ≠ 0) && (!x.pw || (t.pred x.slot).value), true⟩
        else t'.sqQ = (r :: t.sqQ).take 16 ∧ t'.preds = t.preds))

/-- R219: the comparison of a LEAP.D changes nothing when every tile issued one at that tick and chose one address; else the
fatal divergence fault is raised, Lv after it, on every tile. -/
def Sys2Proof.Claims.AgreedDecisionsAreCompared : Prop :=
  ∀ (s : State) (d : Domain) (c : Choice) (rest : List Choice), s.dom? s.cur.dom = some d → d.choices = c :: rest →
    let agree := ∀ t ∈ d.tiles, ∃ x ∈ d.choices, x.tick = c.tick ∧ x.lt = t.lt ∧ x.cont = c.cont
    let done (e : Domain) : Domain := { e with choices := e.choices.filter (fun x => x.tick != c.tick) }
    (agree → exec .leapDCheck s = .next (s.updDom s.cur.dom done)) ∧
    (¬agree → Completes (exec .leapDCheck s) (fun s' => s'.mem = s.mem ∧ ∃ d', s'.dom? s.cur.dom = some d' ∧
      d'.causes = d.causes ++ d.tiles.map (fun t => ⟨c.tick + (if 4 ≤ field d.pkt 1 1 then 112 else 48), t.lt, 0, 19, 0⟩) ∧
      d'.fatal = true ∧ d'.choices = (done d).choices))

/-- R218, R219: a vote over a group, and the comparison of agreed decisions. -/
def Obligations.VotesAndAgreedDecisions : Prop :=
  Claims.VotesReduceOverTheGroup ∧ Claims.AgreedDecisionsAreCompared

/-- R144: a new operation takes its place in signal order, by source tick, then tile, then kind, after those of its own
key; so a sequence in signal order stays so, and holds what it held and the new operation. -/
def Sys2Proof.Claims.SemaphoreSequenceKeepsSignalOrder : Prop :=
  ∀ (l : List SemOp) (o : SemOp), l.Pairwise (fun x y => semBefore y x = false) →
    (insertSem l o).Pairwise (fun x y => semBefore y x = false) ∧ (insertSem l o).Perm (o :: l) ∧
    ∃ pre post, l = pre ++ post ∧ insertSem l o = pre ++ o :: post ∧ (∀ x ∈ pre, semBefore o x = false) ∧
      ∀ x ∈ post.head?, semBefore o x = true

/-- R144, R279, R280: SEMSIG gives its semaphore one increment, with the issue tick as source tick, at its place in signal
order. The next operation of a semaphore applies once it has arrived: an increment adds to the count modulo 2^16, a CSR
write sets, ORs or clears it. Nothing else of the tile changes, and no memory. -/
def Sys2Proof.Claims.SemaphoreSignals : Prop :=
  ∀ (s : State) (d : Domain) (t : Tile), s.At d t → t.lt = s.cur.lt → t.sems.length = 16 →
    ∀ (g k : BitVec 4) (i : BitVec 8),
    Completes (exec (.semsig g k i) s) (fun s' => s'.mem = s.mem ∧ ∃ d' t', s'.At d' t' ∧
      t' = { t with sems := t.sems.set k.toNat (insertSem (t.sems.getD k.toNat [])
        ⟨d.dtick, t.lt, .semsig, .add (BitVec.ofNat 16 i.toNat), true, false, d.nextId⟩) } ∧
      d'.causes = d.causes) ∧
    ∀ pre o post, s.cur.item < 16 → t.sems.getD s.cur.item [] = pre ++ o :: post → (∀ x ∈ pre, x.applied = true) →
      o.applied = false → o.arrived = true →
      let new := pre ++ { o with applied := true } :: post
      let old := semCount (pre ++ o :: post)
      let next : State := s.put { t with sems := t.sems.set s.cur.item new }
      exec .semaphoreIncrementApply s = .next next ∧ exec .semCsrWrite s = .next next ∧
      (post.head?.all (fun x => !x.applied) → semCount new = match o.act with
        | .add n => BitVec.ofNat 16 (old.toNat + n.toNat)
        | .set n => n
        | .or n => old ||| n
        | .clear n => old &&& ~~~n)

/-- R145, R156, R280: a SEMWAIT that issues leaves every count as it is; one for 0 changes nothing; any other puts an event
into the tile's order that stands before every later event of the tile and after the sources up to its satisfying point,
and the records among these are acknowledged. No memory changes. -/
def Sys2Proof.Claims.SemaphoreWaitOrders : Prop :=
  ∀ (s : State) (d : Domain) (t : Tile), s.At d t → t.lt = s.cur.lt → ∀ (g k : BitVec 4) (c : BitVec 16),
    exec (.semwait g k 0) s = .next s ∧
    (c ≠ 0 → Completes (exec (.semwait g k c) s) (fun s' => s'.mem = s.mem ∧ ∃ d' t', s'.At d' t' ∧
      t'.sems = t.sems ∧ t'.s = t.s ∧ t'.sqQ = t.sqQ ∧ t'.rdv = t.rdv ∧
      (∃ e, d'.evs = d.evs ++ [e] ∧ e.kind = .semwait ∧ e.lt = t.lt ∧ e.tick = d.dtick ∧ e.acquires = true ∧
        ∀ i ∈ semSources (t.sem k) d.dtick d.dtick t.lt c.toNat, i ∈ e.after) ∧
      ∀ r ∈ t.recs, r.ev ∈ semSources (t.sem k) d.dtick d.dtick t.lt c.toNat → r.told = false →
        ∃ r' ∈ t'.recs, r'.id = r.id ∧ r'.ack.isSome))

/-- R144, R145, R156, R279, R280: signals, their application, and waits. -/
def Obligations.SemaphoreSignalsAndWaits : Prop :=
  Claims.SemaphoreSignals ∧ Claims.SemaphoreWaitOrders

/-- R145: the satisfying point of a wait for n > 0 at a place in a semaphore's sequence is a point at which the count is at
least n, and, unless it lies after the wait, every count from it to the wait's place is too. -/
def Sys2Proof.Claims.SatisfyingPointReachesTheCount : Prop :=
  ∀ (l : List SemOp) (tick lt n k : Nat), 0 < n → satPoint l tick lt n = some k →
    let count (j : Nat) : BitVec 16 := (l.take j).foldl (fun c o => semAct c o.act) 0
    k ≤ l.length ∧ n ≤ (count k).toNat ∧
    (k ≤ semPlace l tick lt → ∀ j, k ≤ j → j ≤ semPlace l tick lt → n ≤ (count j).toNat)

/-- R144, R145: the sequence of a semaphore, and the satisfying point of a wait in it. -/
def Obligations.SemaphoreSequenceAndSatisfyingPoint : Prop :=
  Claims.SemaphoreSequenceKeepsSignalOrder ∧ Claims.SatisfyingPointReachesTheCount

/-- R277, R278: MARK places its marker behind what stands in each engine queue it names, and nowhere else; the marker at
the head of a queue retires and writes its number into that engine's field of RDV; WAITRV changes no field of RDV and
orders every later event of the tile after the records ahead of the marker. No memory changes. -/
def Sys2Proof.Claims.MarkersAndRendezvous : Prop :=
  ∀ (s : State) (d : Domain) (t : Tile), s.At d t → t.lt = s.cur.lt → t.engines.length = 4 → ∀ (g e : BitVec 4) (n : BitVec 16),
    Completes (exec (.mark g e n) s) (fun s' => s'.mem = s.mem ∧ ∃ d' t', s'.At d' t' ∧
      { t' with engines := t.engines } = t ∧ t'.engines.length = 4 ∧
      ∀ k < 4, ∃ i, ((t'.engines.getD k ⟨[], none, none⟩)).entries =
        (t.engines.getD k ⟨[], none, none⟩).entries ++ (if e.getLsbD (3 - k) then [.marker n i] else [])) ∧
    (∀ i r, (t.engines.getD (engIdx s.cur.eng) ⟨[], none, none⟩).entries = .marker n i :: r →
      exec .markerRetire s = .next (s.put { t with
        engines := t.engines.modify (engIdx s.cur.eng) (fun q => { q with entries := r })
        rdv := t.rdv.set (engIdx s.cur.eng) n })) ∧
    Completes (exec (.waitrv g e n) s) (fun s' => s'.mem = s.mem ∧ ∃ d' t', s'.At d' t' ∧ t'.rdv = t.rdv ∧ t'.sems = t.sems ∧
      t'.s = t.s ∧ ∃ v, d'.evs = d.evs ++ [v] ∧ v.kind = .waitrv ∧ v.acquires = true ∧
        ∀ q ∈ maskEngines e, ∀ m, d.markEv t q n = some m → m.id ∈ v.after ∧ ∀ i ∈ m.after, i ∈ v.after)

/-- R113, R141, R281: a class fence puts one fence event into its tile's order, over classes 0-7 or 8-15, and PFENCE takes a
cut at this tick beside its event; each has no latency, enters no queue and changes no other state. -/
def Sys2Proof.Claims.FencesEnterTheOrder : Prop :=
  ∀ (s : State) (d : Domain) (t : Tile), s.At d t → t.lt = s.cur.lt → ∀ (g k n : BitVec 4) (m : BitVec 8) (a : Agent) (sp : BitVec 5),
    let fence (mask : BitVec 16) : State := s.updDom s.cur.dom (fun e => { e with
      evs := e.evs ++ [{ newEv d t .sq (.fence mask a sp) with id := e.nextId }]
      nextId := e.nextId + 1 })
    exec (.cfenceLo g m a sp) s = .next (fence (BitVec.ofNat 16 m.toNat)) ∧
    exec (.cfenceHi g m a sp) s = .next (fence (BitVec.ofNat 16 (m.toNat * 256))) ∧
    exec (.pfence g k a n) s = .next ((s.put { t with cuts := t.cuts ++ [⟨k, decide (a = .domain), n, d.nextId⟩] }).updDom
      s.cur.dom (fun e => { e with
        evs := e.evs ++ [{ newEv d t .sq .pfence with id := e.nextId }]
        nextId := e.nextId + 1 }))

/-- R110, R114, R115: the cuts of a tick are taken at its end, over the lines that a PFENCE freezes (assumption 89), 272 bytes
each and the 68 control lines of scope T with them. Above 4,194,304 bytes, over a tile or, for DOMAIN, over any cluster, the
persist-overflow fault is raised with the greatest volume in line records as its detail, and nothing freezes and no count
rises; tiles whose DOMAIN cuts differ raise the vote fault on every tile. Else the lines freeze and turn clean, EPOCH rises,
with DOMAIN DEPOCH too, each cluster queues one epoch that resumes at the next tick, and each tile's semaphore has its
increment in signal order, which arrives when the epoch is durable. -/
def Sys2Proof.Claims.FenceCutsTakeTheirLines : Prop :=
  ∀ (s : State) (k tick : Nat) (d : Domain),
    let s0 := (s.countRecords k).dropRecords k
    let s' := s.takeCuts k tick
    s0.dom? k = some d → d.tiles.map (fun t => t.lt) = List.range d.tiles.length →
    let taken (sc : BitVec 4) (t : Tile) : List Nat := d.scopeIn t sc (s0.cluster t.cluster).counted
    let size (sc : BitVec 4) (t : Tile) : Nat := 272 * ((taken sc t).length + if sc.getLsbD 3 then 68 else 0)
    let part (sc : BitVec 4) (cl : Nat) : Nat := ((d.tiles.filter (fun t => t.cluster == cl)).map (size sc)).sum
    let raised (code det : Nat) (ts : List Tile) : Prop :=
      (∃ d', s'.dom? k = some d' ∧ d'.causes = d.causes ++ ts.map (fun t => ⟨tick, t.lt, 0, code, det⟩) ∧
        ∀ t ∈ d.tiles, ∃ t', d'.tile? t.lt = some t' ∧ t'.epoch = t.epoch ∧ t'.depoch = t.depoch ∧ t'.sems = t.sems) ∧
      ∀ cl, (s'.cluster cl).frozen = (s0.cluster cl).frozen ∧ (s'.cluster cl).dirty = (s0.cluster cl).dirty ∧
        (s'.cluster cl).epochs = (s0.cluster cl).epochs
    let begun (wide : Bool) (sc : BitVec 4) (cl : Nat) (ts : List Tile) : Prop :=
      (s'.cluster cl).frozen = (s0.cluster cl).frozen ++ ts.flatMap (taken sc) ∧
      (s'.cluster cl).dirty = (s0.cluster cl).dirty.filter (fun l => !(ts.flatMap (taken sc)).contains l) ∧
      ∃ e, (s'.cluster cl).epochs = (s0.cluster cl).epochs ++ [e] ∧ e.seq = k ∧ e.domain = wide ∧ e.halt = tick + 1 ∧
        e.stage = .waiting ∧ e.sealing = false ∧ e.parts.map (fun p => (p.lt, p.lines, p.sem)) =
          ts.map (fun t => (t.lt, taken sc t, t.cuts.head?.map (fun c => c.sem)))
    let counted (wide : Bool) (t : Tile) (c : Cut) : Prop := ∃ d' t', s'.dom? k = some d' ∧ d'.tile? t.lt = some t' ∧
      d'.causes = d.causes ∧ t'.epoch = t.epoch + 1 ∧ t'.depoch = (if wide then t.depoch + 1 else t.depoch) ∧
      t'.sems = upd t.sems c.sem.toNat (fun l => insertSem l ⟨tick, t.lt, .pfence, .add 1, false, false, c.ev⟩)
    s'.mem = s.mem ∧
    (∀ t ∈ d.tiles, ∀ c, t.cuts = [c] → c.domain = false → (∀ x ∈ d.tiles, x.lt ≠ t.lt → x.cuts = []) →
      (4194304 < size c.scope t → raised 13 (size c.scope t / 272) [t]) ∧
      (size c.scope t ≤ 4194304 → counted false t c ∧ begun false c.scope t.cluster [t])) ∧
    ((∀ t ∈ d.tiles, t.cuts = [] ∨ ∃ c, t.cuts = [c] ∧ c.domain = true) → (∃ t ∈ d.tiles, t.cuts ≠ []) →
      ((¬∃ sc, ∀ t ∈ d.tiles, ∃ c, t.cuts = [c] ∧ c.scope = sc) → raised 20 0 d.tiles) ∧
      ∀ sc, (∀ t ∈ d.tiles, ∃ c, t.cuts = [c] ∧ c.scope = sc) →
        (∀ cl ∈ d.clusterList, (∀ x ∈ d.clusterList, part sc x ≤ part sc cl) → 4194304 < part sc cl →
          raised 13 (part sc cl / 272) d.tiles) ∧
        ((∀ cl ∈ d.clusterList, part sc cl ≤ 4194304) → (∀ t ∈ d.tiles, ∀ c ∈ t.cuts, counted true t c) ∧
          ∀ cl ∈ d.clusterList, begun true sc cl (d.tiles.filter (fun t => t.cluster == cl))))

/-- R110, R113-R115, R141, R277, R278, R281: markers, rendezvous, class fences, and persist fences with what their cuts do at the end
of the tick. -/
def Obligations.MarkersRendezvousAndFences : Prop :=
  Claims.MarkersAndRendezvous ∧ Claims.FencesEnterTheOrder ∧ Claims.FenceCutsTakeTheirLines

/-- R216, R272, R274, R276: a push that passes checks 1 to 5 and races no open record and no spill share places its record,
patched, behind what stands in its engine's queue. A record without a guard, or whose slot is written and selects it, is
resolved at this tick; one whose slot is written and refuses it is squashed and holds no entry; one whose slot is unwritten
waits. No memory changes and no cause is raised. One that races, G and H taken in virtual addresses (R360), raises the
footprint fault 1; one squashed at its own push races nothing there (assumption 44), nor does any in relaxed mode or with no
record open and no share met. -/
def Sys2Proof.Claims.PushesPlaceTheirRecord : Prop :=
  ∀ (s : State) (d : Domain) (t : Tile), s.At d t → t.lt = s.cur.lt → t.engines.length = 4 →
    (∀ x ∈ t.recs, x.id ≠ d.nextId) → ∀ (g : BitVec 4) (n : BitVec 10) (p : BitVec 3) (gen sense ovr : Bool) (v : Derived),
    ∀ q ∈ ([(.mq g n p gen sense ovr, .me), (.gq g n p gen sense ovr, .gu), (.cq g n p gen sense ovr, .ce),
      (.hq g n p gen sense ovr, .ch)] : List (Instr × Engine)),
    checkRecord s d t q.2 (s.slotBits t n.toNat) ovr = .ok v → checkSpans s d t v.spans = none →
    let rec0 := newRec s d t q.2 p gen sense v
    let es := recordEvs s d t q.2 rec0 v
    let written := (t.pred p).written
    let differs := (t.pred p).value ≠ sense
    let races := ¬(gen = true ∧ written = true ∧ ¬differs) ∧
      (d.withRec t.lt rec0 es).recordRaces t.lt es d.sharesPushed = true
    (d.relaxed = true ∨ ((∀ e ∈ es, rangesMeet (e.pushReads ++ e.pushWrites) d.sharesPushed = false) ∧
      ∀ x ∈ d.tiles, ∀ r ∈ x.recs, openFor d.vg d.dtick (x.lt == t.lt) r = false) → ¬races) ∧
    (races → Raises q.1 s 0 18 1 0) ∧
    (¬races → Completes (exec q.1 s) (fun s' => s'.mem = s.mem ∧ ∃ d' t', s'.At d' t' ∧ d'.causes = d.causes ∧
      t'.s = t.s ∧
      ∃ r ∈ t'.recs, r.id = d.nextId ∧ r.eng = q.2 ∧ r.tick = d.dtick ∧ r.bits = v.bits ∧
        (gen = false ∨ (written = true ∧ differs) → r.stage = .queued ∧ r.resolved = some d.dtick ∧
          (.record d.nextId) ∈ (t'.engines.getD (engIdx q.2) ⟨[], none, none⟩).entries) ∧
        (gen = true → written = true → ¬differs → r.stage = .squashed ∧ r.resolved = some d.dtick ∧
          (.record d.nextId) ∉ (t'.engines.getD (engIdx q.2) ⟨[], none, none⟩).entries) ∧
        (gen = true → written = false → r.stage = .queued ∧ r.resolved = none)))

/-- R273: the checks of a push, in order: a KIND of another engine, a set reserved bit of the header or a patch of a kind
without one raises the illegal-record fault; an unattached window the fatal detached-window fault; every check that fails raises its fault. Nothing is placed. -/
def Sys2Proof.Claims.PushChecksRaiseInOrder : Prop :=
  ∀ (s : State) (d : Domain) (t : Tile), s.At d t → ∀ (g : BitVec 4) (n : BitVec 10) (p : BitVec 3) (gen sense ovr : Bool),
    ∀ q ∈ ([(.mq g n p gen sense ovr, .me), (.gq g n p gen sense ovr, .gu), (.cq g n p gen sense ovr, .ce),
      (.hq g n p gen sense ovr, .ch)] : List (Instr × Engine)),
    let b := s.slotBits t n.toNat
    (∀ c det a, checkRecord s d t q.2 b ovr = .error (c, det, a) → Raises q.1 s 0 c det a) ∧
    (∀ v c det a, checkRecord s d t q.2 b ovr = .ok v → checkSpans s d t v.spans = some (c, det, a) →
      Raises q.1 s 0 c det a) ∧
    (kindEngine (b.toNat % 256) ≠ some q.2 ∨ recordClean b = false → Raises q.1 s 0 12 0 0) ∧
    (ovr = true → hasPatch (b.toNat % 256) = false → Raises q.1 s 0 12 0 0) ∧
    ∀ v, checkRecord s d t q.2 b ovr = .ok v → (∃ x ∈ v.spans, ∃ w, spanWindow x = some w ∧ t.bank? w = none) →
      Raises q.1 s 0 16 0 0

/-- R272-R274, R276: the pushes of the four engines, and their checks. -/
def Obligations.PushesPlaceTheirRecordOrRaise : Prop :=
  Claims.PushesPlaceTheirRecord ∧ Claims.PushChecksRaiseInOrder

/-- R93-R97: a give whose checks pass empties its window and shows the target's as pending; the target's semaphore gets one
increment with source tick t + 32 at its place in signal order, and the attach is due then. At the attach the window holds
the bank, and the increment, known by its event, arrives, and with it what SemaphoreSignals says of one. No byte of memory,
and no byte of the bank, changes. -/
def Sys2Proof.Claims.GiveMovesTheWindow : Prop :=
  (∀ (s : State) (d : Domain) (t u : Tile) (b : Nat), s.At d t → t.lt = s.cur.lt → ∀ (g : BitVec 4) (w x : BitVec 3) (i : BitVec 2) (k : BitVec 4),
    let dest := t.lt / 4 * 4 + i.toNat
    t.wins.getD w.toNat .empty = .att b → d.tile? dest = some u → t.wins.length = 8 → u.wins.length = 8 → (dest ≠ t.lt ∨ x ≠ w) →
    (∀ r ∈ t.recs, d.dtick < r.tick + d.lead → namesBank t.cluster b r = false) → d.winBusy dest x.toNat = false →
    Completes (exec (.give g w i x k) s) (fun s' => s'.mem = s.mem ∧ s'.clusters = s.clusters ∧ ∃ d' t', s'.At d' t' ∧
      t'.wins.getD w.toNat .empty = .empty ∧ t'.s = t.s ∧
      ∃ a u' id, d'.attaches = d.attaches ++ [a] ∧ a.due = d.dtick + 32 ∧ a.target = dest ∧ a.win = x.toNat ∧ a.bank = b ∧
        a.sem = k ∧ a.evs = [id] ∧ d'.tile? dest = some u' ∧ u'.wins.getD x.toNat .empty = .pend b ∧
        u'.sems = upd u.sems k.toNat (fun l => insertSem l ⟨d.dtick + 32, t.lt, .give, .add 1, false, false, id⟩))) ∧
  ∀ (s : State) (d : Domain) (a : Attach) (rest : List Attach) (u : Tile), s.dom? s.cur.dom = some d →
    d.attaches = a :: rest → d.tile? a.target = some u → a.win < u.wins.length →
    Completes (exec .giveAttach s) (fun s' => s'.mem = s.mem ∧ ∃ d' u', s'.dom? s.cur.dom = some d' ∧ d'.attaches = rest ∧
      d'.tile? a.target = some u' ∧ u'.wins = u.wins.set a.win (.att a.bank) ∧ u'.s = u.s ∧ d'.causes = d.causes ∧
      ∀ id, a.evs = [id] → u'.sems = upd u.sems a.sem.toNat (fun l =>
        l.map (fun o => if o.ev = id then { o with arrived := true } else o)))

/-- R94: the checks of a give, in order: a window with no bank attached raises the fatal detached-window fault; a give to its
own window the give fault 1; a record that names the bank pushed less than L_H ticks ago the give fault 2; an occupied
target window the give fault 3. -/
def Sys2Proof.Claims.GiveChecksRaise : Prop :=
  ∀ (s : State) (d : Domain) (t : Tile), s.At d t → ∀ (g : BitVec 4) (w x : BitVec 3) (i : BitVec 2) (k : BitVec 4),
    let dest := t.lt / 4 * 4 + i.toNat
    let own := dest = t.lt ∧ x = w
    let early (b : Nat) := ∃ r ∈ t.recs, d.dtick < r.tick + d.lead ∧ namesBank t.cluster b r = true
    ((∀ b, t.wins.getD w.toNat .empty ≠ .att b) → Raises (.give g w i x k) s 0 16 0 0) ∧
    ∀ b, t.wins.getD w.toNat .empty = .att b →
      (own → Raises (.give g w i x k) s 0 8 1 0) ∧
      (¬own → early b → Raises (.give g w i x k) s 0 8 2 0) ∧
      (¬own → ¬early b → d.winBusy dest x.toNat = true → Raises (.give g w i x k) s 0 8 3 0)

/-- R94-R97: a give, its attach and its checks. -/
def Obligations.GiveMovesTheWindowOrRaises : Prop :=
  Claims.GiveMovesTheWindow ∧ Claims.GiveChecksRaise

/-- R90, R92, R157, R159: BFMT sets the tag of the window's bank; a window with none attached raises the detached-window
fault; a record of the tile that names the bank and has not retired, or that is open and touches the bank's tag, raises the footprint fault 2 (assumption 36). No byte of memory changes. -/
def Obligations.BfmtSetsTheTag : Prop :=
  ∀ (s : State) (d : Domain) (t : Tile), s.At d t → ∀ (g : BitVec 4) (w : BitVec 3) (f : Fmt) (b : Blk) (p : Bool),
    ((∀ k, t.wins.getD w.toNat .empty ≠ .att k) → Raises (.bfmt g w f b p) s 0 16 0 0) ∧
    ∀ k, t.wins.getD w.toNat .empty = .att k →
      let busy := ∃ r ∈ t.recs, (r.live = true ∧ namesBank t.cluster k r = true) ∨
        (openFor d.vg d.dtick true r = true ∧ rangesMeet (r.reads ++ r.writes) [bankTag t.cluster k] = true)
      (busy → Raises (.bfmt g w f b p) s 0 18 2 0) ∧
      (¬busy → Completes (exec (.bfmt g w f b p) s) (fun s' => s'.mem = s.mem ∧ ∃ d', s'.At d' t ∧ d'.causes = d.causes ∧
        (s'.cluster t.cluster).tags = (s.cluster t.cluster).tags.set k ⟨f.toBits, b.toBits, p⟩ ∧
        (s'.cluster t.cluster).banks = (s.cluster t.cluster).banks ∧ ∀ c ≠ t.cluster, s'.cluster c = s.cluster c))

/-- R282, R283, R373: BMAP of a free bank, which no domain that waits for its recovery holds (05 R132; assumption 30), to an
empty window of an idle tile of the supervisor's die takes the bank, zero-fills it and its shadow image, makes its tag RAW
and shows the window pending; BFREE of an attached window starts the bank's leaving, and once that is done the window holds
nothing and the bank is to be cleared. A word means the window of the active slot's context, of the parked one when the active slot has none, and of the tile
itself without a context; the attach, the detach and the clearing of a returned bank follow as events; the clearing zeroes
the bank and leaves its shadow image, which a bind or a BMAP zeroes (assumption 95). Every other byte reads as before. -/
def Sys2Proof.Claims.SupervisorBankWords : Prop :=
  (∀ (s : State) (d : Domain) (t : Tile), s.At d t → ∀ (g b : BitVec 4) (i : BitVec 2) (w : BitVec 3) (a : SSpec),
    let cl := (t.sval a).toNat
    let active := s.activeSlot cl i.toNat
    cl < 192 → cl / 48 = dieOf t.cluster → s.tileIdle cl i.toNat = true →
    (s.bankFree cl b.toNat = true → s.physWin cl i.toNat w.toNat = .empty →
      Completes (exec (.bmap g b i w a) s) (fun s' =>
        (∀ x, s'.readByte x = if (locBank cl b.toNat 0 ≤ x ∧ x < locBank cl b.toNat 0 + 2 ^ 19) ∨
            (locShadow cl (b.toNat * 2 ^ 19) ≤ x ∧ x < locShadow cl (b.toNat * 2 ^ 19) + 2 ^ 19) then 0 else s.readByte x) ∧
        (s'.cluster cl).banks = (s.cluster cl).banks.set b.toNat .used ∧
        (s'.cluster cl).tags = (s.cluster cl).tags.set b.toNat ⟨0, 0, false⟩ ∧
        ((∀ v, s.contextOn cl i.toNat v = none) → s'.physWin cl i.toNat w.toNat = .pend b.toNat) ∧
        ∀ e u, (s.contextOn cl i.toNat active = some (e, u) ∨
            (s.contextOn cl i.toNat active = none ∧ s.contextOn cl i.toNat (!active) = some (e, u))) →
          s.dom? e.seq = some e → e.tile? u.lt = some u →
          ∃ e', s'.dom? e.seq = some e' ∧ e'.tile? u.lt = some { u with wins := u.wins.set w.toNat (.pend b.toNat) })) ∧
    (∀ k, s.physWin cl i.toNat w.toNat = .att k → exec (.bfree g i w a) s = .next (s.updCluster cl (fun c =>
      { c with banks := c.banks.set k .leaving })))) ∧
  ∀ (s : State) (b : Nat),
    (s.winAt s.cur.cluster s.cur.lt s.cur.item = .pend b →
      exec .bmapAttach s = .next (s.setWinAt s.cur.cluster s.cur.lt s.cur.item (.att b))) ∧
    (s.winAt s.cur.cluster s.cur.lt s.cur.item = .att b → Completes (exec .bfreeComplete s) (fun s' => s'.mem = s.mem ∧
      (s'.cluster s.cur.cluster).banks = (s.cluster s.cur.cluster).banks.set b .clearing ∧
      (16 ≤ s.cur.item → s'.winAt s.cur.cluster s.cur.lt s.cur.item = .empty) ∧
      ∀ e u, s.cur.item < 16 → s.contextOn s.cur.cluster s.cur.lt (s.cur.item / 8 == 1) = some (e, u) →
        s.dom? e.seq = some e → e.tile? u.lt = some u → ∃ e' u', s'.dom? e.seq = some e' ∧ e'.tile? u.lt = some u' ∧
        u'.wins = u.wins.set (s.cur.item % 8) .empty)) ∧
    Completes (exec .bankClearDone s) (fun s' =>
      (∀ x, s'.readByte x = if locBank s.cur.cluster s.cur.item 0 ≤ x ∧ x < locBank s.cur.cluster s.cur.item 0 + 2 ^ 19
        then 0 else s.readByte x) ∧
      (s'.cluster s.cur.cluster).banks = (s.cluster s.cur.cluster).banks.set s.cur.item .free)

/-- The supervisor fault of a word: SVERR takes the word's halfword offset and the detail (11 R271, 15 R388). -/
def Sys2Proof.Claims.svError (s : State) (t : Tile) (detail : Nat) : State :=
  s.updDie (dieOf t.cluster) (fun q => { q with sverr := BitVec.ofNat 64 (t.wordOfs .sq * 2 ^ 16 + detail) })

/-- R271, R282, R283, R288, R289: BMAP, BFREE, SEAL and SLOT of a cluster of another die take the supervisor fault 1; BMAP and
BFREE of a tile that runs, a window that does not suit, SEAL of a cluster without its quiesce acknowledged and SLOT of a tile
that runs, to either slot, the fault 2; SLOT B of a hosting cluster the fault 4. SVERR is all that changes. -/
def Sys2Proof.Claims.SupervisorFaults : Prop :=
  ∀ (s : State) (d : Domain) (t : Tile), s.At d t → ∀ (g b : BitVec 4) (i : BitVec 2) (w : BitVec 3) (a : SSpec) (v : Bool),
    let cl := (t.sval a).toNat
    let own := cl < 192 ∧ cl / 48 = dieOf t.cluster
    let idle := s.tileIdle cl i.toNat = true
    (¬own → ∀ q ∈ ([.bmap g b i w a, .bfree g i w a, .seal g a, .slotw g a i v] : List Instr),
      exec q s = .next (Claims.svError s t 1)) ∧
    (own → ¬idle → ∀ q ∈ ([.bmap g b i w a, .bfree g i w a, .slotw g a i false] : List Instr),
      exec q s = .next (Claims.svError s t 2)) ∧
    (own → ¬idle → s.hosting cl = false → exec (.slotw g a i true) s = .next (Claims.svError s t 2)) ∧
    (own → idle → s.bankFree cl b.toNat = false ∨ s.physWin cl i.toNat w.toNat ≠ .empty →
      exec (.bmap g b i w a) s = .next (Claims.svError s t 2)) ∧
    (own → idle → (∀ k, s.physWin cl i.toNat w.toNat ≠ .att k) → exec (.bfree g i w a) s = .next (Claims.svError s t 2)) ∧
    (own → (s.cluster cl).qack = false → exec (.seal g a) s = .next (Claims.svError s t 2)) ∧
    (own → s.hosting cl = true → exec (.slotw g a i true) s = .next (Claims.svError s t 4))

/-- R271, R282, R283, R288, R289, R373, R388: the supervisor's bank words and the faults of all its words. -/
def Obligations.SupervisorBankWordsAndFaults : Prop :=
  Claims.SupervisorBankWords ∧ Claims.SupervisorFaults

/-- R129, R130, R288, R289: SEAL of a cluster of the die whose quiesce is acknowledged seals it at once when no halted domain is
on it, or starts its seal. An active halted domain starts one domain-wide sealing epoch of every scope in each of its clusters,
a parked one an epoch of its own for each of its tiles, each with the halt tick as its resume tick, and SEALED stays down; an
epoch above 4,194,304 bytes is the supervisor fault 2. SLOT of an idle tile makes the named slot active and is without effect
when it is already; the halted context that was active parks: its state enters an epoch of scope T, of agent TILE, at the
halt tick (assumption 55), and its domain stays halted. No byte of memory changes. -/
def Obligations.SealAndSlotTakeEffect : Prop :=
  ∀ (s : State) (d : Domain) (t : Tile), s.At d t → ∀ (g : BitVec 4) (i : BitVec 2) (a : SSpec) (v : Bool),
    let cl := (t.sval a).toNat
    let here (e : Domain) : Bool := s.onCluster e cl && e.phase == .halted
    let fits (e : Domain) : Prop := ∀ n ∈ s.sealVolumes cl e, n ≤ 4194304
    let started (s' : State) (e : Domain) (c : Nat) (wide : Bool) (x : Epoch) : Prop := x ∈ (s'.cluster c).epochs ∧
      x.seq = e.seq ∧ x.domain = wide ∧ x.sealing = true ∧ x.scope = 15 ∧ x.halt = e.dtick
    cl < 192 → cl / 48 = dieOf t.cluster →
    ((s.cluster cl).qack = true →
      ((∀ e ∈ s.domains, here e = false) → Completes (exec (.seal g a) s) (fun s' => s'.mem = s.mem ∧ s'.domains = s.domains ∧
        ((s'.cluster cl).sealed = true ∨ (s'.cluster cl).sealReq = true))) ∧
      (∀ e ∈ s.domains, here e = true → ¬fits e → exec (.seal g a) s = .next (Claims.svError s t 2)) ∧
      ∀ e, s.domains.filter here = [e] → s.dom? e.seq = some e → fits e →
        Completes (exec (.seal g a) s) (fun s' => s'.mem = s.mem ∧
          (s.parkedOut e = false → (e.tiles ≠ [] → (s'.cluster cl).sealed = false ∧ (s'.cluster cl).sealReq = true) ∧
            ∀ c ∈ e.clusterList, ∃ x, started s' e c true x ∧ (s'.cluster c).epochs = (s.cluster c).epochs ++ [x] ∧
              x.parts.map (fun p => p.lt) = (e.tiles.filter (fun u => u.cluster == c)).map (fun u => u.lt)) ∧
          (s.parkedOut e = true → ∀ u ∈ e.tiles, e.tile? u.lt = some u → u.cluster = cl →
            (s'.cluster cl).sealed = false ∧ (s'.cluster cl).sealReq = true ∧
            ∃ x, started s' e cl false x ∧ x.parts.map (fun p => p.lt) = [u.lt]))) ∧
    (s.tileIdle cl i.toNat = true → (v = true → s.hosting cl = false) →
      ((s.cluster cl).activeB.getD i.toNat false = v → exec (.slotw g a i v) s = .next s) ∧
      ((s.cluster cl).activeB.length = 4 → s.contextOn cl i.toNat (s.activeSlot cl i.toNat) = none →
        Completes (exec (.slotw g a i v) s) (fun s' => s'.mem = s.mem ∧ s'.domains = s.domains ∧
          (s'.cluster cl).activeB.getD i.toNat false = v)) ∧
      ∀ e u, (s.cluster cl).activeB.length = 4 → (s.cluster cl).activeB.getD i.toNat false ≠ v →
        s.contextOn cl i.toNat (s.activeSlot cl i.toNat) = some (e, u) → s.dom? e.seq = some e → e.tile? u.lt = some u →
        Completes (exec (.slotw g a i v) s) (fun s' => s'.mem = s.mem ∧ (s'.cluster cl).activeB.getD i.toNat false = v ∧
          (∃ e', s'.dom? e.seq = some e' ∧ e'.phase = .halted ∧ e'.dtick = e.dtick ∧ e'.causes = e.causes) ∧
          ∃ x p, (s'.cluster cl).epochs = (s.cluster cl).epochs ++ [x] ∧ x.seq = e.seq ∧ x.domain = false ∧ x.sealing = false ∧
            x.scope.getLsbD 3 = true ∧ x.halt = e.dtick ∧ x.parts = [p] ∧ p.tile = u.idx ∧ p.slot = u.slot ∧ p.lt = u.lt ∧
            p.ctrl.isSome = true ∧ p.epoch = u.epoch + 1))

/-- A domain that goes on from its halt tick: its causes are gone, every register and queue stands, and each result under way
is due at its remaining latency, a trapped one raising its flags no more (15 R383). -/
def Sys2Proof.Claims.resumed (e : Domain) : Domain :=
  { e with
    phase := .running
    resume := true
    parked := false
    haltAt := none
    causes := []
    chief := none
    hist := []
    released := false
    begun := 0
    tiles := e.tiles.map (fun x => { x with
    faddr := 0
    flights := x.flights.map (fun f => { f with
      due := max f.due e.dtick
      cause := 0
      raised := if f.cause = 0 then f.raised else [] }) }) }

/-- R209, R271, R383, R389: RTE resumes the halted domain of SVSEL's tile when it ended by no fatal fault, holds every
context, owes no latch, and is not quiesced (assumption 31): it runs from its halt tick with its causes gone, every register
and queue as it stood, and each result under way due at its remaining latency, a trapped one raising its flags no more. A tile
that stands in a failed block has it read and validated again: sound, it stands in that block at the tick it has reached
there, its LEAP not taken; failing again, it raises the block-validation fault, its code in the detail's low bits (assumption
50), or the fault of its fetch, at the halt tick. With no such domain the supervisor fault is 2, with a latch owed 3; nothing
but SVERR then changes. No byte of memory changes, but for the A bits of the pages that such a block is read from. -/
def Obligations.ReturnFromException : Prop :=
  ∀ (s : State) (d : Domain) (t : Tile), s.At d t → ∀ (g : BitVec 4),
    (s.frameOf (dieOf t.cluster) = none → exec (.rte g) s = .next (Claims.svError s t 2)) ∧
    ∀ e u, s.frameOf (dieOf t.cluster) = some (e, u) →
      let held := s.contextsHeld e = true ∧ s.quiesced e = false
      let owed := ∃ x ∈ e.tiles, ∃ f ∈ x.flights, f.owed = true
      let up : Domain := Claims.resumed e
      (e.fatal = true ∨ ¬held → exec (.rte g) s = .next (Claims.svError s t 2)) ∧
      (e.fatal = false → held → owed → exec (.rte g) s = .next (Claims.svError s t 3)) ∧
      (e.fatal = false → held → ¬owed → s.dom? e.seq = some e →
        ((∀ x ∈ e.tiles, x.badBlock = false) → Completes (exec (.rte g) s) (fun s' => s'.mem = s.mem ∧ s'.clusters = s.clusters ∧
          s'.dom? e.seq = some up)) ∧
        ∀ x y, e.tiles.filter (fun x => x.badBlock) = [x] → up.tile? x.lt = some y → y.badBlock = true →
          let got := fetchBlock (s.updDom e.seq (fun _ => up)) up y y.block.addr
          (∀ b, got = .ok b → worst (validate up y b y.start) = none → e.dtick ≤ y.start + b.len →
            Completes (exec (.rte g) s) (fun s' => ∃ e' y', s'.dom? e.seq = some e' ∧ e'.phase = .running ∧ e'.causes = [] ∧
              e'.tile? x.lt = some y' ∧ y'.badBlock = false ∧ y'.block = b ∧ y'.start = y.start ∧ y'.rep = y.rep ∧
              y'.btick = e.dtick - y.start ∧ y'.decision = none ∧ y'.s = y.s ∧ y'.v = y.v ∧ y'.flights = y.flights)) ∧
          (∀ b c col o, got = .ok b → worst (validate up y b y.start) = some (c, col, o) →
            Completes (exec (.rte g) s) (fun s' => ∃ e' y' n, s'.dom? e.seq = some e' ∧ e'.tile? x.lt = some y' ∧
              y'.badBlock = true ∧ e'.causes = [⟨e.dtick, x.lt, 0, 11, n⟩] ∧ n % 16 = c % 16)) ∧
          ∀ w fa, got = .error (w, fa) → Completes (exec (.rte g) s) (fun s' => ∃ e' y', s'.dom? e.seq = some e' ∧
            e'.tile? x.lt = some y' ∧ y'.badBlock = true ∧ e'.causes = [⟨e.dtick, x.lt, 0, fetchCode up w.code, 0⟩]))

/-- The CSRs that read as a register or count of the tile, its domain or the launch (11 R285); FTRAPEN in a supervisor
launch as that of the tile it handles, where one stands halted (assumption 86). -/
def Sys2Proof.Claims.csrRows (s : State) (d : Domain) (t : Tile) : List (BitVec 12 × W64) :=
  let n (x : Nat) : W64 := BitVec.ofNat 64 x
  let q := s.die (dieOf t.cluster)
  let hand : Tile := if d.sup then ((s.frameOf (dieOf t.cluster)).map (fun x => x.2)).getD t else t
  [ (0x000, n t.lt), (0x001, n d.dtick), (0x003, t.block.addr), (0x004, n t.flags.toNat), (0x005, n hand.trapen.toNat),
    (0x006, n t.rmdyn.toNat), (0x007, t.laneflg), (0x020, n (if 4 ≤ field d.pkt 1 1 then 64 else 24)),
    (0x021, n (field d.pkt 8 4)), (0x022, n (field d.pkt 12 4)), (0x023, n d.holdcnt), (0x024, n t.confl.toNat),
    (0x025, n ((t.rdv.getD 0 0).toNat + (t.rdv.getD 1 0).toNat * 2 ^ 16 + (t.rdv.getD 2 0).toNat * 2 ^ 32 +
      (t.rdv.getD 3 0).toNat * 2 ^ 48)),
    (0x027, n (t.epoch.toNat + t.depoch.toNat * 2 ^ 32)), (0x030, n (t.pace.getD 0 0).toNat),
    (0x031, n (t.pace.getD 1 0).toNat), (0x032, n (t.pace.getD 2 0).toNat), (0x040, t.sampctl),
    (0x041, n (t.sampHead.toNat + t.sampDrops.toNat * 2 ^ 32)), (0x060, n (field d.pkt 16 8)), (0x070, q.svsel),
    (0x076, q.sverr), (0x077, q.mctidx), (0x079, q.mrsel) ]

/-- R157, R278, R284, R285: CSRR gives the CSR's value at the issue tick, two ticks later, and changes nothing else; a read that
the footprint rules forbid, of a tag that an open record sets (detail 2), of a semaphore with an open signal or of RDV with a marker not waited for (detail 6),
raises the footprint fault, its result suppressed; a read of SVHALT takes out the oldest notice of
the die. -/
def Sys2Proof.Claims.CsrReads : Prop :=
  ∀ (s : State) (d : Domain) (t : Tile), s.At d t → t.lt = s.cur.lt → ∀ (g : BitVec 4) (dst : Dst) (c : BitVec 12),
    let result (x : W64) : Flight := scalarFlight t d.dtick 2 .sq (dstDest dst) x
    (∀ q ∈ Claims.csrRows s d t, csrRaces d t q.1 = none → Yields (.csrr g dst q.1) s t (result q.2)) ∧
    (c ≠ 0x075 → c ≠ 0x07A → csrRaces d t c = none → Yields (.csrr g dst c) s t (result (csrValue s d t c))) ∧
    (∀ x, csrRaces d t c = some x → Completes (exec (.csrr g dst c) s) (fun s' => s'.mem = s.mem ∧ ∃ d' t', s'.At d' t' ∧
      d'.causes = d.causes ++ [⟨d.dtick, s.cur.lt, 0, 18, x⟩] ∧ t'.s = t.s ∧ t'.sqQ = t.sqQ ∧
      { result (csrValue s d t c) with cause := 18 } ∈ t'.flights)) ∧
    (csrRaces d t c = some 2 ↔ (∃ w < 8, c.toNat = 0x28 + w ∧ ∃ b, t.bank? w = some b ∧
      ∃ r ∈ t.recs, openFor d.vg d.dtick true r = true ∧ rangesMeet r.writes [bankTag t.cluster b] = true)) ∧
    (csrRaces d t c = some 6 ↔ ((∃ k : BitVec 4, c.toNat = 0x10 + k.toNat ∧ ∃ r ∈ t.recs, r.sen = true ∧ r.ssem = k ∧ openFor d.vg d.dtick true r = true) ∨
      (c = 0x025 ∧ d.markersWaited t.lt = false))) ∧
    (∀ x xs, s.dies.length = 4 → dieOf t.cluster < 4 → (s.die (dieOf t.cluster)).svhalt = x :: xs →
      Completes (exec (.csrr g dst 0x075) s) (fun s' => s'.mem = s.mem ∧ (s'.die (dieOf t.cluster)).svhalt = xs ∧
        ∃ d', s'.At d' (t.send (result x))))

/-- R11, R181, R187, R279, R284, R286, R287: CSRW, CSRS and CSRC write, OR into and clear the fields that a program may write,
at once; read-only registers keep their value; a semaphore's write takes its place in signal order; SVSEL takes a tile of its own
die only; FTRAPEN in a supervisor launch is that of the tile it handles (assumption 86). No byte of memory changes. -/
def Sys2Proof.Claims.CsrWrites : Prop :=
  ∀ (s : State) (d : Domain) (t : Tile), s.At d t → t.lt = s.cur.lt → t.pace.length = 3 → t.sems.length = 16 →
    ∀ (g k : BitVec 4) (a : SSpec),
    let x := t.sval a
    let pick (w : Nat) (old : BitVec w) : List ((BitVec 12 → Instr) × BitVec w) :=
      [ (fun c => .csrw g a c, x.setWidth w), (fun c => .csrs g a c, old ||| x.setWidth w),
        (fun c => .csrc g a c, old &&& ~~~(x.setWidth w)) ]
    (∀ q ∈ pick 9 t.flags, exec (q.1 0x004) s = .next (s.put { t with flags := q.2 })) ∧
    (d.sup = false ∨ s.frameOf (dieOf t.cluster) = none →
      ∀ q ∈ pick 9 t.trapen, exec (q.1 0x005) s = .next (s.put { t with trapen := q.2 })) ∧
    (∀ e u, d.sup = true → s.frameOf (dieOf t.cluster) = some (e, u) → ∀ q ∈ pick 9 u.trapen,
      exec (q.1 0x005) s = .next (s.updTile e.seq u.lt (fun y => { y with trapen := q.2 }))) ∧
    (∀ q ∈ pick 3 t.rmdyn, exec (q.1 0x006) s = .next (s.put { t with rmdyn := if q.2.toNat < 5 then q.2 else t.rmdyn })) ∧
    (∀ q ∈ pick 32 t.confl, exec (q.1 0x024) s = .next (s.put { t with confl := q.2 })) ∧
    (∀ n < 3, ∀ q ∈ pick 8 (t.pace.getD n 0), exec (q.1 (BitVec.ofNat 12 (0x030 + n))) s =
      .next (s.put { t with pace := t.pace.set n q.2 })) ∧
    (∀ q ∈ pick 64 t.sampctl, exec (q.1 0x040) s = .next (s.put { t with sampctl := q.2 &&& 0x1000FFFFF })) ∧
    (∀ c ∈ ([0x000, 0x001, 0x002, 0x003, 0x007, 0x020, 0x021, 0x022, 0x023, 0x025, 0x026, 0x027, 0x028, 0x02F, 0x041] :
      List (BitVec 12)), ∀ q ∈ pick 64 0, exec (q.1 c) s = .next (s.put t)) ∧
    (∀ q ∈ ([(.csrw g a (BitVec.ofNat 12 (0x10 + k.toNat)), .set (x.setWidth 16)),
        (.csrs g a (BitVec.ofNat 12 (0x10 + k.toNat)), .or (x.setWidth 16)),
        (.csrc g a (BitVec.ofNat 12 (0x10 + k.toNat)), .clear (x.setWidth 16))] : List (Instr × SemAct)),
      Completes (exec q.1 s) (fun s' => s'.mem = s.mem ∧ ∃ d' l, s'.At d' { t with sems := t.sems.set k.toNat l } ∧
        l = insertSem (t.sems.getD k.toNat []) ⟨d.dtick, t.lt, .csr, q.2, true, false, d.nextId⟩)) ∧
    exec (.csrw g a 0x070) s = .next (if dieOf (x.toNat % 1024 / 4) = dieOf t.cluster
      then s.updDie (dieOf t.cluster) (fun q => { q with svsel := BitVec.ofNat 64 (x.toNat % 1024) }) else s)

/-- R11, R181, R187, R278, R279, R284-R287: the reads and the writes of CSRs. -/
def Obligations.CsrReadsAndWrites : Prop :=
  Claims.CsrReads ∧ Claims.CsrWrites

/-- R290, R420: SAMPLE with sampling off does nothing; with it on, and a periodic sample when due, it counts one record
written, or, the ring full, one dropped (assumption 20). No register and no queue changes. -/
def Obligations.SamplesAreCounted : Prop :=
  ∀ (s : State) (d : Domain) (t : Tile), s.At d t → t.lt = s.cur.lt → ∀ (g : BitVec 4) (i : BitVec 8),
    let full := (s.part d.part).srsize.toNat ≤ (s.part d.part).srcount
    let u : Tile := if full then { t with sampDrops := t.sampDrops + 1 } else { t with sampHead := t.sampHead + 1 }
    (t.sampctl.getLsbD 32 = false → exec (.sample g i) s = .next s) ∧
    (t.sampctl.getLsbD 32 = true → Completes (exec (.sample g i) s) (fun s' => (full → s'.mem = s.mem) ∧
      ∃ d', s'.At d' u ∧ d'.causes = d.causes)) ∧
    Completes (exec .periodicSample s) (fun s' => (full → s'.mem = s.mem) ∧ ∃ d', s'.At d' u ∧ d'.causes = d.causes)

/-- The little-endian number of n bytes at a location (00 R10). -/
def Sys2Proof.Claims.number (s : State) (loc n : Nat) : Nat :=
  ((List.range n).map (fun k => (s.readByte (loc + k)).toNat * 256 ^ k)).sum

/-- The bytes from a location on are those of a number, and every byte outside them reads as before. -/
def Sys2Proof.Claims.Stored (s s' : State) (loc n : Nat) (x : Nat) : Prop :=
  (∀ k < n, (s'.readByte (loc + k)).toNat = x / 256 ^ k % 256) ∧ ∀ a, a < loc ∨ loc + n ≤ a → s'.readByte a = s.readByte a

/-- The address of an access of unit u (13 R325), and where its byte stands when its window has a bank attached. -/
def Sys2Proof.Claims.bankPlace (t : Tile) (a : W64) (b : Nat) : Nat := locBank t.cluster b (a.toNat % 2 ^ 19)

/-- The access is legal: below 4 MiB, aligned to its size, its window attached to bank b (02 R52, R60, 13 R325). -/
def Sys2Proof.Claims.bankLegal (t : Tile) (a : W64) (n b : Nat) : Prop :=
  a.toNat < 2 ^ 22 ∧ a.toNat % n = 0 ∧ t.wins.getD (a.toNat / 2 ^ 19) .empty = .att b

/-- No open record of the tile, and no spill share, meets the bytes: an access of them raises no footprint fault 2 (06 R157,
09 R216). -/
def Sys2Proof.Claims.Quiet (s : State) (d : Domain) (t : Tile) (rs : List (Nat × Nat)) : Prop :=
  (∀ x ∈ shareRanges s d, rangesMeet rs [x.2] = false) ∧
    ∀ u ∈ d.tiles, u.lt = t.lt → ∀ r ∈ u.recs, openFor d.vg d.dtick true r = true →
      ∀ x ∈ d.recEvs r, rangesMeet (x.reads ++ x.writes) rs = false

/-- R323, R325, R328: LDS.V, LDS.W32 and LDS.W64 read their bytes at the issue tick, little-endian, and deliver them six
ticks later, 32 lanes into the LS queue or a number, zero-extended, into the SQ queue. Every byte reads as before, and every
other part of the tile stands. -/
def Sys2Proof.Claims.BankLoadsDeliver : Prop :=
  ∀ (s : State) (d : Domain) (t : Tile), s.At d t → ∀ (g c : BitVec 4) (b : SSpec) (o : BitVec 5) (k : Nat),
    let at_ (u : Nat) : W64 := t.sval b + BitVec.ofNat 64 (u * o.toNat)
    let loc (u : Nat) : Nat := Claims.bankPlace t (at_ u) k
    let good (u : Nat) : Prop := Claims.bankLegal t (at_ u) u k ∧ s.sound [(loc u, u)] = true ∧ Claims.Quiet s d t [(loc u, u)]
    let lanes : Lanes := (List.range 32).map (fun i => BitVec.ofNat 32 (Claims.number s (loc 128 + 4 * i) 4))
    let gives (i : Instr) (f : Flight) : Prop := Completes (exec i s) (fun s' => s'.mem = s.mem ∧ s'.clusters = s.clusters ∧
      ∃ d', s'.At d' (t.send f) ∧ d'.causes = d.causes)
    (good 128 → gives (.ldsV g c b o) (vectorFlight t d.dtick 6 .ls .ls lanes [])) ∧
    (good 4 → gives (.ldsW32 g c b o) (scalarFlight t d.dtick 6 .ls (.sq none) (BitVec.ofNat 64 (Claims.number s (loc 4) 4)))) ∧
    (good 8 → gives (.ldsW64 g c b o) (scalarFlight t d.dtick 6 .ls (.sq none) (BitVec.ofNat 64 (Claims.number s (loc 8) 8))))

/-- R323, R328, R109: STS.V, STS.W32 and STS.W64 write the data they read at the issue tick, little-endian, at once: the
bytes of the access hold it, every other byte reads as before, the lines they touch are dirty, and the tile stands. -/
def Sys2Proof.Claims.BankStoresWrite : Prop :=
  ∀ (s : State) (d : Domain) (t : Tile), s.At d t → s.memOk → ∀ (g c : BitVec 4) (v : VSpec) (x b : SSpec) (o : BitVec 5) (k : Nat),
    let at_ (u : Nat) : W64 := t.sval b + BitVec.ofNat 64 (u * o.toNat)
    let loc (u : Nat) : Nat := Claims.bankPlace t (at_ u) k
    let good (u : Nat) : Prop := Claims.bankLegal t (at_ u) u k ∧ s.mergeSound (loc u, u) = true ∧ Claims.Quiet s d t [(loc u, u)]
    let writes (i : Instr) (u : Nat) (y : Nat) : Prop := Completes (exec i s) (fun s' => Claims.Stored s s' (loc u) u y ∧
      (∀ j < u, (loc u + j) / 256 * 256 ∈ (s'.cluster t.cluster).dirty) ∧
      ∃ d', s'.At d' t ∧ d'.causes = d.causes)
    (good 128 → (t.vval v).length = 32 → writes (.stsV g c v b o) 128
      (((List.range 32).map (fun i => ((t.vval v).getD i 0).toNat * 2 ^ (32 * i))).sum)) ∧
    (good 4 → writes (.stsW32 g c x b o) 4 (t.sval x).toNat) ∧
    (good 8 → writes (.stsW64 g c x b o) 8 (t.sval x).toNat)

/-- R109, R323, R325, R328: the plain bank loads and stores. -/
def Obligations.BankLoadsAndStores : Prop :=
  Claims.BankLoadsDeliver ∧ Claims.BankStoresWrite

/-- The formats of one element a lane and their bytes (13 R329): FP32, BF16, FP16, E4M3, E5M2, INT8, UINT8, INT32. -/
def Sys2Proof.Claims.forms : List (Nat × Nat) := [(1, 4), (3, 2), (4, 2), (5, 1), (6, 1), (7, 1), (8, 1), (9, 4)]

/-- A tag of a format with one element a lane: SPL 0, and a block only where the format takes its elements alone (13 R329). -/
def Sys2Proof.Claims.Tagged (g : Tag) (f : Nat) : Prop :=
  g.fmt.toNat = f ∧ g.spl = false ∧ (g.blk = 0 ∨ f = 5 ∨ f = 6)

/-- A tag with no form of LDS.D and LDG.D, or of STS.E: SPL set, a block that its format does not take alone, RAW, FP64 and
the codes from 11 on, and TERN5 for a store (13 R329). -/
def Sys2Proof.Claims.formless (g : Tag) (store : Bool) : Prop :=
  g.spl = true ∨ (g.blk ≠ 0 ∧ g.fmt.toNat ≠ 5 ∧ g.fmt.toNat ≠ 6) ∨ g.fmt.toNat = 0 ∨ g.fmt.toNat = 2 ∨ 11 ≤ g.fmt.toNat ∨
    (store = true ∧ g.fmt.toNat = 10)

/-- The latch of an LS result that a fault suppresses: owed where the fault is recoverable, lanes and value zero (15 R381,
R384). -/
def Sys2Proof.Claims.lost (t : Tile) (now lat : Nat) (dest : Dest) (code : Nat) : Flight :=
  { scalarFlight t now lat .ls dest 0 with
    lanes := match dest with
      | .ls => List.replicate 32 0
      | _ => []
    cause := code
    owed := !(decide (16 ≤ code) && decide (code < 32)) }

/-- R52, R60, R327-R334: a bank access at or above 4 MiB raises the address fault, a misaligned one the alignment fault, each
with its address; one through an unattached window the fatal detached-window fault. LDS.D, LDS.G and STS.E of a bank whose tag
has no form for them raise the format fault, LDS.D and STS.E whose offset leaves the window of their base the address fault.
A store writes nothing; a load and an AMOS leave their result suppressed in its latch, owed where the fault is recoverable. -/
def Sys2Proof.Claims.BankAccessFaults : Prop :=
  ∀ (s : State) (d : Domain) (t : Tile), s.At d t → ∀ (g c i : BitVec 4) (v : VSpec) (x b : SSpec) (o : BitVec 5) (ao : Aop),
    let base := t.sval b
    let at_ (u : Nat) : W64 := base + BitVec.ofNat 64 (u * o.toNat)
    let high (a : W64) : Prop := 2 ^ 22 ≤ a.toNat
    let none_ (a : W64) : Prop := ∀ k, t.wins.getD (a.toNat / 2 ^ 19) .empty ≠ .att k
    let loses (q : Instr) (lat : Nat) (dest : Dest) (code : Nat) (a : W64) : Prop :=
      exec q s = .next ((s.put (t.send (Claims.lost t d.dtick lat dest code))).raise 3 code 0 a)
    let size : Nat := if ao = .fadd32 ∨ ao = .fmax32 then 4 else 8
    (∀ q ∈ ([(.stsV g c v b o, 128), (.stsW32 g c x b o, 4), (.stsW64 g c x b o, 8)] : List (Instr × Nat)),
      let a := at_ q.2
      (high a → Raises q.1 s 3 3 0 a) ∧ (¬high a → a.toNat % q.2 ≠ 0 → Raises q.1 s 3 4 0 a) ∧
      (¬high a → a.toNat % q.2 = 0 → none_ a → Raises q.1 s 3 16 0 a)) ∧
    (∀ q ∈ ([(.ldsV g c b o, 128, .ls, 6, at_ 128), (.ldsW32 g c b o, 4, .sq none, 6, at_ 4), (.ldsW64 g c b o, 8, .sq none, 6, at_ 8),
        (.amos g c x b ao, size, .sq none, 10, base)] : List (Instr × Nat × Dest × Nat × W64)),
      let a := q.2.2.2.2
      (high a → loses q.1 q.2.2.2.1 q.2.2.1 3 a) ∧
      (¬high a → a.toNat % q.2.1 ≠ 0 → loses q.1 q.2.2.2.1 q.2.2.1 4 a) ∧
      (¬high a → a.toNat % q.2.1 = 0 → none_ a → loses q.1 q.2.2.2.1 q.2.2.1 16 a)) ∧
    (high base → (∀ q ∈ ([.stsE g c v b o, .stsS g c v b i] : List Instr), Raises q s 3 3 0 base) ∧
      ∀ q ∈ ([.ldsD g c b o, .ldsG g c v b] : List Instr), loses q 7 .ls 3 base) ∧
    (¬high base → none_ base → (∀ q ∈ ([.stsE g c v b o, .stsS g c v b i] : List Instr), Raises q s 3 16 0 base) ∧
      ∀ q ∈ ([.ldsD g c b o, .ldsG g c v b] : List Instr), loses q 7 .ls 16 base) ∧
    ∀ k, ¬high base → t.wins.getD (base.toNat / 2 ^ 19) .empty = .att k →
      let tag := (s.cluster t.cluster).tags.getD k ⟨0, 0, false⟩
      let fails (q : Instr) (u : Tile) (code : Nat) (a : W64) : Prop := t.lt = s.cur.lt → Claims.Quiet s d t [bankTag t.cluster k] →
        Completes (exec q s) (fun s' => s'.mem = s.mem ∧ ∃ d' t', s'.At d' t' ∧ { t' with faddr := t.faddr } = u ∧
          d'.causes = d.causes ++ [⟨d.dtick, t.lt, 3, code, 0⟩] ∧ (d.causes = [] → code < 8 → t'.faddr = a))
      let latch (n : Nat) : Tile := t.send (Claims.lost t d.dtick 7 .ls n)
      (base.toNat % 4 ≠ 0 → Raises (.stsS g c v b i) s 3 4 0 base) ∧
      (Claims.formless tag false → fails (.ldsD g c b o) (latch 5) 5 base) ∧
      (Claims.formless tag true → fails (.stsE g c v b o) t 5 base) ∧
      (tag.fmt ≠ 0 ∧ (Claims.formless tag true) ∨ tag.spl = true ∨ tag.blk ≠ 0 ∧ tag.fmt = 0 → fails (.ldsG g c v b) (latch 5) 5 base) ∧
      (∀ q ∈ (0, 4) :: Claims.forms, Claims.Tagged tag q.1 → base.toNat % q.2 ≠ 0 → fails (.ldsG g c v b) (latch 4) 4 base) ∧
      (∀ q ∈ Claims.forms, Claims.Tagged tag q.1 → let a := at_ (32 * q.2);
        (a.toNat / 2 ^ 19 ≠ base.toNat / 2 ^ 19 → fails (.ldsD g c b o) (latch 3) 3 a ∧ fails (.stsE g c v b o) t 3 a) ∧
        (a.toNat / 2 ^ 19 = base.toNat / 2 ^ 19 → a.toNat % (32 * q.2) ≠ 0 →
          fails (.ldsD g c b o) (latch 4) 4 a ∧ fails (.stsE g c v b o) t 4 a)) ∧
      (Claims.Tagged tag 10 → let a := at_ 8;
        (a.toNat / 2 ^ 19 ≠ base.toNat / 2 ^ 19 → fails (.ldsD g c b o) (latch 3) 3 a) ∧
        (a.toNat / 2 ^ 19 = base.toNat / 2 ^ 19 → a.toNat % 8 ≠ 0 → fails (.ldsD g c b o) (latch 4) 4 a))

/-- One element of a format as a lane (08 R186). -/
def Sys2Proof.Claims.element (f x : Nat) : W32 :=
  match f with
  | 3 => BitVec.ofNat 32 (x * 2 ^ 16)
  | 4 => BitVec.ofNat 32 (fp16ToFp32 x).1
  | 5 => BitVec.ofNat 32 (e4m3ToFp32 x)
  | 6 => BitVec.ofNat 32 (e5m2ToFp32 x)
  | 7 => BitVec.ofInt 32 (if x < 128 then (x : Int) else x - 256)
  | _ => BitVec.ofNat 32 x

/-- One lane as an element of a format, with its flags (13 R331). -/
def Sys2Proof.Claims.toElement (f : Nat) (x : W32) : Nat × Flg :=
  match f with
  | 3 => bf16F.convert fp32F .rne x.toNat
  | 4 => fp16F.convert fp32F .rne x.toNat
  | 5 => fp32ToFp8 false true x.toNat
  | 6 => fp32ToFp8 true true x.toNat
  | 7 => (((max (-128) (min 127 x.toInt)) % 256).toNat, 0)
  | 8 => ((max 0 (min 255 x.toInt)).toNat, 0)
  | _ => (x.toNat, 0)

/-- R329-R331, R178: by its bank's tag LDS.D decodes 32 elements into the LS queue seven ticks later, TERN5 by trits with
IWT for a byte of 243 or more, and STS.E encodes the lanes at once, its flags entering FLAGS; when one of them is enabled in
FTRAPEN the store performs all the same, and the floating-point trap follows at the same tick, LANEFLG naming the enabled
flags and lane 0 (R327, R190, R191). A load changes no byte; a store only those of its access. -/
def Obligations.TaggedAccessesConvert : Prop :=
  ∀ (s : State) (d : Domain) (t : Tile), s.At d t → s.memOk → t.lt = s.cur.lt → ∀ (g c : BitVec 4) (v : VSpec) (b : SSpec) (o : BitVec 5) (k : Nat),
    let base := t.sval b
    let at_ (u : Nat) : W64 := base + BitVec.ofNat 64 (u * o.toNat)
    let loc (u : Nat) : Nat := Claims.bankPlace t (at_ u) k
    let tag := (s.cluster t.cluster).tags.getD k ⟨0, 0, false⟩
    let good (u : Nat) : Prop := base.toNat < 2 ^ 22 ∧ t.wins.getD (base.toNat / 2 ^ 19) .empty = .att k ∧
      (at_ u).toNat / 2 ^ 19 = base.toNat / 2 ^ 19 ∧ (at_ u).toNat % u = 0
    let byte (i : Nat) : Nat := (s.readByte (loc 8 + i)).toNat
    let trits : Lanes := (List.range 32).map (fun i =>
      BitVec.ofInt 32 (if 243 ≤ byte (i / 5) then 0 else (byte (i / 5) / 3 ^ (i % 5) % 3 : Nat) - 1))
    let odd : Prop := ∃ i < 7, 243 ≤ byte i
    (∀ q ∈ Claims.forms, Claims.Tagged tag q.1 → good (32 * q.2) →
      let bytes := [(loc (32 * q.2), 32 * q.2), bankTag t.cluster k]
      (s.sound [(loc (32 * q.2), 32 * q.2)] = true → Claims.Quiet s d t bytes → Completes (exec (.ldsD g c b o) s) (fun s' => s'.mem = s.mem ∧
        ∃ d', s'.At d' (t.send (vectorFlight t d.dtick 7 .ls .ls ((List.range 32).map (fun i =>
          Claims.element q.1 (Claims.number s (loc (32 * q.2) + q.2 * i) q.2))) [])))) ∧
      let es := (t.vval v).map (Claims.toElement q.1)
      let raised := orFlags (es.map (fun e => e.2))
      let trap := t.trapen &&& raised
      (s.mergeSound (loc (32 * q.2), 32 * q.2) = true → Claims.Quiet s d t bytes → es.length = 32 →
        Completes (exec (.stsE g c v b o) s) (fun s' =>
          Claims.Stored s s' (loc (32 * q.2)) (32 * q.2)
            (((List.range 32).map (fun i => (es.getD i (0, 0)).1 % 256 ^ q.2 * 256 ^ (q.2 * i))).sum) ∧
          ∃ d' t', s'.At d' t' ∧ { t' with laneflg := t.laneflg } = { t with flags := t.flags ||| raised } ∧
            (trap = 0 → t'.laneflg = t.laneflg ∧ d'.causes = d.causes) ∧
            (trap ≠ 0 → t'.laneflg = BitVec.ofNat 64 (trap.toNat * 2 ^ 32 + 1) ∧ d'.causes = d.causes ++ [⟨d.dtick, t.lt, 3, 2, 0⟩])))) ∧
    (Claims.Tagged tag 10 → good 8 → s.sound [(loc 8, 8)] = true → Claims.Quiet s d t [(loc 8, 8), bankTag t.cluster k] →
      Completes (exec (.ldsD g c b o) s) (fun s' =>
      s'.mem = s.mem ∧ ∃ d' fl, s'.At d' (t.send (vectorFlight t d.dtick 7 .ls .ls trits fl)) ∧
        (odd → fl = [fIWT]) ∧ (¬odd → fl = [])))

/-- R105, R106, R332, R333: LDS.G reads one element a lane at the offset its index names, wrapping in the bank; STS.S writes
one word a lane, in ascending lane order, so that the last lane naming an offset stands there; each counts its sub-bank
conflicts. A gather changes no byte, a scatter only the words it names. -/
def Obligations.GatherAndScatter : Prop :=
  ∀ (s : State) (d : Domain) (t : Tile), s.At d t → s.memOk → ∀ (g c i : BitVec 4) (v : VSpec) (b : SSpec) (k : Nat),
    let base := (t.sval b).toNat
    let start := base % 2 ^ 19
    let tag := (s.cluster t.cluster).tags.getD k ⟨0, 0, false⟩
    let off (n x : Nat) : Nat := (start + n * x) % 2 ^ 19
    let good (n : Nat) : Prop := base < 2 ^ 22 ∧ t.wins.getD (base / 2 ^ 19) .empty = .att k ∧ start % n = 0
    let lines (l : List Nat) : Nat := (l.map (· / 2 ^ 7)).eraseDups.length - (l.map (· / 2 ^ 15)).eraseDups.length
    let counted (l : List Nat) : Tile := { t with confl := BitVec.ofNat 32 (min (2 ^ 32 - 1) (t.confl.toNat + lines l)) }
    s.flawed = [] →
    (∀ q ∈ (0, 4) :: Claims.forms, Claims.Tagged tag q.1 → good q.2 →
      let ofs := (t.vval v).map (fun x => off q.2 x.toNat)
      Claims.Quiet s d t (bankTag t.cluster k :: ofs.map (fun a => (locBank t.cluster k a, q.2))) →
      Completes (exec (.ldsG g c v b) s) (fun s' => s'.mem = s.mem ∧ ∃ d', s'.At d' ((counted ofs).send
        (vectorFlight t d.dtick 7 .ls .ls (ofs.map (fun a => Claims.element q.1 (Claims.number s (locBank t.cluster k a) q.2))) [])))) ∧
    (good 4 → (t.vreg i).length = 32 → (t.vval v).length = 32 →
      let ofs := (t.vreg i).map (fun x => off 4 x.toNat)
      let spot (l : Nat) : Nat := locBank t.cluster k (ofs.getD l 0)
      Claims.Quiet s d t (ofs.map (fun a => (locBank t.cluster k a, 4))) →
      Completes (exec (.stsS g c v b i) s) (fun s' => (∃ d', s'.At d' (counted ofs)) ∧
        (∀ l < 32, (∀ m, l < m → m < 32 → ofs.getD m 0 ≠ ofs.getD l 0) →
          Claims.number s' (spot l) 4 = ((t.vval v).getD l 0).toNat) ∧
        ∀ a, (∀ l < 32, a < spot l ∨ spot l + 4 ≤ a) → s'.readByte a = s.readByte a))

/-- The new value of an atomic operation on integers: m the old value, x the data, k the value of k0 (13 R334). -/
def Sys2Proof.Claims.atomic (o : Aop) (m x k : W64) : Option W64 :=
  match o with
  | .add => some (BitVec.ofNat 64 (m.toNat + x.toNat))
  | .sub => some (BitVec.ofInt 64 (m.toInt - x.toInt))
  | .min => some (BitVec.ofInt 64 (min m.toInt x.toInt))
  | .max => some (BitVec.ofInt 64 (max m.toInt x.toInt))
  | .minu => some (BitVec.ofNat 64 (min m.toNat x.toNat))
  | .maxu => some (BitVec.ofNat 64 (max m.toNat x.toNat))
  | .and => some (m &&& x)
  | .or => some (m ||| x)
  | .xor => some (m ^^^ x)
  | .swap => some x
  | .cas => some (if m = k then x else m)
  | .fadd32 => none
  | .fmax32 => none

/-- R334: AMOS performs at its issue tick: the word takes the operation's value and the old value enters the SQ queue ten
ticks later; the FP32 forms act on four bytes with the RNE sum or the IEEE maximum and carry their flags. Every byte outside
the word reads as before. -/
def Obligations.BankAtomics : Prop :=
  ∀ (s : State) (d : Domain) (t : Tile), s.At d t → s.memOk → ∀ (g c : BitVec 4) (v b : SSpec) (o : Aop) (k : Nat),
    let a := t.sval b
    let loc := Claims.bankPlace t a k
    let old (u : Nat) : W64 := BitVec.ofNat 64 (Claims.number s loc u)
    let back (u : Nat) (fl : List Flg) : Flight := { scalarFlight t d.dtick 10 .ls (.sq none) (old u) with raised := fl }
    (∀ y, Claims.atomic o (old 8) (t.sval v) (t.sqQ.getD 0 0) = some y → Claims.bankLegal t a 8 k → s.sound [(loc, 8)] = true →
      Claims.Quiet s d t [(loc, 8)] →
      Completes (exec (.amos g c v b o) s) (fun s' => Claims.Stored s s' loc 8 y.toNat ∧ ∃ d', s'.At d' (t.send (back 8 [])))) ∧
    (∀ q ∈ ([(.fadd32, fp32F.add .rne false), (.fmax32, fp32F.minmax true)] : List (Aop × (Nat → Nat → Nat × Flg))),
      Claims.bankLegal t a 4 k → s.sound [(loc, 4)] = true → Claims.Quiet s d t [(loc, 4)] →
      let r := q.2 (Claims.number s loc 4) ((t.sval v).toNat % 2 ^ 32)
      Completes (exec (.amos g c v b q.1) s) (fun s' => Claims.Stored s s' loc 4 r.1 ∧
        ∃ d', s'.At d' (t.send (back 4 (if r.2 = 0 then [] else [r.2])))))

/-- The checks that a global access of n bytes passes: an owner below 6 and bits 60:48 zero (02 R56), alignment (13 R325) and
the lease (03 R76). -/
def Sys2Proof.Claims.globalGood (s : State) (d : Domain) (va : W64) (n : Nat) (wr : Bool) : Prop :=
  (va.toNat / 2 ^ 61 < 6 ∧ va.toNat / 2 ^ 48 % 2 ^ 13 = 0) ∧ va.toNat % n = 0 ∧ leaseOk s d wr va n = true

/-- The bytes of a global access meet no open record of the tile, no spill share and no global access of the tile of the
last Vg ticks: it raises no footprint fault 2 or 4 (06 R157). -/
def Sys2Proof.Claims.GlobalQuiet (s : State) (d : Domain) (t : Tile) (wr : Bool) (va : W64) (n : Nat) : Prop :=
  let rs := globalRanges s d t wr va n
  Claims.Quiet s d t rs ∧ ∀ o ∈ d.evs, o.isAccess = true → o.lt = t.lt → d.dtick < o.tick + d.vg →
    rangesMeet (o.reads ++ o.writes) rs = false

/-- R323, R325, R326, R329, R330, R334, R335: a legal global access leaves as a request that names its address, size and data as
they stand at the issue tick; a load or an AMOG also has a result under way, due 600 or 900 ticks on by the timing class, one
more for LDG.D, 900 or 1,200 for AMOG, which is when its answer must have come, as a store must have performed Vg after. LDG.D takes its size from the page of value(BASE), which is translated and marked as used (R71) at the issue tick. No other
byte changes then.
R362, R377: a supervisor's store to the launch port posts its bytes. -/
def Obligations.GlobalRequestsAreSent : Prop :=
  ∀ (s : State) (d : Domain) (t : Tile), s.At d t → t.lt = s.cur.lt → ∀ (g c : BitVec 4) (v : VSpec) (x b : SSpec) (o : BitVec 5) (op : Aop),
    let wide : Prop := 4 ≤ field d.pkt 1 1
    let lat := if wide then 900 else 600
    let va (u : Nat) : W64 := t.sval b + BitVec.ofNat 64 (u * o.toNat)
    let req (k : GKind) (a : W64) (n l : Nat) : GOp :=
      ⟨d.nextId, k, t.lt, d.dtick, a, n, [], .add, 0, 0, .asked, false, d.dtick + l, false⟩
    let from_ (r : State) (i : Instr) (q : GOp) (f : Option Flight) : Prop := Claims.GlobalQuiet r d t (q.kind != .load) q.va q.size →
      Completes (exec i s) (fun s' => s'.mem = r.mem ∧ ∃ d', s'.At d' (match f with
        | some f => t.send { f with gop := some d.nextId }
        | none => t) ∧ d'.gops = d.gops ++ [q] ∧ d'.dtick = d.dtick ∧ d'.causes = d.causes)
    let sent := from_ s
    let vec (l : Nat) : Flight := vectorFlight t d.dtick l .ls .ls (List.replicate 32 0) []
    let words : List Byte := (List.range 128).map (fun k => BitVec.ofNat 8 (((t.vval v).getD (k / 4) 0).toNat / 256 ^ (k % 4)))
    let word : List Byte := (List.range 8).map (fun k => BitVec.ofNat 8 ((t.sval x).toNat / 256 ^ k))
    let port (u : Nat) : Prop := d.sup = true ∧ (va u).toNat / 2 ^ 61 < 4 ∧ (va u).toNat / 2 ^ 48 % 2 ^ 13 = 0 ∧
      (va u).toNat % 2 ^ 48 / 128 = 0x0000FFFFFFFFF000 / 128
    let size : Nat := if op = .fadd32 ∨ op = .fmax32 then 4 else 8
    (Claims.globalGood s d (va 128) 128 false → sent (.ldgV g c b o) (req .load (va 128) 128 lat) (some (vec lat))) ∧
    (Claims.globalGood s d (va 8) 8 false →
      sent (.ldgW64 g c b o) (req .load (va 8) 8 lat) (some (scalarFlight t d.dtick lat .ls (.sq none) 0))) ∧
    (∀ p, ∀ q ∈ (10, 8) :: Claims.forms.map (fun q => (q.1, 32 * q.2)), Claims.globalGood s d (t.sval b) 1 false →
      resolveFor s d t false (t.sval b) = .ok p → Claims.Tagged p.tag q.1 →
      Claims.globalGood s d (va q.2) q.2 false → (∀ r, resolveFor s d t false (va q.2) = .ok r → r.tag = p.tag) →
      let read := s.useRead d (t.sval b)
      (s.memOk → ∀ x, p.leafLoc ≠ some x → read.readByte x = s.readByte x) ∧ from_ read (.ldgD g c b o) { req .load (va q.2) q.2 (lat + 1) with decode := true } (some (vec (lat + 1)))) ∧
    ((t.vval v).length = 32 → ¬port 128 → Claims.globalGood s d (va 128) 128 true →
      sent (.stgV g c v b o) { req .store (va 128) 128 d.vg with data := words } none) ∧
    (¬port 8 → Claims.globalGood s d (va 8) 8 true →
      sent (.stgW64 g c x b o) { req .store (va 8) 8 d.vg with data := word } none) ∧
    ((t.vval v).length = 32 → port 128 → (va 128).toNat % 128 = 0 → exec (.stgV g c v b o) s = .next { s with inputs := s.inputs ++
      [.launchPost ((va 128).toNat / 2 ^ 61) (masterOf t.cluster) ((va 128).toNat % 2 ^ 48 % 128) words] }) ∧
    (port 8 → (va 8).toNat % 8 = 0 → exec (.stgW64 g c x b o) s = .next { s with inputs := s.inputs ++
      [.launchPost ((va 8).toNat / 2 ^ 61) (masterOf t.cluster) ((va 8).toNat % 2 ^ 48 % 128) word] }) ∧
    (Claims.globalGood s d (t.sval b) size true → (t.sval b).toNat / 2 ^ 61 ≠ 4 → sent (.amog g c x b op)
      { req .amo (t.sval b) size (if wide then 1200 else 900) with aop := op, operand := t.sval x, compare := t.sqQ.getD 0 0 }
      (some (scalarFlight t d.dtick (if wide then 1200 else 900) .ls (.sq none) 0)))

/-- R56, R76, R325, R327, R329, R330, R335: a global store with a bad address, a misaligned one, and one outside its lease
raise their faults and send nothing; a load, an LDG.D and an AMOG, which takes no address of the host either, do so too, their
result suppressed in its latch, owed where the fault is recoverable; the lease fault is fatal. LDG.D whose base page has a tag
without a form, or whose access lies on a page with another tag, takes the format fault at its completion tick. -/
def Sys2Proof.Claims.GlobalAccessFaults : Prop :=
  ∀ (s : State) (d : Domain) (t : Tile), s.At d t → ∀ (g c : BitVec 4) (v : VSpec) (x b : SSpec) (o : BitVec 5) (ao : Aop),
    let base := t.sval b
    let va (u : Nat) : W64 := base + BitVec.ofNat 64 (u * o.toNat)
    let good (a : W64) : Prop := a.toNat / 2 ^ 61 < 6 ∧ a.toNat / 2 ^ 48 % 2 ^ 13 = 0
    let lat := if 4 ≤ field d.pkt 1 1 then 900 else 600
    let loses (q : Instr) (l : Nat) (dest : Dest) (code : Nat) (a : W64) : Prop :=
      exec q s = .next ((s.put (t.send (Claims.lost t d.dtick l dest code))).raise 3 code 0 a)
    let size : Nat := if ao = .fadd32 ∨ ao = .fmax32 then 4 else 8
    (∀ q ∈ ([(.stgV g c v b o, 128), (.stgW64 g c x b o, 8)] : List (Instr × Nat)),
      let a := va q.2
      (¬good a → Raises q.1 s 3 3 0 a) ∧
      (good a → a.toNat % q.2 ≠ 0 → Raises q.1 s 3 4 0 a) ∧
      (good a → a.toNat % q.2 = 0 → leaseOk s d true a q.2 = false →
        ¬(d.sup = true ∧ a.toNat / 2 ^ 61 < 4 ∧ a.toNat % 2 ^ 48 / 128 = 0x0000FFFFFFFFF000 / 128) → Raises q.1 s 3 17 0 a)) ∧
    (∀ q ∈ ([(.ldgV g c b o, 128, .ls, va 128), (.ldgW64 g c b o, 8, .sq none, va 8)] : List (Instr × Nat × Dest × W64)),
      let a := q.2.2.2
      (¬good a → loses q.1 lat q.2.2.1 3 a) ∧
      (good a → a.toNat % q.2.1 ≠ 0 → loses q.1 lat q.2.2.1 4 a) ∧
      (good a → a.toNat % q.2.1 = 0 → leaseOk s d false a q.2.1 = false → loses q.1 lat q.2.2.1 17 a)) ∧
    ((¬good base ∨ base.toNat / 2 ^ 61 = 4) → loses (.amog g c x b ao) (if lat = 900 then 1200 else 900) (.sq none) 3 base) ∧
    (good base → base.toNat / 2 ^ 61 ≠ 4 →
      (base.toNat % size ≠ 0 → loses (.amog g c x b ao) (if lat = 900 then 1200 else 900) (.sq none) 4 base) ∧
      (base.toNat % size = 0 → leaseOk s d true base size = false →
        loses (.amog g c x b ao) (if lat = 900 then 1200 else 900) (.sq none) 17 base)) ∧
    (¬good base → loses (.ldgD g c b o) (lat + 1) .ls 3 base) ∧
    (good base → leaseOk s d false base 1 = false → loses (.ldgD g c b o) (lat + 1) .ls 17 base) ∧
    ∀ p, good base → leaseOk s d false base 1 = true → resolveFor s d t false base = .ok p →
      let late (a : W64) : Prop := Completes (exec (.ldgD g c b o) s) (fun s' => ∃ d',
        s'.At d' (t.send (Claims.lost t d.dtick (lat + 1) .ls 5)) ∧ d'.causes = d.causes ∧ d'.gops = d.gops ∧
        d'.deferred = d.deferred ++ [⟨d.dtick + lat + 1, t.lt, 3, 5, 0, a, none⟩])
      (Claims.formless p.tag false → late base) ∧
      ∀ q ∈ (10, 8) :: Claims.forms.map (fun q => (q.1, 32 * q.2)), Claims.Tagged p.tag q.1 → let a := va q.2;
        (¬good a → loses (.ldgD g c b o) (lat + 1) .ls 3 a) ∧
        (good a → a.toNat % q.2 ≠ 0 → loses (.ldgD g c b o) (lat + 1) .ls 4 a) ∧
        (good a → a.toNat % q.2 = 0 → leaseOk s d false a q.2 = false → loses (.ldgD g c b o) (lat + 1) .ls 17 a) ∧
        (good a → a.toNat % q.2 = 0 → leaseOk s d false a q.2 = true → ∀ r, resolveFor s d t false a = .ok r → r.tag ≠ p.tag → late a)

/-- The event of an LS word's access of the present tick. -/
def Sys2Proof.Claims.accessEvent (d : Domain) (t : Tile) (c : BitVec 4) (sp : BitVec 5) (rd wr : List (Nat × Nat)) : Ev :=
  { newEv d t .ls .access with cls := some c, spaces := sp, reads := rd, writes := wr }

/-- An access of the tile conflicts with a record of it that is open, and that hb does not order with it, whatever arrival
words it may read (06 R136, R155-R157; assumption 35). -/
def Sys2Proof.Claims.Races (d : Domain) (t : Tile) (e : Ev) : Prop :=
  ∃ r ∈ t.recs, openFor d.vg d.dtick true r = true ∧ ∀ ids, (d.addEv { e with after := ids }).races r e = true

/-- What the footprint fault of a column access does: it is recorded at the issue tick as detail 2, the domain is fatally
marked, and the word's result, if it has one, is suppressed (06 R157, 15 R381). -/
def Sys2Proof.Claims.Caught (s' : State) (d : Domain) (t : Tile) : Prop :=
  ∃ d' t' more, s'.At d' t' ∧ d'.fatal = true ∧ d'.causes = d.causes ++ ⟨d.dtick, t.lt, 3, 18, 2⟩ :: more ∧
    ∀ f ∈ t'.flights, f.issue = d.dtick → f.col = .ls → f.cause ≠ 0

/-- R157, R327, R434: a bank access that conflicts with an open record of its tile takes the footprint fault 2; every byte
outside those that it stores to reads as before. A bank load or an AMOS of bytes that fail their check has its result
suppressed and owed, and the data-integrity fault comes at its completion tick, with the address of the access, or of the
first lane that fails; a store that would merge with a granule failing its check writes nothing there, and takes it at its
own tick. -/
def Sys2Proof.Claims.BankAccessRacesAndFlaws : Prop :=
  ∀ (s : State) (d : Domain) (t : Tile), s.At d t → s.memOk → t.lt = s.cur.lt → ∀ (g c i : BitVec 4) (v : VSpec) (x b : SSpec)
    (o : BitVec 5) (ao : Aop) (k : Nat), (t.vval v).length = 32 → (t.vreg i).length = 32 →
    let base := t.sval b
    let at_ (u : Nat) : W64 := base + BitVec.ofNat 64 (u * o.toNat)
    let loc (u : Nat) : Nat × Nat := (Claims.bankPlace t (at_ u) k, u)
    let size : Nat := if ao = .fadd32 ∨ ao = .fmax32 then 4 else 8
    let word : Nat × Nat := (Claims.bankPlace t base k, size)
    let tag := (s.cluster t.cluster).tags.getD k ⟨0, 0, false⟩
    let named : Prop := base.toNat < 2 ^ 22 ∧ t.wins.getD (base.toNat / 2 ^ 19) .empty = .att k
    let off (n y : Nat) : Nat := (base.toNat % 2 ^ 19 + n * y) % 2 ^ 19
    let lanes (n : Nat) (y : Lanes) : List (Nat × Nat) := y.map (fun w => (locBank t.cluster k (off n w.toNat), n))
    let lines (l : List Nat) : Nat := (l.map (· / 2 ^ 7)).eraseDups.length - (l.map (· / 2 ^ 15)).eraseDups.length
    let counted (n : Nat) (y : Lanes) : Tile := { t with confl := BitVec.ofNat 32 (min (2 ^ 32 - 1)
      (t.confl.toNat + lines (y.map (fun w => off n w.toNat)))) }
    let laneAt (n : Nat) (y : W32) : W64 := BitVec.ofNat 64 (base.toNat / 2 ^ 19 * 2 ^ 19 + off n y.toNat)
    let racing (q : Instr) (rd wr : List (Nat × Nat)) : Prop := Claims.Races d t (Claims.accessEvent d t c spK rd wr) →
      Completes (exec q s) (fun s' => Claims.Caught s' d t ∧
        ∀ a, (∀ r ∈ wr, a < r.1 ∨ r.1 + r.2 ≤ a) → s'.readByte a = s.readByte a)
    let owed (q : Instr) (u : Tile) (lat : Nat) (dest : Dest) (P : W64 → Prop) : Prop :=
      Completes (exec q s) (fun s' => s'.mem = s.mem ∧ ∃ d' a, s'.At d' (u.send (Claims.lost u d.dtick lat dest 6)) ∧
        d'.causes = d.causes ∧ P a ∧ d'.deferred = d.deferred ++ [⟨d.dtick + lat, t.lt, 3, 6, 0, a, none⟩])
    let refused (q : Instr) (u : Tile) (wr : List (Nat × Nat)) (P : W64 → Prop) : Prop :=
      Completes (exec q s) (fun s' => (∀ a, (∀ r ∈ wr, a < r.1 ∨ r.1 + r.2 ≤ a) → s'.readByte a = s.readByte a) ∧
        ∃ d' t', s'.At d' t' ∧ { t' with faddr := t.faddr } = u ∧ d'.causes = d.causes ++ [⟨d.dtick, t.lt, 3, 6, 0⟩] ∧
        (d.causes = [] → P t'.faddr))
    (∀ q ∈ ([(.ldsV g c b o, 128, .ls), (.ldsW32 g c b o, 4, .sq none), (.ldsW64 g c b o, 8, .sq none)] :
      List (Instr × Nat × Dest)), Claims.bankLegal t (at_ q.2.1) q.2.1 k → racing q.1 [loc q.2.1] [] ∧
      (s.sound [loc q.2.1] = false → Claims.Quiet s d t [loc q.2.1] → owed q.1 t 6 q.2.2 (· = at_ q.2.1))) ∧
    (∀ q ∈ ([(.stsV g c v b o, 128), (.stsW32 g c x b o, 4), (.stsW64 g c x b o, 8)] : List (Instr × Nat)),
      Claims.bankLegal t (at_ q.2) q.2 k → (s.mergeSound (loc q.2) = true → racing q.1 [] [loc q.2]) ∧
      (s.mergeSound (loc q.2) = false → Claims.Quiet s d t [loc q.2] → refused q.1 t [] (· = at_ q.2))) ∧
    (Claims.bankLegal t base size k → racing (.amos g c x b ao) [word] [word] ∧
      (s.sound [word] = false → Claims.Quiet s d t [word] → owed (.amos g c x b ao) t 10 (.sq none) (· = base))) ∧
    (∀ q ∈ Claims.forms, Claims.Tagged tag q.1 → let u := 32 * q.2
      let raised := orFlags ((t.vval v).map (fun y => (Claims.toElement q.1 y).2))
      named → (at_ u).toNat / 2 ^ 19 = base.toNat / 2 ^ 19 → (at_ u).toNat % u = 0 →
      racing (.ldsD g c b o) [loc u, bankTag t.cluster k] [] ∧
      (s.sound [loc u] = false → Claims.Quiet s d t [loc u, bankTag t.cluster k] → owed (.ldsD g c b o) t 7 .ls (· = at_ u)) ∧
      (s.mergeSound (loc u) = true → t.trapen &&& raised = 0 → racing (.stsE g c v b o) [bankTag t.cluster k] [loc u]) ∧
      (s.mergeSound (loc u) = false → t.trapen &&& raised = 0 → Claims.Quiet s d t [loc u, bankTag t.cluster k] →
        refused (.stsE g c v b o) { t with flags := t.flags ||| raised } [] (· = at_ u))) ∧
    (∀ q ∈ (0, 4) :: Claims.forms, Claims.Tagged tag q.1 → named → base.toNat % q.2 = 0 →
      let rs := lanes q.2 (t.vval v)
      racing (.ldsG g c v b) (bankTag t.cluster k :: rs) [] ∧
      (s.sound rs = false → Claims.Quiet s d t (bankTag t.cluster k :: rs) → owed (.ldsG g c v b) (counted q.2 (t.vval v)) 7 .ls
        (fun a => ∃ pre y post, t.vval v = pre ++ y :: post ∧ (∀ z ∈ lanes q.2 pre, s.sound [z] = true) ∧
          s.sound (lanes q.2 [y]) = false ∧ a = laneAt q.2 y))) ∧
    (named → base.toNat % 4 = 0 → let rs := lanes 4 (t.vreg i)
      ((∀ r ∈ rs, s.mergeSound r = true) → racing (.stsS g c v b i) [] rs) ∧
      ((∃ r ∈ rs, s.mergeSound r = false) → Claims.Quiet s d t rs →
        refused (.stsS g c v b i) (counted 4 (t.vreg i)) (rs.filter (fun r => s.mergeSound r))
        (fun a => ∃ pre y post, t.vreg i = pre ++ y :: post ∧ (∀ z ∈ lanes 4 pre, s.mergeSound z = true) ∧
          (∀ z ∈ lanes 4 [y], s.mergeSound z = false) ∧ a = laneAt 4 y)))

/-- R157, R216: a global load, store or AMOG that conflicts with an open record of its tile, or whose bytes meet the tile's own
spill share, takes the footprint fault 2, and one that conflicts, out of order, with a global access of its tile of the last Vg
ticks the fault 4, each at its issue tick; one that meets the share of another tile owes the fault 3 for Vg later. No byte
changes then. -/
def Sys2Proof.Claims.GlobalAccessRaces : Prop :=
  ∀ (s : State) (d : Domain) (t : Tile), s.At d t → t.lt = s.cur.lt → ∀ (g c : BitVec 4) (v : VSpec) (x b : SSpec) (o : BitVec 5)
    (ao : Aop), d.sup = false →
    let base := t.sval b
    let va (u : Nat) : W64 := base + BitVec.ofNat 64 (u * o.toNat)
    let size : Nat := if ao = .fadd32 ∨ ao = .fmax32 then 4 else 8
    let next : Domain := { d with nextId := d.nextId + 1 }
    ∀ q ∈ ([(.ldgV g c b o, va 128, 128, true, false), (.ldgW64 g c b o, va 8, 8, true, false),
        (.stgV g c v b o, va 128, 128, false, true), (.stgW64 g c x b o, va 8, 8, false, true)] ++
        (if base.toNat / 2 ^ 61 = 4 then [] else [(.amog g c x b ao, base, size, true, true)]) :
        List (Instr × W64 × Nat × Bool × Bool)),
      let rs := globalRanges s d t q.2.2.2.2 q.2.1 q.2.2.1
      let e := Claims.accessEvent next t c (if q.2.1.toNat / 2 ^ 61 = 4 then spH else spG) (if q.2.2.2.1 then rs else [])
        (if q.2.2.2.2 then rs else [])
      let share (lt : Nat) : Prop := ∃ y ∈ shareRanges s d, y.1 = lt ∧ rangesMeet rs [y.2] = true
      Claims.globalGood s d q.2.1 q.2.2.1 q.2.2.2.2 → Completes (exec q.1 s) (fun s' => s'.mem = s.mem ∧
        (Claims.Races next t e ∨ share t.lt → Claims.Caught s' d t) ∧ ∃ d', s'.dom? s.cur.dom = some d' ∧
        ((∃ p ∈ d.evs, p.isAccess = true ∧ p.lt = t.lt ∧ p.id ≠ d.nextId + 1 ∧ p.spaces &&& (spG ||| spH) ≠ 0 ∧
            d.dtick < p.tick + d.vg ∧ conflicts p e = true ∧ ∀ ids, (next.addEv { e with after := ids }).ordered p e = false) →
          ⟨d.dtick, t.lt, 3, 18, 4⟩ ∈ d'.causes) ∧
        ((∃ lt, lt ≠ t.lt ∧ share lt) → ⟨d.dtick + d.vg, t.lt, 3, 18, 3, 0, none⟩ ∈ d'.deferred))

/-- R52, R56, R60, R76, R157, R216, R325, R327, R434: the faults of bank and global accesses, the footprint fault of one that meets an
open record or a spill share and the data-integrity fault of a granule among them. -/
def Obligations.AccessFaults : Prop :=
  Claims.BankAccessFaults ∧ Claims.GlobalAccessFaults ∧ Claims.BankAccessRacesAndFlaws ∧ Claims.GlobalAccessRaces

/-- R61-R71, R77, R84, R151, R326, R334: how a request `cur.item` is served. A station that holds its translation
readies it, and sets M on the first write through it (a leaf whose granule fails its check stands: assumption 116); one that
does not sends it on its walk; owners 4 and 5 need no station. A walk that passes its checks readies it, enters the TLB and
sets A in the leaf, and M for a write. In open mode a write to a page without W fails by cause 4, but for one to a discarded
page, which is dropped (R84; assumption 13). A walk that fails is the fatal lease fault under a lease; in open mode it writes a
TYPE 2 record and is the translation fault at the completion tick, Vg after the issue of a store. A load's bytes, or an AMOG's
old value, reach the result that waits; LDG.D decodes them by the page's tag; a store's bytes, and an AMOG's new value, stand in
their location and nowhere else; data that fails its check is the data-integrity fault at the completion tick (a store's, that
would merge with it, at Vg: assumption 103). A discarded page reads zero and takes no write; an AMOG of it counts the write
alone (assumption 100). -/
def Obligations.GlobalRequestsAreServed : Prop :=
  ∀ (s : State) (d : Domain) (t : Tile) (g : GOp), s.dom? s.cur.dom = some d → d.gop? s.cur.item = some g → d.tile? g.lt = some t → s.memOk →
    let write : Prop := g.kind ≠ .load
    let a := g.va.toNat % 2 ^ 48
    let owner := g.va.toNat / 2 ^ 61
    let stage (s' : State) (x : GStage) : Prop := ∃ d', s'.dom? s.cur.dom = some d' ∧ d'.gop? s.cur.item = some { g with stage := x }
    let leafSet (s' : State) (l : Nat) (m : Byte) : Prop := s'.readByte l = s.readByte l ||| m ∧ ∀ x, x ≠ l → s'.readByte x = s.readByte x
    let answered (s' : State) (val : W64) (x : Lanes) (fl : List Flg) : Prop := stage s' .done ∧ ∃ d', s'.dom? s.cur.dom = some d' ∧
      d'.tile? g.lt = some { t with flights := t.flights.map (fun f => if f.gop = some g.id
        then { f with gop := none, val := val, lanes := x, raised := fl } else f) }
    (owner < 4 → ∀ e, tlbFind (s.die owner).tlb d.part a = some e →
      (d.relaxed = true → write → leafW e.leaf = false → leafD e.leaf = true) →
      Completes (exec .globalRequestTranslate s) (fun s' =>
        stage s' (.ready (locHbm owner (leafPa e.leaf (a - e.base))) (leafD e.leaf && d.relaxed)) ∧
        leafSet s' e.leafLoc (if write ∧ leafM e.leaf = false ∧ s.mergeSound (e.leafLoc, 1) = true then 0x80 else 0))) ∧
    (owner < 4 → ∀ e, tlbFind (s.die owner).tlb d.part a = some e → d.relaxed = true → write → leafW e.leaf = false →
      leafD e.leaf = false → Completes (exec .globalRequestTranslate s) (fun s' => stage s' (.failed 4))) ∧
    (owner < 4 → tlbFind (s.die owner).tlb d.part a = none → Completes (exec .globalRequestTranslate s) (fun s' =>
      stage s' .walking ∧ s'.mem = s.mem)) ∧
    (4 ≤ owner → ∀ p, resolveFor s d t (decide write) g.va = .ok p → Completes (exec .globalRequestTranslate s) (fun s' =>
      stage s' (.ready p.loc false) ∧ s'.mem = s.mem)) ∧
    (∀ l e base size, walk s owner d.part a d.walkMode = .ok l e base size → owner < s.dies.length →
      (d.relaxed = true → write → leafW e = false → leafD e = true) →
      Completes (exec .pageWalkComplete s) (fun s' =>
        stage s' (.ready (locHbm owner (leafPa e (a - base))) (leafD e && d.relaxed)) ∧
        leafSet s' l (if write then 0xC0 else 0x40) ∧
        (s'.die owner).tlb = ⟨stationOf a, d.part, base, size, l, if write then e ||| 0x80 else e⟩ :: (s.die owner).tlb)) ∧
    (∀ k l e p, walk s owner d.part a d.walkMode = .bad k l e p → d.relaxed = false →
      Completes (exec .pageWalkComplete s) (fun s' => stage s' (.failed k) ∧ s'.mem = s.mem ∧
        ∃ d', s'.dom? s.cur.dom = some d' ∧ d'.causes = d.causes ++ [⟨d.dtick, g.lt, 3, 17, 0⟩] ∧ d'.fatal = true)) ∧
    (∀ k l e p, walk s owner d.part a d.walkMode = .bad k l e p → d.relaxed = true → (d.phase == .halted) = false →
      Completes (exec .pageWalkComplete s) (fun s' => stage s' (.failed k) ∧
        s'.mem = ((s.countWalk g.va (.bad k l e p)).ringRecord d.part (ringBytes 2 k l (g.kind != .load) d.part (masterOf t.cluster) 0
          (s.seqOf d.seq) g.va 0 g.size e p (t.lt % 1024 + d.dtick % 2 ^ 32 * 2 ^ 32))).mem ∧
        ∃ d', s'.dom? s.cur.dom = some d' ∧ d'.causes = d.causes ∧ ∃ due, d'.deferred = d.deferred ++ [⟨due, g.lt, 3, 7, 0, g.va, none⟩] ∧
          (g.kind = .store → due = g.tick + d.vg) ∧
          (g.kind ≠ .store → (∀ f, t.flights.find? (fun f => f.gop == some g.id) = some f → due = f.due) ∧
            d'.tile? g.lt = some { t with flights := t.flights.map (fun f => if f.gop = some g.id
              then { f with gop := none, cause := 7, owed := true } else f) }))) ∧
    (∀ loc, g.stage = .ready loc false →
      (s.sound [(loc, g.size)] = true →
        (g.kind = .load → g.decode = false → (g.size = 8 ∨ g.size = 128) →
          Completes (exec .globalLoadDataArrival s) (fun s' => s'.mem = s.mem ∧
            if g.size = 8 then answered s' (BitVec.ofNat 64 (Claims.number s loc 8)) [] []
            else answered s' 0 ((List.range 32).map (fun i => BitVec.ofNat 32 (Claims.number s (loc + 4 * i) 4))) [])) ∧
        (g.kind = .load → g.decode = true → ∀ p, resolveFor s d t false g.va = .ok p →
          (∀ q ∈ Claims.forms, Claims.Tagged p.tag q.1 → g.size = 32 * q.2 → Completes (exec .globalLoadDataArrival s) (fun s' =>
            s'.mem = s.mem ∧ answered s' 0 ((List.range 32).map (fun i =>
              Claims.element q.1 (Claims.number s (loc + q.2 * i) q.2))) [])) ∧
          (Claims.Tagged p.tag 10 → g.size = 8 → let byte (i : Nat) : Nat := (s.readByte (loc + i)).toNat;
            Completes (exec .globalLoadDataArrival s) (fun s' => s'.mem = s.mem ∧ ∃ fl, answered s' 0 ((List.range 32).map (fun i =>
              BitVec.ofInt 32 (if 243 ≤ byte (i / 5) then 0 else (byte (i / 5) / 3 ^ (i % 5) % 3 : Nat) - 1))) fl ∧
              ((∃ i < 7, 243 ≤ byte i) → fl = [fIWT]) ∧ ((∀ i < 7, byte i < 243) → fl = [])))) ∧
        (g.kind = .amo → g.size = 8 → ∀ y, Claims.atomic g.aop (BitVec.ofNat 64 (Claims.number s loc 8)) g.operand g.compare = some y →
          Completes (exec .globalLoadDataArrival s) (fun s' => Claims.Stored s s' loc 8 y.toNat ∧
            answered s' (BitVec.ofNat 64 (Claims.number s loc 8)) [] [])) ∧
        (∀ q ∈ ([(.fadd32, fp32F.add .rne false), (.fmax32, fp32F.minmax true)] : List (Aop × (Nat → Nat → Nat × Flg))),
          g.kind = .amo → g.aop = q.1 → g.size = 4 → let r := q.2 (Claims.number s loc 4) (g.operand.toNat % 2 ^ 32);
          Completes (exec .globalLoadDataArrival s) (fun s' => Claims.Stored s s' loc 4 r.1 ∧
            answered s' (BitVec.ofNat 64 (Claims.number s loc 4)) [] (if r.2 = 0 then [] else [r.2])))) ∧
      (g.kind = .store → g.data.length = g.size → s.mergeSound (loc, g.size) = true →
        Completes (exec .globalStorePerformed s) (fun s' => stage s' .done ∧
          (∀ k < g.size, s'.readByte (loc + k) = g.data.getD k 0) ∧
          ∀ x, x < loc ∨ loc + g.size ≤ x → s'.readByte x = s.readByte x)) ∧
      let spoiled (i : Instr) (x : GStage) (due : Nat) : Prop := Completes (exec i s) (fun s' => s'.mem = s.mem ∧ stage s' x ∧
        ∃ d', s'.dom? s.cur.dom = some d' ∧ d'.causes = d.causes ∧ d'.deferred = d.deferred ++ [⟨due, g.lt, 3, 6, 0, g.va, none⟩])
      (d.phase == .halted) = false →
        (g.kind = .store → s.mergeSound (loc, g.size) = false → spoiled .globalStorePerformed (.failed 6) g.due) ∧
        (g.kind ≠ .store → s.sound [(loc, g.size)] = false → ∀ f, t.flights.find? (fun f => f.gop == some g.id) = some f →
          spoiled .globalLoadDataArrival .done f.due)) ∧
    (∀ loc, g.stage = .ready loc true → d.part < s.parts.length →
      (g.kind = .load → g.decode = false → (g.size = 8 ∨ g.size = 128) → Completes (exec .globalLoadDataArrival s) (fun s' => s'.mem = s.mem ∧
        answered s' 0 (if g.size = 8 then [] else List.replicate 32 0) [] ∧ (s'.part d.part).frstat = (s.part d.part).frstat ||| 4)) ∧
      (g.kind = .amo → Claims.atomic g.aop 0 g.operand g.compare ≠ none → Completes (exec .globalLoadDataArrival s) (fun s' =>
        s'.mem = s.mem ∧ answered s' 0 [] [] ∧ (s'.part d.part).dwrite = (s.part d.part).dwrite + 1 ∧
        (s'.part d.part).frstat = (s.part d.part).frstat)) ∧
      (g.kind = .store → Completes (exec .globalStorePerformed s) (fun s' => s'.mem = s.mem ∧ stage s' .done ∧
        (s'.part d.part).dwrite = (s.part d.part).dwrite + 1)))

/-- R77, R84, R103, R147, R156, R336: a WAITW or a WAITG whose condition is met reads its word as an access of its class, and
no byte but the first byte of a page's leaf, where A is set unless the page's station holds its translation (R62, R71),
changes. WAITW acknowledges the records whose arrival
value it reads and comes after them; a WAITG of a discarded page sets DREAD, and one whose walk fails inside a lease raises
the lease fault, in open mode the translation fault (R81). R52, R56, R60: where an address is bad the wait raises
its fault; R76: outside the lease, the lease fault; R434: where the word of a WAITW fails its check, the data-integrity fault. -/
def Obligations.WaitsReadTheirWord : Prop :=
  ∀ (s : State) (d : Domain) (t : Tile), s.At d t → t.lt = s.cur.lt → s.memOk → ∀ (g c : BitVec 4) (v b : SSpec) (e : WaitCond) (k : Nat),
    let a := t.sval b
    let loc := Claims.bankPlace t a k
    (∀ f ∈ t.flights, f.issue = d.dtick → f.col ≠ .ls) →
    (Claims.bankLegal t a 4 k → s.sound [(loc, 4)] = true → Completes (exec (.waitw g c v b e) s) (fun s' => s'.mem = s.mem ∧
      ∃ d' t' x, s'.At d' t' ∧ t'.s = t.s ∧ t'.sqQ = t.sqQ ∧ t'.wins = t.wins ∧ t'.flights = t.flights ∧
        d'.evs = d.evs ++ [x] ∧ x.cls = some c ∧ x.reads = [(loc, 4)] ∧ x.writes = [] ∧
        (∀ r ∈ t.recs, r.stage = .complete → r.arrivalValue = Claims.number s loc 4 → r.told = false →
          (∃ y ∈ d.evs, y.kind = .arrival r.ev ∧ y.writes = [(loc, 4)]) →
          r.ev ∈ x.after ∧ ∃ r' ∈ t'.recs, r'.id = r.id ∧ r'.ack.isSome))) ∧
    (Claims.bankLegal t a 4 k → s.sound [(loc, 4)] = false →
      exec (.waitw g c v b e) s = .next ((s.countFlaws [(loc, 4)]).raise 3 6 0 a)) ∧
    (2 ^ 22 ≤ a.toNat → Raises (.waitw g c v b e) s 3 3 0 a) ∧
    (a.toNat < 2 ^ 22 → a.toNat % 4 ≠ 0 → Raises (.waitw g c v b e) s 3 4 0 a) ∧
    (a.toNat < 2 ^ 22 → a.toNat % 4 = 0 → (∀ k, t.wins.getD (a.toNat / 2 ^ 19) .empty ≠ .att k) →
      Raises (.waitw g c v b e) s 3 16 0 a) ∧
    (∀ p, Claims.globalGood s d a 8 false → resolveFor s d t false a = .ok p → (p.discarded = true ∨ s.sound [(p.loc, 8)] = true) →
      Completes (exec (.waitg g c v b e) s) (fun s' =>
        (∀ x, some x ≠ p.leafLoc → s'.readByte x = s.readByte x) ∧
        (∀ x, some x = p.leafLoc → s'.readByte x =
          if tlbFind (s.die (a.toNat / 2 ^ 61)).tlb d.part (a.toNat % 2 ^ 48) = none then s.readByte x ||| 0x40 else s.readByte x) ∧
        (p.discarded = true → d.part < s.parts.length → (s'.part d.part).frstat = (s.part d.part).frstat ||| 4) ∧
        ∃ d' x, s'.At d' t ∧ d'.evs = d.evs ++ [x] ∧ x.cls = some c ∧ x.reads = [(p.loc, 8)] ∧ x.writes = [])) ∧
    (∀ w, Claims.globalGood s d a 8 false → resolveFor s d t false a = .error w → d.relaxed = false →
      exec (.waitg g c v b e) s = .next ((s.countWalk a w).raise 3 17 0 a)) ∧
    (∀ w, Claims.globalGood s d a 8 false → resolveFor s d t false a = .error w → d.relaxed = true →
      Completes (exec (.waitg g c v b e) s) (fun s' => ∃ d' t', s'.At d' t' ∧ { t' with faddr := t.faddr } = t ∧
        d'.causes = d.causes ++ [⟨d.dtick, t.lt, 3, 7, 0⟩])) ∧
    (¬(a.toNat / 2 ^ 61 < 6 ∧ a.toNat / 2 ^ 48 % 2 ^ 13 = 0) → Raises (.waitg g c v b e) s 3 3 0 a) ∧
    (a.toNat / 2 ^ 61 < 6 → a.toNat / 2 ^ 48 % 2 ^ 13 = 0 → a.toNat % 8 ≠ 0 → Raises (.waitg g c v b e) s 3 4 0 a) ∧
    (a.toNat / 2 ^ 61 < 6 → a.toNat / 2 ^ 48 % 2 ^ 13 = 0 → a.toNat % 8 = 0 → leaseOk s d false a 8 = false →
      Raises (.waitg g c v b e) s 3 17 0 a)

/-- R53, R147, R337, R338: LDA delivers one half-row of an accumulator eight ticks later: the sum words, the error words, their FP32
sum to nearest even, or the integer words; no byte changes, and it acknowledges the completed
records that wrote the half-row. STA writes each lane as a sum word with an error word of +0, and
no byte outside its half-row. An address of 256 or more is an address fault. -/
def Obligations.AccumulatorWordsMove : Prop :=
  ∀ (s : State) (d : Domain) (t : Tile), s.At d t → t.lt = s.cur.lt → s.memOk → ∀ (g c : BitVec 4) (v : VSpec) (b : SSpec) (w : AccWord) (h : Bool),
    let a := (t.sval b).toNat
    let loc := locAcc t.cluster t.idx t.slot (a / 64 * 2 ^ 15 + a % 64 * 512 + (if h then 256 else 0))
    let sum (e : Nat) : Nat := Claims.number s (loc + 8 * e) 4
    let err (e : Nat) : Nat := Claims.number s (loc + 8 * e + 4) 4
    let lane (e : Nat) : W32 := BitVec.ofNat 32 (match w with
      | .sum => sum e
      | .err => err e
      | .rn => (fp32F.add .rne false (sum e) (err e)).1
      | .i32 => sum e)
    (a < 256 → s.sound [(loc, 256)] = true → Completes (exec (.lda g c b w h) s) (fun s' => s'.mem = s.mem ∧
      ∃ d' t' x, s'.At d' t' ∧ t'.s = t.s ∧ t'.v = t.v ∧
        (Claims.Quiet s d t [(loc, 256)] →
          t'.flights = t.flights ++ [vectorFlight t d.dtick 8 .ls .ls ((List.range 32).map lane) []]) ∧
        d'.evs = d.evs ++ [x] ∧ x.cls = some c ∧ x.reads = [(loc, 256)] ∧ x.writes = [] ∧
        ∀ r ∈ t.recs, r.eng = .me → r.stage = .complete → r.told = false → r.tick < d.dtick →
          rangesMeet r.writes [(loc, 256)] = true → r.ev ∈ x.after ∧ ∃ r' ∈ t'.recs, r'.id = r.id ∧ r'.ack.isSome)) ∧
    (a < 256 → (t.vval v).length = 32 → Claims.Quiet s d t [(loc, 256)] → Completes (exec (.sta g c v b h) s) (fun s' =>
      Claims.Stored s s' loc 256 (((List.range 32).map (fun i => ((t.vval v).getD i 0).toNat * 2 ^ (64 * i))).sum) ∧
      ∃ d', s'.At d' t ∧ d'.causes = d.causes)) ∧
    (256 ≤ a → Raises (.sta g c v b h) s 3 3 0 (t.sval b) ∧ exec (.lda g c b w h) s = .next ((s.put (t.send
      { scalarFlight t d.dtick 8 .ls .ls 0 with lanes := List.replicate 32 0, cause := 3, owed := true })).raise 3 3 0 (t.sval b)))

/-- Record r of kind k is the one that engine `cur.eng` of the tile runs or takes next. -/
def Sys2Proof.Claims.Heads (s : State) (d : Domain) (t : Tile) (r : Rec) (k : Nat) : Prop :=
  s.At d t ∧ t.lt = s.cur.lt ∧ t.engines.length = 4 ∧ t.current s.cur.eng = some r ∧ r.eng = s.cur.eng ∧
    fieldAt r.bits 0 8 = k ∧ s.memOk ∧ t.cluster < 256

/-- Its engine runs the record, n of its steps done: it has reached a stage with some flags, a fault or none, and the source
unit that a copy has read in part. Nothing else of the tile has changed, and only a lease fault is raised, as the response
comes (03 R77). -/
def Sys2Proof.Claims.RanWith (held : Option (Nat × List Byte)) (s' : State) (d : Domain) (t : Tile) (r : Rec) (st : RecStage) (n : Nat)
    (fl : Flg) (bad : Option Bad) : Prop :=
  ∃ d' t', s'.At d' t' ∧ { t' with engines := t.engines, recs := t.recs } = t ∧
    d'.causes = d.causes ++ (match bad with
      | some (17, x, _) => [⟨d.dtick, t.lt, 4 + engIdx r.eng, 17, x⟩]
      | _ => []) ∧
    { r with stage := st, flags := r.flags ||| fl, fault := bad, progress := n, held := held } ∈ t'.recs ∧
    (t'.engines.getD (engIdx r.eng) ⟨[], none, none⟩).run = some r.id

/-- As RanWith, of a record that is no copy, or whose step faulted: it holds no unit with its step, and keeps what it held with
a fault. -/
def Sys2Proof.Claims.Ran (s' : State) (d : Domain) (t : Tile) (r : Rec) (st : RecStage) (n : Nat) (fl : Flg) (bad : Option Bad) :
    Prop :=
  Claims.RanWith (if bad.isSome then r.held else none) s' d t r st n fl bad

/-- Byte i of a part whose source starts at address `va`: that of the one read of the aligned 8 bytes that the record holds,
where it lies in them, else byte b (06 R137). -/
def Sys2Proof.Claims.unitByte (r : Rec) (va i : Nat) (b : Byte) : Byte :=
  match r.held with
  | some (u, ws) => if u < va ∧ va + i < u + 8 then ws.getD (va + i - u) 0 else b
  | none => b

/-- The stage of a record of so many steps after step i: written with its last. -/
def Sys2Proof.Claims.stageAfter (steps i : Nat) : RecStage := if steps ≤ i + 1 then .written else .queued

/-- Every byte outside a list of ranges reads as before. -/
def Sys2Proof.Claims.Only (s s' : State) (rs : List (Nat × Nat)) : Prop :=
  ∀ x, (∀ q ∈ rs, x < q.1 ∨ q.1 + q.2 ≤ x) → s'.readByte x = s.readByte x

/-- The sum word of element (i, j) of accumulator a of a tile; its error word is four bytes on (05 R108). -/
def Sys2Proof.Claims.acc (t : Tile) (a i j : Nat) : Nat := locAcc t.cluster t.idx t.slot (a * 2 ^ 15 + i * 512 + 8 * j)

/-- R77, R81, R343, R345, R385: every record of the ME, the GU and the CE goes on whatever its body holds: its engine takes it,
and each event does one step of it. A step without a fault is counted and the last ends the payload; a fault ends it at the
step, the lease fault being raised there; in relaxed mode a walk that fails leaves it standing at the step. -/
def Obligations.EngineRecordsRun : Prop :=
  ∀ (s : State) (d : Domain) (t : Tile) (r : Rec), ∀ q ∈ ([(.mma, 0x10, mmaWork), (.mms, 0x11, mmsWork), (.mzero, 0x12, mzeroWork),
      (.acopy, 0x13, acopyWork), (.mload, 0x14, mloadWork), (.gather, 0x20, gatherWork), (.copy, 0x30, copyWork),
      (.fill, 0x31, fillWork), (.copyb, 0x32, copybWork)] : List (Instr × Nat × (State → Domain → Tile → Rec → Work))),
    Claims.Heads s d t r q.2.1 → Completes (exec q.1 s) (fun s' => ∃ fl held,
      Claims.RanWith held s' d t r (Claims.stageAfter (q.2.2 s d t r).steps r.progress) (r.progress + 1) fl none ∨
      ∃ b : Bad, Claims.Ran s' d t r (if d.relaxed = true ∧ b.1 = 7 then .queued else .written) r.progress fl (some b))

/-- R173, R175: the value of a magnitude pattern of a format, subnormal or normal; that of the pattern after the greatest finite one
is the value that would follow it. -/
def Sys2Proof.Claims.magnitude (f : FpFormat) (k : Nat) : ℚ :=
  if k / 2 ^ f.fbits = 0 then k * 2 ^ (1 - (f.bias : ℤ) - f.fbits)
  else (2 ^ f.fbits + k % 2 ^ f.fbits : ℕ) * 2 ^ ((k / 2 ^ f.fbits : ℕ) - (f.bias : ℤ) - f.fbits)

/-- R173: the sign of a pattern. -/
def Sys2Proof.Claims.negative (f : FpFormat) (a : Nat) : Bool := a.testBit (f.ebits + f.fbits)

/-- R173: the number that a finite pattern stands for. -/
def Sys2Proof.Claims.real (f : FpFormat) (a : Nat) : ℚ :=
  (if Claims.negative f a then -1 else 1) * Claims.magnitude f (a % 2 ^ (f.ebits + f.fbits))

/-- R173: a pattern is finite. -/
def Sys2Proof.Claims.finite (f : FpFormat) (a : Nat) : Prop := a % 2 ^ (f.ebits + f.fbits) < f.infBits

/-- R180, R182: r is the exact nonzero x rounded once to a format whose magnitude patterns below `top` are its finite ones, with its
flags. Toward zero the greatest magnitude not above |x| stands, away from zero the least not below it, and to nearest none is
nearer, a tie going to the even pattern or to the greater. OF when the rounded value passes the finite ones, NX when it differs from
x, UF when that and x is tiny: rounded with unbounded exponent it stays below the smallest normal magnitude. -/
def Sys2Proof.Claims.RoundsTo (f : FpFormat) (top : Nat) (mode : Rm) (x : ℝ) (r : Nat × Flg) : Prop :=
  let v (k : Nat) : ℝ := Claims.magnitude f k
  let cut : Prop := mode = .rtz ∨ (mode = .rup ∧ x < 0) ∨ (mode = .rdn ∧ 0 < x)
  let grow : Prop := (mode = .rup ∧ 0 < x) ∨ (mode = .rdn ∧ x < 0)
  let near : Prop := mode = .rne ∨ mode = .rna
  let normal : ℝ := 2 ^ (1 - (f.bias : ℤ))
  let step : ℝ := 2 ^ (-(f.bias : ℤ) - f.fbits)
  ∃ k ≤ top, r.1 = (if x < 0 then 2 ^ (f.ebits + f.fbits) else 0) + k ∧
    (cut → k < top ∧ v k ≤ |x| ∧ ∀ j < top, v j ≤ |x| → j ≤ k) ∧
    (grow → (k = top ∨ |x| ≤ v k) ∧ ∀ j < k, v j < |x|) ∧
    (near → ∀ j ≤ top, j ≠ k → |(|x| - v k)| < |(|x| - v j)| ∨
      (|(|x| - v k)| = |(|x| - v j)| ∧ (mode = .rne → k % 2 = 0) ∧ (mode = .rna → j < k))) ∧
    let inexact : Prop := k = top ∨ v k ≠ |x|
    let passes : Prop := k = top ∨ (cut ∧ v top ≤ |x|)
    let tiny : Prop := (cut ∧ |x| < normal) ∨ (grow ∧ |x| ≤ normal - step) ∨ (near ∧ |x| < normal - step / 2)
    (r.2 &&& fNX ≠ 0 ↔ inexact) ∧ (r.2 &&& fOF ≠ 0 ↔ passes) ∧ (r.2 &&& fUF ≠ 0 ↔ tiny ∧ inexact) ∧
    r.2 &&& ~~~(fNX ||| fOF ||| fUF) = 0

/-- R305, R309: n is x rounded to an integer under a mode. -/
def Sys2Proof.Claims.Integral (mode : Rm) (x : ℝ) (n : ℤ) : Prop :=
  (mode = .rtz → n = if 0 ≤ x then ⌊x⌋ else ⌈x⌉) ∧ (mode = .rup → n = ⌈x⌉) ∧ (mode = .rdn → n = ⌊x⌋) ∧
  (mode = .rne ∨ mode = .rna → |x - n| ≤ 1 / 2 ∧
    (|x - n| = 1 / 2 → (mode = .rne → n % 2 = 0) ∧ (mode = .rna → |x| < |(n : ℝ)|)))

/-- R196, R346, R349-R351, R385: MZERO clears its accumulator. MMS and MMA go by K steps, of four elements, of two FP8 elements
or of one; a tag that does not fit (for MMA mmaFits, assumptions 47 and 48) is a format fault at the start, at the first A element
or at the first slice that does not fit (assumption 111); a step before the last changes no byte (assumption 82). The last
step of MMS adds to each element, from the integer there or from 0, the trits of a column times the INT8 elements of a row, keeps
the low 32 bits, and raises IOV when a sum leaves 32 signed bits and IWT for a byte of 243 or more. The last step of MMA
gives each element by the shape of its SUM code (08 R192-R194, as MatrixElementsFollowTheirShape says), from its initial words
(assumption 49). No other byte changes. -/
def Sys2Proof.Claims.MatrixRecordSteps : Prop :=
  ∀ (s : State) (d : Domain) (t : Tile) (r : Rec),
    let m := fieldAt r.bits 93 6 + 1
    let n := fieldAt r.bits 99 6 + 1
    let k := fieldAt r.bits 105 14 + 1
    let a := fieldAt r.bits 91 2
    let i0 := r.progress
    let keep := r.bits.getLsbD 127
    let cells : List (Nat × Nat) := (List.range m).flatMap (fun i => (List.range n).map (fun j => (Claims.acc t a i j, 8)))
    (Claims.Heads s d t r 0x12 → Completes (exec .mzero s) (fun s' => Claims.Ran s' d t r .written (i0 + 1) 0 none ∧
      let z := Claims.acc t (fieldAt r.bits 64 2) 0 0
      ∀ x, s'.readByte x = if z ≤ x ∧ x < z + 32768 then 0 else s.readByte x)) ∧
    (Claims.Heads s d t r 0x11 →
      let ga := s.winTag t (fieldAt r.bits 64 3)
      let fits : Prop := (ga.fmt = 7 ∧ ga.blk = 0) ∧ ∀ j < n, (s.sliceTag t j).fmt = 10 ∧ (s.sliceTag t j).blk = 0
      let byte (j q : Nat) : Nat :=
        (s.readByte (locB t.cluster t.idx t.slot (j * 2 ^ 14 + (fieldAt r.bits 77 14 + q / 5)))).toNat
      let trit (j q : Nat) : Int := if 243 ≤ byte j q then 0 else (byte j q / 3 ^ (q % 5) % 3 : Nat) - 1
      let elem (i q : Nat) : Int := (BitVec.ofNat 8 (s.bankLE t (fieldAt r.bits 64 3) (layAddr r.lay1 (i * k + q)).toNat 1)).toInt
      let sum (i j : Nat) : Int := (if keep then (BitVec.ofNat 32 (Claims.number s (Claims.acc t a i j) 4)).toInt else 0) +
        ((List.range k).map (fun q => trit j q * elem i q)).sum
      let steps := (k + 3) / 4
      (i0 = 0 → ¬fits → Completes (exec .mms s) (fun s' => s'.mem = s.mem ∧ Claims.Ran s' d t r .written 0 0
        (some (5, 0, misfitAddr r (mmsFitsA s t r) (mmsFitsB s t))))) ∧
      ((i0 = 0 → fits) → s.sound r.reads = true → s.mergesSound cells = true →
      (i0 + 1 < steps → Completes (exec .mms s) (fun s' => s'.mem = s.mem ∧ Claims.Ran s' d t r .queued (i0 + 1) 0 none)) ∧
      (steps ≤ i0 + 1 → Completes (exec .mms s) (fun s' => Claims.Only s s' cells ∧
        (∀ i < m, ∀ j < n, (BitVec.ofNat 32 (Claims.number s' (Claims.acc t a i j) 4)) = BitVec.ofInt 32 (sum i j) ∧
          Claims.number s' (Claims.acc t a i j + 4) 4 = 0) ∧
        ∃ fl, Claims.Ran s' d t r .written (i0 + 1) fl none ∧ (fl &&& ~~~(fIOV ||| fIWT)) = 0 ∧
          (fl &&& fIOV ≠ 0 ↔ ∃ i < m, ∃ j < n, sum i j < -2147483648 ∨ 2147483647 < sum i j) ∧
          (fl &&& fIWT ≠ 0 ↔ ∃ j < n, ∃ q < k, 243 ≤ byte j q))))) ∧
    (Claims.Heads s d t r 0x10 →
      let ga := s.winTag t (fieldAt r.bits 64 3)
      let code := fieldAt r.bits 128 2
      let fmt := fieldAt r.bits 119 4
      let steps := if fmt = 5 ∨ fmt = 6 then (k + 1) / 2 else k
      (i0 = 0 → mmaFits s t r = false → Completes (exec .mma s) (fun s' => s'.mem = s.mem ∧
        Claims.Ran s' d t r .written 0 0 (some (5, 0, misfitAddr r (mmaFitsA s t r) (mmaFitsB s t r))))) ∧
      ((i0 = 0 → mmaFits s t r = true) → s.sound r.reads = true → s.mergesSound cells = true →
        (i0 + 1 < steps → Completes (exec .mma s) (fun s' => s'.mem = s.mem ∧ Claims.Ran s' d t r .queued (i0 + 1) 0 none)) ∧
        (steps ≤ i0 + 1 → Completes (exec .mma s) (fun s' => Claims.Only s s' cells ∧
          (∃ fl, Claims.Ran s' d t r .written (i0 + 1) fl none ∧ (fl &&& ~~~(fNV ||| fOF ||| fISC)) = 0) ∧
          ∀ i < m, ∀ j < n,
            let ps := (List.range k).map (fun q =>
              let x := aOperand s t r ga k i q
              let y := bOperand s t r (s.sliceTag t j) k j q
              (product x.1 x.2.1 y.1 y.2.1).1)
            let start := initialWords keep code (Claims.number s (Claims.acc t a i j) 4) (Claims.number s (Claims.acc t a i j + 4) 4)
            let v := matrixElement code start.1 ps
            Claims.number s' (Claims.acc t a i j) 4 = v.1 % 2 ^ 32 ∧
              Claims.number s' (Claims.acc t a i j + 4) 4 = v.2.1 % 2 ^ 32))))

/-- The exact value of a number. -/
def Sys2Proof.Claims.worth : Fp → ℚ
  | .num neg m e => (if neg then -1 else 1) * m * 2 ^ e
  | _ => 0

/-- A chunk of at most 2^n leaves summed by halves, a half that is absent passing the other on: the tree of TREE64 (08 R194). -/
def Sys2Proof.Claims.tree : Nat → List Fp → Fp × Flg
  | 0, l => (l.headD (.num false 0 0), 0)
  | n + 1, l =>
    if l.length ≤ 2 ^ n then Claims.tree n l
    else
      let x := Claims.tree n (l.take (2 ^ n))
      let y := Claims.tree n (l.drop (2 ^ n))
      let r := addRn x.1 y.1
      (r.1, x.2 ||| y.2 ||| r.2)

/-- R177, R192-R194: the product of two elements and their scales is exact; a NaN among the elements is its quiet form, an infinity
times zero, a scale of zero among them, the canonical NaN with NV, and a bad scale makes it the canonical NaN. Each sum of two
numbers is their exact sum rounded once to nearest even. An element is the quiet form of the first NaN of its products in
ascending k, then of its initial value; else the canonical NaN with NV when they hold infinities of both signs, else their
infinity; else the shape of its SUM code: ORD adds product by product, BLK32 exact blocks of 32 rounded once, TREE64 the trees of
chunks of 64, COMP with its error word, which is +0 otherwise. Without accum it starts from +0; with it from RN(s + e), under COMP
from both words (assumptions 49 and 108). -/
def Sys2Proof.Claims.MatrixElementsFollowTheirShape : Prop :=
  let canon : Fp := .nan false 0x400000
  let isNan (x : Fp) : Prop := ∃ s fr, x = .nan s fr
  let num (x : Fp) : Prop := ∃ s m e, x = .num s m e
  let quiet (x : Fp) : Fp := match x with
    | .nan s fr => .nan s (fr ||| 0x400000)
    | y => y
  let signals (x : Fp) : Prop := ∃ s fr, x = .nan s fr ∧ fr < 0x400000
  let flagged (p : Prop) (fl : Flg) : Prop := (p → fl = fNV) ∧ (¬p → fl = 0)
  let minus (x : Fp) : Fp := match x with
    | .num s m e => .num (!s) m e
    | .inf s => .inf (!s)
    | y => y
  (∀ (a b : Fp) (ma mb : Nat) (ea eb : Int), let p := product a (.value ma ea) b (.value mb eb)
    (∀ s m e r n f, a = .num s m e → b = .num r n f → p.2 = 0 ∧ num p.1 ∧
      Claims.worth p.1 = Claims.worth a * Claims.worth b * (ma * 2 ^ ea) * (mb * 2 ^ eb) ∧
      ∃ k g, p.1 = .num ((s ^^ r) && (ma * mb != 0)) k g) ∧
    (isNan a → p.1 = quiet a ∧ flagged (signals a ∨ signals b) p.2) ∧
    (¬isNan a → isNan b → p.1 = quiet b ∧ flagged (signals b) p.2) ∧
    (∀ s, a = .inf s → (∀ r n f, b = .num r n f → p = if n = 0 ∨ ma = 0 ∨ mb = 0 then (canon, fNV) else (.inf (s ^^ r), 0)) ∧
      ∀ r, b = .inf r → p = if ma = 0 ∨ mb = 0 then (canon, fNV) else (.inf (s ^^ r), 0)) ∧
    (∀ s m e r, a = .num s m e → b = .inf r → p = if m = 0 ∨ ma = 0 ∨ mb = 0 then (canon, fNV) else (.inf (s ^^ r), 0)) ∧
    ∀ x : Scale, (product a .bad b x).1 = canon ∧ (product a x b .bad).1 = canon ∧
      flagged (signals a ∨ signals b) (product a .bad b x).2 ∧ flagged (signals a ∨ signals b) (product a x b .bad).2) ∧
  (∀ b < 256, (127 ≤ b → scaleOf b = .bad) ∧ (b < 127 → ∃ m e, scaleOf b = .value m e ∧
    (m * 2 ^ e : ℚ) = Claims.magnitude e4m3F b)) ∧
  (∀ x y : Fp, num x → num y → let z := Claims.worth x + Claims.worth y; let r := addRn x y
    (z ≠ 0 → Claims.RoundsTo fp32F fp32F.infBits .rne z (fp32Bits r.1, r.2)) ∧
    (z = 0 → r.2 = 0 ∧ fp32Bits r.1 =
      match x, y with
      | .num true _ _, .num true _ _ => 0x80000000
      | _, _ => 0)) ∧
  (∀ (code : Nat) (inits ps : List Fp), let v := matrixElement code inits ps; let all := ps ++ inits
    (∀ pre x post, all = pre ++ x :: post → (∀ y ∈ pre, ¬isNan y) → isNan x → v.1 = fp32Bits (quiet x) ∧ v.2.1 = 0) ∧
    ((∀ x ∈ all, ¬isNan x) →
      (.inf false ∈ all → .inf true ∈ all → v = (0x7FC00000, 0, fNV)) ∧
      (.inf false ∈ all → .inf true ∉ all → v = (0x7F800000, 0, 0)) ∧
      (.inf true ∈ all → .inf false ∉ all → v = (0xFF800000, 0, 0)))) ∧
  (∀ (s e : Fp) (ps : List Fp), num s → num e → (∀ x ∈ ps, num x) →
    let add (x y : Fp × Flg) : Fp × Flg := ((addRn x.1 y.1).1, x.2 ||| y.2 ||| (addRn x.1 y.1).2)
    let sum (l : List (Fp × Flg)) : Nat × Nat × Flg := (fp32Bits (l.foldl add (s, 0)).1, 0, (l.foldl add (s, 0)).2)
    let pieces (n : Nat) : List (List Fp) := (List.range ((ps.length + n - 1) / n)).map (fun q => (ps.drop (n * q)).take n)
    matrixElement 0 [s] ps = sum (ps.map (fun p => (p, 0))) ∧
    (∃ bs : List (Fp × Flg), matrixElement 1 [s] ps = sum bs ∧ bs.length = (pieces 32).length ∧
      ∀ (q : Nat) (b : Fp × Flg) (l : List Fp), bs[q]? = some b → (pieces 32)[q]? = some l → let z := (l.map Claims.worth).sum
        (z ≠ 0 → Claims.RoundsTo fp32F fp32F.infBits .rne z (fp32Bits b.1, b.2)) ∧
        (z = 0 → b.2 = 0 ∧ ((∀ x ∈ l, ∃ m f, x = .num true m f) → fp32Bits b.1 = 0x80000000) ∧
          ((∃ m f, .num false m f ∈ l) → fp32Bits b.1 = 0))) ∧
    matrixElement 2 [s] ps = sum ((pieces 64).map (Claims.tree 6)) ∧
    let step (x : Fp × Fp) (p : Fp) : Fp × Fp :=
      let s1 := (addRn x.1 p).1
      let bp := (addRn s1 (minus x.1)).1
      let ap := (addRn s1 (minus bp)).1
      (s1, (addRn x.2 (addRn (addRn x.1 (minus ap)).1 (addRn p (minus bp)).1).1).1)
    let w := ps.foldl step (s, e)
    ∃ fl, matrixElement 3 [s, e] ps = (fp32Bits w.1, fp32Bits w.2, fl)) ∧
  ∀ (code s e : Nat), code < 4 → s < 2 ^ 32 → e < 2 ^ 32 →
    (initialWords false code s e).1 = (if code = 3 then [.num false 0 0, .num false 0 0] else [.num false 0 0]) ∧
    (initialWords true code s e).1 = if code = 3 then [fp32F.decode s, fp32F.decode e]
      else [fp32F.decode (fp32F.add .rne false s e).1]

/-- R177, R192-R194, R196, R346, R349-R351, R385: the matrix records step by step, and the elements that they compute: exact
products, special values, and the shapes of the SUM codes. -/
def Obligations.MatrixRecordsComputeElements : Prop :=
  Claims.MatrixRecordSteps ∧ Claims.MatrixElementsFollowTheirShape

/-- A record reads n bytes of a space, within one page of G or H, from location x on: `r` is the state with the page's A set
(03 R71); a bank is as it was. -/
def Sys2Proof.Claims.Source (s : State) (d : Domain) (t : Tile) (space : Nat) (va : W64) (n : Nat) (r : State) (x : Nat) : Prop :=
  s.sound [(x, n)] = true ∧
  ((space = 0 ∧ r = s ∧ ∃ b, t.wins.getD (va.toNat / 2 ^ 19) .empty = .att b ∧ va.toNat % 2 ^ 19 + n ≤ 2 ^ 19 ∧
      x = locBank t.cluster b (va.toNat % 2 ^ 19)) ∨
    (space ≠ 0 ∧ va.toNat % 4096 + n ≤ 4096 ∧ ∃ p, resolveFor s d t false va = .ok p ∧ p.discarded = false ∧ x = p.loc ∧
      r = s.touchLeaf p false))

/-- A record writes n bytes of a space from location y on: `u` is the state with the page's A and M set (03 R71). -/
def Sys2Proof.Claims.Target (r : State) (d : Domain) (t : Tile) (space : Nat) (va : W64) (n : Nat) (u : State) (y : Nat) : Prop :=
  u.mergesSound [(y, n)] = true ∧
  ((space = 0 ∧ u = r ∧ ∃ b, t.wins.getD (va.toNat / 2 ^ 19) .empty = .att b ∧ va.toNat % 2 ^ 19 + n ≤ 2 ^ 19 ∧
      y = locBank t.cluster b (va.toNat % 2 ^ 19)) ∨
    (space ≠ 0 ∧ ∃ p, resolveFor r d t true va = .ok p ∧ p.discarded = false ∧ y = p.loc ∧ u = r.touchLeaf p true))

/-- R137, R352, R353, R355-R358, R385: a step of a record. ACOPY and MLOAD go by half-rows of 32 elements: ACOPY writes each
element's word, scaled and rounded into its format, at its layout address, a granule of the bank with the last half-row that
has an element in it, and tags the bank with its last step; MLOAD fills one word of each element and leaves the other. FILL,
COPY, COPYB and GATHER go by granules of their destination, in a bank or in G or H: FILL writes byte a mod 8 of its value at
every address a; COPY moves the bytes of its rows, none of which shares a granule with the next, and tags a bank as its source
with the last; an aligned 8-byte unit of a source of COPY or COPYB that two steps use is read once, with the first; COPYB moves row i into slice s0 + i, tagged as its source with its last granule; GATHER leaves in every slice the
last entry that a row has for it, or the zero element, a granule of each slice a step (assumption 94), and tags the slices with
the last. No other byte changes. -/
def Obligations.CopyRecordsMoveBytes : Prop :=
  ∀ (s : State) (d : Domain) (t : Tile) (r : Rec) (b c : Nat), b < 16 → c < 16 → t.idx < 4 →
    let cl := s.cluster t.cluster
    cl.tags.length = 16 → cl.slices.length = 512 →
    let i0 := r.progress
    let addr (n : Nat) : Nat := (layAddr r.lay1 n).toNat
    let count := layCount r.lay1
    let halfRows := (count + 31) / 32
    let a := fieldAt r.bits 64 2
    let word := fieldAt r.bits 66 2
    let win (w k : Nat) : Prop := t.wins.getD w .empty = .att k
    let done (s' : State) (steps : Nat) : Prop := ∃ fl, Claims.Ran s' d t r (Claims.stageAfter steps i0) (i0 + 1) fl none
    let copied (s' : State) (steps space : Nat) (z : W64) : Prop :=
      Claims.RanWith (heldUnit s d t space r.held z) s' d t r (Claims.stageAfter steps i0) (i0 + 1) 0 none
    let whole : Prop := ∀ u ws, r.held = some (u, ws) → ws.length = 8
    let granules (at_ len : Nat) : Nat := (at_ % 128 + len + 127) / 128
    let lo (at_ i : Nat) : Nat := 128 * i - at_ % 128
    let size (at_ len i : Nat) : Nat := min len (128 * (i + 1) - at_ % 128) - lo at_ i
    let tagSet (s' : State) (last : Prop) (k : Nat) (g : Tag) : Prop :=
      (last → (s'.cluster t.cluster).tags = cl.tags.set k g) ∧ (¬last → (s'.cluster t.cluster).tags = cl.tags)
    let src : W64 := BitVec.ofNat 64 (fieldAt r.bits 64 51 / 2 ^ 48 % 8 * 2 ^ 61 + fieldAt r.bits 64 51 % 2 ^ 48)
    let paged (space : Nat) (va first : W64) : Prop := space = 1 → ∀ p, resolveFor s d t false va = .ok p → p.tag = pageTag s d t first
    let tagged (space : Nat) (va : W64) : Tag :=
      if space = 0 then cl.tags.getD b Tag.raw else if space = 1 then pageTag s d t va else Tag.raw
    (Claims.Heads s d t r 0x13 → win (fieldAt r.bits 68 3) b → (∀ n < count, addr n + 4 ≤ 2 ^ 19) →
      let df := fieldAt r.bits 93 4
      let size := elemSize df
      let scale := Claims.number s (locRec t.cluster t.idx t.slot (8 * fieldAt r.bits 81 12)) 4
      let sum (n : Nat) : Nat := Claims.number s (Claims.acc t a (n / 64) (n % 64)) 4
      let err (n : Nat) : Nat := Claims.number s (Claims.acc t a (n / 64) (n % 64) + 4) 4
      let value (n : Nat) : Nat := if word = 3 then
          (if df = 9 then sum n else
            let x := (BitVec.ofNat 32 (sum n)).toInt
            ((if r.bits.getLsbD 97 then max (-128) (min 127 x) else x) % 256).toNat)
        else (scaledInto df (r.bits.getLsbD 97)
          (if word = 0 then sum n else if word = 1 then err n else (fp32F.add .rne false (sum n) (err n)).1) scale).1
      let falls (n : Nat) : Bool := (List.range count).all (fun x => addr x / 128 != addr n / 128 || decide (x / 32 ≤ i0)) &&
        (List.range count).any (fun x => addr x / 128 == addr n / 128 && x / 32 == i0)
      let now := (List.range count).filter falls
      let puts := now.map (fun n => (locBank t.cluster b (addr n), size))
      (∀ e < count, e / 32 = i0 → s.sound [(Claims.acc t a (e / 64) (e % 64), 8)] = true) → s.mergesSound puts = true →
      Completes (exec .acopy s) (fun s' => done s' halfRows ∧ tagSet s' (halfRows ≤ i0 + 1) b ⟨BitVec.ofNat 4 df, 0, false⟩ ∧
        Claims.Only s s' puts ∧
        ∀ n ∈ now, (∀ i ∈ now, n < i → addr i + size ≤ addr n ∨ addr n + size ≤ addr i) →
          Claims.number s' (locBank t.cluster b (addr n)) size = value n % 256 ^ size)) ∧
    (Claims.Heads s d t r 0x14 → win (fieldAt r.bits 68 3) b → count ≤ 4096 → (∀ n < count, addr n + 4 ≤ 2 ^ 19) →
      let to_ (n : Nat) : Nat := Claims.acc t a (n / 64) (n % 64) + (if word = 1 then 4 else 0)
      let now := (List.range count).filter (fun n => n / 32 == i0)
      let puts := now.map (fun n => (to_ n, 4))
      (∀ e ∈ now, s.sound [(locBank t.cluster b (addr e), 4)] = true) → s.mergesSound puts = true →
      Completes (exec .mload s) (fun s' => done s' halfRows ∧ Claims.Only s s' puts ∧
        ∀ n ∈ now, Claims.number s' (to_ n) 4 = Claims.number s (locBank t.cluster b (addr n)) 4)) ∧
    (Claims.Heads s d t r 0x31 →
      let len := fieldAt r.bits 192 19 + 1
      let from_ : W64 := src + BitVec.ofNat 64 (lo src.toNat i0)
      let n := size src.toNat len i0
      i0 < granules src.toNat len → ∀ u y, Claims.Target s d t (fieldAt r.bits 115 2) from_ n u y →
      Completes (exec .fill s) (fun s' => done s' (granules src.toNat len) ∧ Claims.Only u s' [(y, n)] ∧
        ∀ i < n, (s'.readByte (y + i)).toNat = fieldAt r.bits (128 + 8 * ((from_.toNat + i) % 8)) 8)) ∧
    (Claims.Heads s d t r 0x30 →
      let dst : W64 := BitVec.ofNat 64 (fieldAt r.bits 128 51 / 2 ^ 48 % 8 * 2 ^ 61 + fieldAt r.bits 128 51 % 2 ^ 48)
      let ss := fieldAt r.bits 179 2
      let ds := fieldAt r.bits 181 2
      let len := fieldAt r.bits 116 12 + 1
      let rows := fieldAt r.bits 183 6 + 1
      let dp := 128 * fieldAt r.bits 201 9
      let g := granules dst.toNat len
      let p := lo dst.toNat (i0 % g)
      let n := size dst.toNat len (i0 % g)
      let from_ : W64 := src + BitVec.ofNat 64 (128 * fieldAt r.bits 192 9 * (i0 / g) + p)
      let to_ : W64 := dst + BitVec.ofNat 64 (dp * (i0 / g) + p)
      (rows = 1 ∨ dst.toNat % 128 + len ≤ dp) → i0 < rows * g →
      (ss = 0 → win (src.toNat / 2 ^ 19) b) → (ds = 0 → win (dst.toNat / 2 ^ 19) c) → paged ss from_ src →
      ∀ q u x y, Claims.Source s d t ss from_ n q x → Claims.Target q d t ds to_ n u y → whole →
      Completes (exec .copy s) (fun s' => copied s' (rows * g) ss (from_ + BitVec.ofNat 64 n) ∧ Claims.Only u s' [(y, n)] ∧
        (∀ i < n, s'.readByte (y + i) = Claims.unitByte r from_.toNat i (q.readByte (x + i))) ∧
        tagSet s' (ds = 0 ∧ i0 + 1 = rows * g) c (tagged ss src))) ∧
    (Claims.Heads s d t r 0x32 →
      let ss := fieldAt r.bits 115 2
      let rows := fieldAt r.bits 118 6 + 1
      let s0 := fieldAt r.bits 142 6
      let o0 := fieldAt r.bits 128 14
      let len := fieldAt r.bits 148 14 + 1
      let g := granules o0 len
      let row := i0 / g
      let p := lo o0 (i0 % g)
      let n := size o0 len (i0 % g)
      let first : W64 := src + BitVec.ofNat 64 (row * len)
      let from_ : W64 := src + BitVec.ofNat 64 (row * len + p)
      let to_ := locB t.cluster t.idx t.slot ((s0 + row) * 2 ^ 14 + o0 + p)
      (ss = 0 → win (first.toNat / 2 ^ 19) b) → paged ss from_ first → s0 + rows ≤ 64 → o0 + len ≤ 2 ^ 14 → i0 < rows * g →
      s.mergesSound [(to_, n)] = true → ∀ q x, Claims.Source s d t ss from_ n q x → whole →
      Completes (exec .copyb s) (fun s' => copied s' (rows * g) ss (from_ + BitVec.ofNat 64 n) ∧ Claims.Only q s' [(to_, n)] ∧
        (∀ i < n, s'.readByte (to_ + i) = Claims.unitByte r from_.toNat i (q.readByte (x + i))) ∧
        (s'.cluster t.cluster).slices = if i0 % g + 1 = g
          then cl.slices.set (sliceAt t.idx t.slot (s0 + row)) (tagged ss first) else cl.slices)) ∧
    (Claims.Heads s d t r 0x20 → win (fieldAt r.bits 64 3) b →
      let fmt := fieldAt r.bits 158 4
      let sz := elemSize fmt
      let rows := fieldAt r.bits 130 14 + 1
      let len := if fmt = 10 then (rows + 4) / 5 else rows * sz
      let o0 := fieldAt r.bits 144 14
      let steps := granules o0 len
      let n := size o0 len i0
      let at_ (j : Nat) : Nat := locB t.cluster t.idx t.slot (j * 2 ^ 14 + o0 + lo o0 i0)
      let ptrs := locBank t.cluster b (fieldAt r.bits 67 19)
      let ptr (i : Nat) : Nat := Claims.number s (ptrs + 4 * i) 4
      let ci := fieldAt r.bits 89 19
      let va := fieldAt r.bits 111 19
      let ended (s' : State) (fl : Flg) : Prop := Claims.Ran s' d t r (Claims.stageAfter steps i0) (i0 + 1) fl none ∧
        Claims.Only s s' ((List.range 64).map (fun j => (at_ j, n))) ∧
        ∀ j < 64, (s'.cluster t.cluster).slices.getD (sliceAt t.idx t.slot j) Tag.raw = if i0 + 1 = steps
          then ⟨BitVec.ofNat 4 fmt, 0, false⟩ else cl.slices.getD (sliceAt t.idx t.slot j) Tag.raw
      o0 + len ≤ 2 ^ 14 → fieldAt r.bits 67 19 + 4 * (rows + 1) ≤ 2 ^ 19 → i0 < steps →
      (s.sound [(ptrs, 4 * (rows + 1))] = true → s.mergesSound ((List.range 64).map (fun j => (at_ j, n))) = true →
        (∀ i < rows, ptr (i + 1) = ptr i) → Completes (exec .gather s) (fun s' => ended s' 0 ∧
          ∀ j < 64, ∀ i < n, s'.readByte (at_ j + i) = if fmt = 10 then 0x79 else 0)) ∧
      ∀ cb vb, win (fieldAt r.bits 86 3) cb → win (fieldAt r.bits 108 3) vb → s.flawed = [] →
        let col (e : Nat) : Nat := (s.readByte (locBank t.cluster cb (ci + e))).toNat
        let value (e : Nat) : Nat := if fmt = 10 then
            (let v := (s.readByte (locBank t.cluster vb (va + e / 5))).toNat
            if 243 ≤ v then 1 else v / 3 ^ (e % 5) % 3)
          else Claims.number s (locBank t.cluster vb (va + e * sz)) sz
        let result (s' : State) (j i : Nat) : Nat := if fmt = 10
          then (s'.readByte (locB t.cluster t.idx t.slot (j * 2 ^ 14 + o0 + i / 5))).toNat / 3 ^ (i % 5) % 3
          else Claims.number s' (locB t.cluster t.idx t.slot (j * 2 ^ 14 + o0 + i * sz)) sz
        let now (i : Nat) : Prop := if fmt = 10 then lo o0 i0 ≤ i / 5 ∧ i / 5 < lo o0 i0 + n
          else lo o0 i0 ≤ i * sz ∧ i * sz + sz ≤ lo o0 i0 + n
        (fmt = 10 ∨ 0 < sz) → (∀ i < rows, ptr i ≤ ptr (i + 1)) → (∀ e, ptr 0 ≤ e → e < ptr rows → ci + e < 2 ^ 19 ∧ col e < 64 ∧
          va + (if fmt = 10 then e / 5 + 1 else e * sz + sz) ≤ 2 ^ 19) →
        Completes (exec .gather s) (fun s' => (∃ fl, ended s' fl ∧ fl &&& ~~~fIWT = 0) ∧ ∀ j < 64, ∀ i < rows, now i →
          (∀ e, ptr i ≤ e → e < ptr (i + 1) → col e = j → (∀ f, e < f → f < ptr (i + 1) → col f ≠ j) → result s' j i = value e) ∧
          ((∀ e, ptr i ≤ e → e < ptr (i + 1) → col e ≠ j) → result s' j i = if fmt = 10 then 1 else 0)))

/-- The bytes of a member's destination and source, its windows being attached to banks (16 R403). -/
def Sys2Proof.Claims.chorusDst (x : Tile × Rec) (b : Nat) : Nat := locBank x.1.cluster b (fieldAt x.2.bits 97 19)
def Sys2Proof.Claims.chorusSrc (x : Tile × Rec) (b ofs : Nat) : Nat := locBank x.1.cluster b (fieldAt x.2.bits 75 19 + ofs)

/-- R403, R404: after the commit of members `ms`, the destination of member m, attached to bank bd and met by no other
member's, holds what its kind gives it of the sources, each in bank bs of its member. -/
def Sys2Proof.Claims.Delivered (s s' : State) (ms : List (Tile × Rec)) (m : Nat) (x : Tile × Rec) (bd : Nat) (bs : Nat → Nat) : Prop :=
  let c := fieldAt x.2.bits 128 24
  let kind := fieldAt x.2.bits 0 8
  let at_ := Claims.chorusDst x bd
  let op := fieldAt x.2.bits 116 4
  let w := if op = 1 then 2 else 4
  let part (p : Nat) (z : (Tile × Rec) × Nat) : Nat := Claims.number s (Claims.chorusSrc z.1 (bs z.2) (m * c + w * p)) w *
    (if op = 1 then 2 ^ 16 else 1)
  let step (u v : Nat) : Nat := if op = 2 then (u + v) % 2 ^ 32 else if op = 3 then (fp32F.minmax true u v).1
    else (fp32F.add .rne false u v).1
  (∀ q z, ms[q]? = some z → ∀ i < c,
    (kind = 0x40 → s'.readByte (at_ + q * c + i) = s.readByte (Claims.chorusSrc z (bs q) i)) ∧
    (kind = 0x42 → s'.readByte (at_ + q * c + i) = s.readByte (Claims.chorusSrc z (bs q) (m * c + i))) ∧
    (kind = 0x46 → q = 0 → s'.readByte (at_ + i) = s.readByte (Claims.chorusSrc z (bs q) i))) ∧
  (kind = 0x41 → ∀ p, w * p + w ≤ c → Claims.number s' (at_ + w * p) w =
    match ms.zipIdx.map (part p) with
    | [] => 0
    | v :: r => if op = 1 then (bf16F.convert fp32F .rne (r.foldl step v)).1 else r.foldl step v)

/-- R402, R406, R101, R344, R345, R403-R405, R407: a chorus record joins its collective at the index of its tile on the group;
a commit ends every member's record without a fault: the bytes of a SEND stand in its receiver's destination, each member of
an AG, an A2A, an RS or a BCAST has its blocks, its reduction in member order or member 0's bytes, and no byte outside the
destinations changes; a failure ends every member's record in the chorus fault that names the reason and the tile, and leaves
every byte outside them, and after a mismatch (assumption 45) every byte, as it was. The completion of a record writes its
arrival word, with bit 31 set after a fault, raises its signal and frees the engine; an arrival word that would merge with a
granule failing its check is not written, which is a data-integrity fault of a record without another (assumption 103). -/
def Obligations.ChorusAndCompletion : Prop :=
  (∀ (s : State) (d : Domain) (t : Tile) (r : Rec), ∀ q ∈ ([(.ag, 0x40), (.rs, 0x41), (.a2a, 0x42), (.bar, 0x43), (.send, 0x44),
      (.recv, 0x45), (.bcast, 0x46)] : List (Instr × Nat)), Claims.Heads s d t r q.2 →
    Completes (exec q.1 s) (fun s' => s'.mem = s.mem ∧ ∃ d' t', s'.At d' t' ∧ d'.causes = d.causes ∧
      { t' with engines := t.engines, recs := t.recs } = t ∧
      (t'.engines.getD (engIdx r.eng) ⟨[], none, none⟩).run = some r.id ∧
      { r with stage := .joined, coll := (t.recs.filter (fun x => decide (0x40 ≤ fieldAt x.bits 0 8 ∧ fieldAt x.bits 0 8 ≤ 0x46) &&
        fieldAt x.bits 64 8 == fieldAt r.bits 64 8 && x.stage != .queued && x.stage != .squashed)).length } ∈ t'.recs)) ∧
  (∀ (s : State) (d : Domain) (t : Tile) (r : Rec) (ms : List (Tile × Rec)), s.At d t → s.memOk → t.current .ch = some r →
    d.members (fieldAt r.bits 64 8) r.coll = some ms →
    let ended (s' : State) (bad : Option Bad) : Prop := ∃ d', s'.dom? s.cur.dom = some d' ∧ d'.causes = d.causes ∧
      ∀ x ∈ ms, (∀ y ∈ ms, y.1.lt = x.1.lt → y = x) → (∃ u, d.tile? x.1.lt = some u ∧ x.2 ∈ u.recs) →
        ∃ u', d'.tile? x.1.lt = some u' ∧ { x.2 with stage := .written, fault := bad } ∈ u'.recs
    let apart (z : Nat) : Prop := ∀ (m : Nat) (x : Tile × Rec) (b : Nat), ms[m]? = some x → x.1.wins.getD (fieldAt x.2.bits 94 3) .empty = .att b →
      z < Claims.chorusDst x b ∨ Claims.chorusDst x b + (received s ms m x.2).length ≤ z
    Completes (exec .collectiveCommit s) (fun s' => ended s' none ∧ (∀ z, apart z → s'.readByte z = s.readByte z) ∧
      (∀ x y : Tile × Rec, ∀ b c : Nat, let n := fieldAt y.2.bits 128 24
        ms = [x, y] → fieldAt x.2.bits 0 8 = 0x44 → fieldAt y.2.bits 0 8 = 0x45 →
        x.1.wins.getD (fieldAt x.2.bits 72 3) .empty = .att b → y.1.wins.getD (fieldAt y.2.bits 94 3) .empty = .att c →
        Claims.Only s s' [(Claims.chorusDst y c, n)] ∧ ∀ i < n, s'.readByte (Claims.chorusDst y c + i) =
          s.readByte (Claims.chorusSrc x b i)) ∧
      ∀ (m : Nat) (x : Tile × Rec) (bd : Nat) (bs : Nat → Nat), ms[m]? = some x → x.1.wins.getD (fieldAt x.2.bits 94 3) .empty = .att bd →
        (∀ (q : Nat) (z : Tile × Rec), ms[q]? = some z → z.1.wins.getD (fieldAt z.2.bits 72 3) .empty = .att (bs q)) →
        (∀ (q : Nat) (z : Tile × Rec) (bz : Nat), q ≠ m → ms[q]? = some z → z.1.wins.getD (fieldAt z.2.bits 94 3) .empty = .att bz →
          Claims.chorusDst z bz + (received s ms q z.2).length ≤ Claims.chorusDst x bd ∨
          Claims.chorusDst x bd + (received s ms m x.2).length ≤ Claims.chorusDst z bz) →
        Claims.Delivered s s' ms m x bd bs) ∧
    ∀ reason lt, collectiveFault s d (fieldAt r.bits 64 8) ms = some (reason, lt) →
      Completes (exec .collectiveFailure s) (fun s' => ended s' (some (14, reason * 2 ^ 12 + lt, 0)) ∧
        (∀ z, apart z → s'.readByte z = s.readByte z) ∧ (reason = 4 → s'.mem = s.mem))) ∧
  ∀ (s : State) (d : Domain) (t : Tile) (r : Rec), s.At d t → t.lt = s.cur.lt → t.engines.length = 4 → s.memOk →
    t.current s.cur.eng = some r →
    let value := if r.fault.isSome then fieldAt r.bits 224 32 % 2 ^ 31 + 2 ^ 31 else fieldAt r.bits 224 32
    let done (s' : State) (bad : Option Bad) : Prop := ∃ d' t', s'.At d' t' ∧ d'.causes = d.causes ∧
        { t' with engines := t.engines, recs := t.recs, sems := t.sems } = t ∧ { r with stage := .complete, fault := bad } ∈ t'.recs ∧
        (t'.engines.getD (engIdx r.eng) ⟨[], none, none⟩).run = none ∧
        t'.sems = if r.bits.getLsbD 36 then t.sems.set (fieldAt r.bits 32 4) ((t.sems.getD (fieldAt r.bits 32 4) []).map
          (fun o => if o.ev = r.ev then { o with arrived := true } else o)) else t.sems
    let word (b : Nat) : Nat := locBank t.cluster b (fieldAt r.bits 214 10)
    (r.aen = false ∨ (∀ b, t.wins.getD (fieldAt r.bits 211 3) .empty ≠ .att b) →
      Completes (exec .recordCompletion s) (fun s' => done s' r.fault ∧ s'.mem = s.mem)) ∧
    (∀ b, r.aen = true → t.wins.getD (fieldAt r.bits 211 3) .empty = .att b →
      (s.mergesSound [(word b, 4)] = true → Completes (exec .recordCompletion s) (fun s' => done s' r.fault ∧
        Claims.Stored s s' (word b) 4 value)) ∧
      (s.mergesSound [(word b, 4)] = false → Completes (exec .recordCompletion s) (fun s' => s'.mem = s.mem ∧
        ∃ a, done s' (if r.fault.isSome then r.fault else some (6, 0, a)))))

/-- R157, R158, R221, R225, R379, R388, R390, R375, R382: the events of a domain's tick. The first deferred
fault whose tick has come and whose check is complete is raised, one of a race unless the order has come to order every pair of
it; the check of two tiles' accesses waits for both at the vault or the egress (R220); a release puts the lead before the issue, and its end counts the lead as held time, except after RTE; a deadline fault of
either kind is fatal, halts the domain at its present tick and is raised on every tile; a request is latched while the
domain runs; a halt ends the issue of every tile, whose state stands but for
FADDR, fixes the primary cause, and posts one notice for each die. No byte changes. -/
def Obligations.HoldsDeadlinesAndHalts : Prop :=
  ∀ (s : State) (d : Domain), s.dom? s.cur.dom = some d →
    let lead := if 4 ≤ field d.pkt 1 1 then 64 else 24
    let now (f : Domain → Domain) : State := s.updDom s.cur.dom f
    let after (i : Instr) (P : Domain → Prop) : Prop := Completes (exec i s) (fun s' => s'.mem = s.mem ∧
      ∃ d', s'.dom? s.cur.dom = some d' ∧ d'.dtick = d.dtick ∧ P d')
    let onAll (n : Nat) : List Cause := d.tiles.map (fun t => ⟨d.dtick, t.lt, 8, 21, n⟩)
    let racing (p : Nat × Nat) : Bool := match d.ev? p.1, d.ev? p.2 with
      | some a, some b => !d.ordered a b
      | _, _ => false
    (∀ pre x rest, d.deferred = pre ++ x :: rest → (∀ y ∈ pre, y.tick ≤ d.dtick → d.checkDone d.dtick d.gops y = false) →
      x.tick ≤ d.dtick → d.checkDone d.dtick d.gops x = true →
      after .deferredFootprintFault (fun d' => d'.deferred = d.deferred.erase x ∧
      d'.causes = d.causes ++ (match x.pairs with
        | some l => if l.any racing then [⟨x.tick, x.lt, x.src, x.cause, x.detail⟩] else []
        | none => [⟨x.tick, x.lt, x.src, x.cause, x.detail⟩]))) ∧
    (∀ x : Deferred, (x.detail ≠ 5 ∨ x.pairs = none → d.checkDone d.dtick d.gops x = true) ∧
      ∀ l, x.detail = 5 → x.pairs = some l → (d.checkDone d.dtick d.gops x = true ↔ ∀ p ∈ l, ∀ i, i = p.1 ∨ i = p.2 →
        ∀ a, d.ev? i = some a → a.tick < d.dtick ∧ ∀ g ∈ d.gops, g.id + 1 = i → g.pending = false)) ∧
    exec .holdRelease s = .next (now (fun e => { e with hold := some ⟨some lead⟩ })) ∧
    exec .holdLeadExpiry s = .next (now (fun e => if e.resume then { e with resume := false }
      else { e with holdcnt := e.holdcnt + lead, hold := none, released := true })) ∧
    after .deadlineFaultTick (fun d' => d'.causes = d.causes ++ onAll 1 ∧
      (d.tiles ≠ [] → d'.fatal = true ∧ ∃ h, d'.haltAt = some h ∧ h ≤ d.dtick)) ∧
    after .deadlineFaultHold (fun d' => d'.causes = d.causes ++ onAll 2 ∧ d'.holdcnt = field d.pkt 12 4 + 1 ∧
      (d.tiles ≠ [] → d'.fatal = true ∧ ∃ h, d'.haltAt = some h ∧ h ≤ d.dtick)) ∧
    after (.preemptionRequest s.cur.dom) (fun d' => d'.tiles = d.tiles ∧
      d'.causes = d.causes ++ if d.phase = .running then [⟨d.dtick, 0, 8, 32, 0⟩] else []) ∧
    after .quantumEnd (fun d' => d'.tiles = d.tiles ∧ d'.parked = true ∧
      d'.causes = d.causes ++ if d.phase = .running then [⟨d.dtick, 0, 8, 33, 0⟩] else []) ∧
    (d.parked = false → (∀ c ∈ d.causes, c.code < 64) → (∀ x ∈ d.deferred, x.cause < 64) → Completes (exec .domainHalt s) (fun s' => s'.mem = s.mem ∧
      (∃ d', s'.dom? s.cur.dom = some d' ∧ d'.phase = .halted ∧ d'.hold = none ∧ d'.dtick = d.dtick ∧
        d'.tiles.map (fun t => { t with faddr := 0 }) = d.tiles.map (fun t => { t with faddr := 0 }) ∧ d'.chief = d.primary ∧
        ∀ c ∈ d.causes, c ∈ d'.causes) ∧
      ∀ k < s.dies.length, ((s'.die k).svhalt ≠ (s.die k).svhalt ↔ ∃ t ∈ d.tiles, dieOf t.cluster = k) ∧
        ∀ n ∈ (s'.die k).svhalt, n ∈ (s.die k).svhalt ∨ n.getLsbD 63 = true ∧ n.getLsbD 62 = d.fatal))

/-- R203-R206, R209, R216: the boundary of a tile whose continuation is fetched enters it at the present tick, from its first
halfwords, its LEAP still to come; one that fails its checks issues nothing and raises the block-validation fault of the lowest
code (its source SQ and the code in bits 3:0 of its detail are assumption 50); a failed
fetch raises its fault with no word to issue; a continuation still on its way is awaited, and one never asked for is asked
for. What the loader reads is the block that stands at its address, or the failure of its bytes. A refill brings the last
spilled entry back under the stack, zero from a discarded page (R84); its failed walk is the lease fault (R77), in open mode the
translation fault (R81), and a granule that fails its check the data-integrity fault (R434), at the present tick, the slot to be
read again (assumption 80). -/
def Obligations.BlocksAreFetchedAndEntered : Prop :=
  ∀ (s : State) (d : Domain) (t : Tile), s.At d t → t.lt = s.cur.lt →
    let next : W64 := match t.decision with
      | some ⟨true, a⟩ => a
      | _ => if t.rep + 1 < (t.block.hdr.extractLsb' 16 8).toNat + 1 then t.block.addr else t.block.after
    let entered (P : Domain → Tile → Prop) : Prop := Completes (exec .blockBoundary s) (fun s' => s'.mem = s.mem ∧
      ∃ d' t', s'.At d' t' ∧ t'.btick = 0 ∧ t'.start = d.dtick ∧ t'.decision = none ∧ t'.s = t.s ∧ t'.v = t.v ∧
        t'.sqQ = t.sqQ ∧ t'.stack = t.stack ∧ t'.targets = t.targets ∧ t'.flights = t.flights ∧ P d' t')
    (∀ b, t.held next = some (.got b) → entered (fun d' t' =>
      t'.block = b ∧ t'.streams = b.streams.map (fun h => ⟨h, h, 0, 0, 0⟩) ∧
      (validate d t b d.dtick = [] → t'.badBlock = false ∧ d'.causes = d.causes) ∧
      (∀ code col o, worst (validate d t b d.dtick) = some (code, col, o) → t'.badBlock = true ∧
        ∃ n, n % 16 = code % 16 ∧ d'.causes = d.causes ++ [⟨d.dtick, t.lt, 0, 11, n⟩]) ∧
      (validate d t b d.dtick ≠ [] → ∃ x ∈ validate d t b d.dtick, worst (validate d t b d.dtick) = some x ∧
        ∀ y ∈ validate d t b d.dtick, x.1 ≤ y.1))) ∧
    (∀ k n a, t.held next = some (.failed k n a) → entered (fun d' t' => t'.block.addr = next ∧
      t'.streams = List.replicate 4 ⟨[], [], 0, 0, 0⟩ ∧ t'.badBlock = true ∧
      d'.causes = d.causes ++ [⟨d.dtick, t.lt, 0, fetchCode d k, 0⟩])) ∧
    (t.held next = some .asked → exec .blockBoundary s = .next s) ∧
    (t.held next = none → Completes (exec .blockBoundary s) (fun s' => s'.mem = s.mem ∧
      ∃ d', s'.At d' { t with loader := t.loader.filter (fun f => f.owner != .fixed) ++ [⟨next, .asked, .fixed⟩] } ∧ d'.causes = d.causes)) ∧
    (t.loader[s.cur.item]? = none → exec .blockFetchDone s = .next s) ∧
    (∀ f b, t.loader[s.cur.item]? = some f → fetchBlock s d t f.addr = .ok b →
      Completes (exec .blockFetchDone s) (fun s' => ∃ d', s'.At d' { t with loader := t.loader.set s.cur.item { f with stage := .got b } } ∧
        d'.causes = d.causes)) ∧
    (∀ f w a, t.loader[s.cur.item]? = some f → fetchBlock s d t f.addr = .error (w, a) →
      Completes (exec .blockFetchDone s) (fun s' => ∃ d', s'.At d' { t with loader := t.loader.set s.cur.item { f with stage := .failed w.code 0 a } } ∧
        d'.causes = d.causes)) ∧
    (let slot : W64 := BitVec.ofNat 64 (field d.pkt 56 8 + t.lt * 8 * (field d.pkt 52 4 / (8 * d.tiles.length)) + 8 * (t.spills - 1));
      (∀ p, resolveFor s d t false slot = .ok p → (p.discarded = true ∨ s.sound [(p.loc, 8)] = true) →
        Completes (exec .returnStackRefill s) (fun s' => (∃ d', s'.At d' { t with
          stack := t.stack ++ [if p.discarded then 0 else BitVec.ofNat 64 (Claims.number s p.loc 8)]
          spills := t.spills - 1
          refill := t.refill - 1 } ∧ d'.causes = d.causes) ∧
        (s.memOk → ∀ x, p.leafLoc ≠ some x → s'.readByte x = s.readByte x))) ∧
      (∀ p, resolveFor s d t false slot = .ok p → p.discarded = false → s.sound [(p.loc, 8)] = false →
        Completes (exec .returnStackRefill s) (fun s' => ∃ d' t', s'.At d' t' ∧ { t' with faddr := t.faddr } = t ∧
          d'.causes = d.causes ++ [⟨d.dtick, t.lt, 0, 6, 0⟩])) ∧
      (∀ w, resolveFor s d t false slot = .error w → Completes (exec .returnStackRefill s) (fun s' =>
        ∃ d' t', s'.At d' t' ∧ { t' with faddr := t.faddr } = t ∧
          d'.causes = d.causes ++ [⟨d.dtick, t.lt, 0, if d.relaxed then 7 else 17, 0⟩])))

/-- R125, R368, R389, R225, R199: a task that ends leaves its domain ended and its task-end event at the launch port,
under the cluster of its lowest tile; its completion record, where its page stands, holds its sequence number, the status (1 for a fatal end, with its
code; 0 for a retirement), the tick, the held time, and the digest of its outputs or zeros. The page is one that a link carries
to, where the host holds it (R423), and whose granules, where the record merges with them, pass their check (R433). -/
def Obligations.TasksEndWithTheirRecord : Prop :=
  ∀ (s : State) (d : Domain) (p : Place) (i : Instr) (status code tick : Nat) (digest : List Byte),
    s.dom? s.cur.dom = some d → s.memOk → (d.relaxed = true ∨ ∀ l ∈ s.leases, l.handle = d.handle → l.state ≠ .ending) → d.pkt.length = 128 → d.part < s.parts.length →
    let home := match d.tiles with
      | t :: _ => dieOf t.cluster
      | [] => 0
    let va : W64 := BitVec.ofNat 64 (field d.pkt 64 8)
    resolve s d.part (0x101 + 16 * home) .report true va = .ok p → p.discarded = false → va.toNat % 4096 + 64 ≤ 4096 →
    s.cutOff p.loc = false → s.mergeSound (p.loc, 64) = true →
    (i = .fatalTaskEnd ∧ status = 1 ∧ code = d.fatalCodeOf ∧ tick = d.dtick ∧ digest = List.replicate 32 0) ∨
    (i = .taskRetire ∧ status = 0 ∧ code = 0 ∧ tick = (d.tiles.map (fun t => t.haltTick.getD 0)).foldl max 0 ∧
      digest = sha256 ((s.updDom s.cur.dom (fun _ => d)).outputBytes (if d.relaxed then .report else .lease) d.part home (descOutputs d.desc)).2 ∧ digest.length = 32 ∧
      ∀ t ∈ d.tiles, ∀ r ∈ t.recs, r.stage = .complete → r.told = true) →
    Completes (exec i s) (fun s' => (∃ d', s'.dom? s.cur.dom = some d' ∧ d'.phase = .ended) ∧
      s'.arrivals = s.arrivals ++ [.taskEnd (match d.tiles with
        | t :: _ => t.cluster
        | [] => 0) d.seq] ∧ s'.stream = s.stream ∧
      (∀ k < 8, s'.readByte (p.loc + k) = d.pkt.getD (72 + k) 0) ∧
      Claims.number s' (p.loc + 8) 8 = s.seqOf d.seq % 2 ^ 64 ∧ Claims.number s' (p.loc + 16) 1 = status ∧
      Claims.number s' (p.loc + 17) 1 = code % 256 ∧ Claims.number s' (p.loc + 18) 2 = 0 ∧
      Claims.number s' (p.loc + 20) 4 = tick % 2 ^ 32 ∧ Claims.number s' (p.loc + 24) 8 = d.holdcnt % 2 ^ 64 ∧
      (∀ k < 32, s'.readByte (p.loc + 32 + k) = digest.getD k 0) ∧
      ∀ x, x < p.loc ∨ p.loc + 64 ≤ x → s'.readByte x = s.readByte x)

/-- R72-R75, R78, R79: the TLB invalidation register takes its fields, first dropping what an invalidation under way names, SZ 6
and 7 starting nothing (both assumption 41), and its end drops exactly the matching translations; a build
goes on page by page, keeps RW only while the pages are writable, ends RESIDENT after its last page and FAULTED at a page that
fails, its record at once in the ring when the ring takes it; a waiting record is written when there is room; RETRY sends a
FAULTED build on; RELEASE ends or empties a handle of its partition, one whose record waits once that
is written; a write of FRTAIL sets it and changes no byte. -/
def Obligations.LeasesAndTranslations : Prop :=
  (∀ (s : State) (die : Nat) (v : BitVec 64), exec (.tlbinvGo die v) s = .next (s.updDie die (fun q => { q with
    tlb := if q.tlbinv.getLsbD 63 then q.tlb.filter (fun e => !tlbMatches q.tlbinv e) else q.tlb
    tlbinv := (v &&& 0x400FFFFFFFFFF700) ||| (if v.getLsbD 63 = true ∧ (v.extractLsb' 8 3).toNat < 6 then 0x8000000000000000
      else q.tlbinv &&& 0x8000000000000000) }))) ∧
  (∀ (s : State), s.cur.die < s.dies.length →
    let old := s.die s.cur.die
    let inv := old.tlbinv
    let size := pageSize (inv.extractLsb' 8 3).toNat
    let base := (inv.extractLsb' 12 36).toNat * 4096 / size * size
    let hit (e : TlbEntry) : Prop :=
      (e.key = (inv.extractLsb' 48 4).toNat ∨ leafKey e.leaf = (inv.extractLsb' 48 4).toNat) ∧
      (inv.getLsbD 62 = true ∨ (e.base < base + size ∧ base < e.base + e.size))
    Completes (exec .tlbinvDone s) (fun s' => s'.mem = s.mem ∧ (∀ e, e ∈ (s'.die s.cur.die).tlb ↔ e ∈ old.tlb ∧ ¬hit e) ∧
      (s'.die s.cur.die).tlbinv = inv &&& 0x7FFFFFFFFFFFFFFF ∧ ∀ k, k ≠ s.cur.die → s'.die k = s.die k)) ∧
  (∀ (s : State) (l : Lease) (r : Range), s.lease? s.cur.item = some l → l.ranges[l.at_.1]? = some r →
    let a := (r.base + BitVec.ofNat 64 l.at_.2).toNat % 2 ^ 48
    (∀ base size w, checkPage s l r l.at_.2 = .ok base size w →
      let next := l.at_.2 + (base + size - a)
      Completes (exec .leaseBuildPage s) (fun s' => ∃ l', s'.lease? s.cur.item = some l' ∧ l'.ranges = l.ranges ∧
        l'.rw = l.rw.set l.at_.1 (l.rw.getD l.at_.1 false && w) ∧
        l'.at_ = (if next < r.len then (l.at_.1, next) else (l.at_.1 + 1, 0)) ∧
        (l'.state = .resident ↔ l.state = .resident ∨ (r.len ≤ next ∧ l.ranges.length ≤ l.at_.1 + 1)))) ∧
    (∀ c lv e p, checkPage s l r l.at_.2 = .bad c lv e p → Completes (exec .leaseBuildPage s) (fun s' =>
      ∃ l', s'.lease? s.cur.item = some l' ∧ l'.state = .faulted ∧ l'.at_ = l.at_ ∧
        (l'.record.isSome ↔ ¬((s.part l.part).frstat.getLsbD 0 = true ∧
          ((s.part l.part).frhead - (s.part l.part).frtail).toNat ≠ (s.part l.part).frsize.toNat))))) ∧
  (∀ (s : State) (l : Lease) (b : List Byte) (p : Place), s.lease? s.cur.item = some l → l.record = some b → b.length = 64 →
    s.memOk → l.part < s.parts.length →
    let q := s.part l.part
    resolve s l.part 0x101 .report true (q.frbase + BitVec.ofNat 64 (64 * (q.frhead.toNat % q.frsize.toNat))) = .ok p →
    p.discarded = false → s.cutOff p.loc = false → s.mergeSound (p.loc, 64) = true →
    (l.released = true → Completes (exec .leaseRecordDeferredWrite s) (fun s' => s'.lease? s.cur.item = none)) ∧
    (l.released = false → Completes (exec .leaseRecordDeferredWrite s) (fun s' => (∃ l', s'.lease? s.cur.item = some l' ∧ l' = { l with record := none }) ∧
      (s'.part l.part).frhead = q.frhead + 1 ∧ (∀ k < 56, s'.readByte (p.loc + k) = b.getD k 0) ∧
      Claims.number s' (p.loc + 56) 8 = (q.frhead + 1).toNat ∧ ∀ x, x < p.loc ∨ p.loc + 64 ≤ x → s'.readByte x = s.readByte x))) ∧
  (∀ (s : State) (part h : Nat) (l : Lease), s.lease? h = some l →
    (l.part = part → l.state = .faulted → l.record = none → Completes (exec (.leasecmdRetry part h) s) (fun s' =>
      s'.lease? h = some { l with state := .building } ∧ s'.mem = s.mem)) ∧
    (¬(l.part = part ∧ l.state = .faulted ∧ l.record = none) → exec (.leasecmdRetry part h) s = .next s) ∧
    (l.part ≠ part ∨ l.state = .ending → exec (.leasecmdRelease part h) s = .next s) ∧
    (l.part = part → l.state = .resident → s.leaseUsed h = true → Completes (exec (.leasecmdRelease part h) s) (fun s' =>
      s'.lease? h = some { l with state := .ending } ∧ s'.mem = s.mem)) ∧
    (l.part = part → l.state ≠ .ending → ¬(l.state = .resident ∧ s.leaseUsed h = true) → l.record.isSome = true →
      Completes (exec (.leasecmdRelease part h) s) (fun s' => s'.lease? h = some { l with released := true } ∧ s'.mem = s.mem)) ∧
    (l.part = part → l.state ≠ .ending → ¬(l.state = .resident ∧ s.leaseUsed h = true) → l.record = none →
      Completes (exec (.leasecmdRelease part h) s) (fun s' => s'.lease? h = none))) ∧
  ∀ (s : State) (p : Nat) (v : BitVec 64), p < s.parts.length → Completes (exec (.frtailWrite p v) s) (fun s' => s'.mem = s.mem ∧
    (s'.part p).frtail = v.setWidth 32 ∧ (s'.part p).frhead = (s.part p).frhead ∧ ∀ k, k ≠ p → s'.part k = s.part k)

/-- R119-R125, R133: the journal of a cluster's oldest epoch holds the bytes of its lines, releases them, and has its seals
written, STATE 1 for an epoch of one tile, which is durable then, and 0 for a domain's; the confirmation of a domain's epoch writes
STATE 1 into its latest seals in every cluster, and it is durable; a durable epoch's semaphores have their increments. An applied
epoch leaves the queue: each line record of the journal stands in its home image, the slots' control images are taken, and the
seals hold STATE 2. Only the shadow plane changes: every location below it stands, and, the cluster's epochs being no greater
than R110 lets them be, every location above it. -/
def Obligations.EpochsBecomeDurable : Prop :=
  ∀ (s : State) (e : Epoch) (rest : List Epoch), (s.cluster s.cur.cluster).epochs = e :: rest →
    let cl := s.cur.cluster
    let small (c : Nat) : Prop := c < 208 ∧ s.seatOf c < 208 ∧ ∀ x ∈ (s.cluster c).epochs, (∀ p ∈ x.parts, p.tile < 4) ∧
      (x.parts.map (fun p => p.lines.length + 68)).sum ≤ 2 ^ 20
    let bounded : Prop := small cl ∧ ∀ d, s.dom? s.cur.dom = some d → ∀ c ∈ d.clusterList, small c
    let kept (s' : State) : Prop := ∀ x, x < 7 * 2 ^ 48 ∨ (bounded ∧ 8 * 2 ^ 48 ≤ x) → s'.readByte x = s.readByte x
    let lines := e.parts.flatMap (fun p => p.lines)
    let sealAt (c : Nat) (p : EpochPart) (b : Nat) : Nat := locShadow (s.seatOf c) (planeSeal p.tile p.slot b)
    let signalled (s' : State) (seq : Nat) (p : EpochPart) : Prop := ∀ d t n, s.dom? seq = some d → d.tile? p.lt = some t →
      p.sem = some n → ∃ d' t', s'.dom? seq = some d' ∧ d'.tile? p.lt = some t' ∧ ∀ o ∈ t'.sems.getD n.toNat [],
        o.kind = .pfence → o.tick = p.cutTick → o.lt = p.lt → o.arrived = true
    Completes (exec .epochJournal s) (fun s' => kept s' ∧
      (∀ l, l ∈ (s'.cluster cl).frozen ↔ l ∈ (s.cluster cl).frozen ∧ l ∉ lines) ∧
      (s'.cluster cl).epochs = { e with stage := if e.domain then .committed else .confirmed } :: rest ∧
      (e.domain = false → ∀ p ∈ e.parts, signalled s' e.seq p) ∧
      (s.memOk → ∀ p, e.parts = [p] →
        let b := sealAt cl p (match s.latestSeal cl p.tile p.slot with
          | some 0 => 1
          | _ => 0)
        Claims.number s' b 8 = s.nextSealSeq cl p.tile p.slot % 2 ^ 64 ∧ Claims.number s' (b + 8) 8 = e.halt % 2 ^ 64 ∧
        Claims.number s' (b + 16) 4 = p.epoch.toNat ∧ Claims.number s' (b + 40) 8 = s.seqOf e.seq % 2 ^ 64 ∧
        Claims.number s' (b + 60) 4 = (if e.domain then 0 else 1) ∧
        (bounded → ∀ k l, p.recordLines[k]? = some (some l) → l + 256 ≤ 7 * 2 ^ 48 → p.recordLines.length ≤ 15000 →
          ∀ i < 256, s'.readByte (locShadow cl (planeJournal + 272 * k + 16) + i) = s.readByte (l + i)))) ∧
    (∀ d, s.dom? s.cur.dom = some d → Completes (exec .epochConfirm s) (fun s' => kept s' ∧
      ∀ c ∈ d.clusterList, ∀ x xs, (s.cluster c).epochs = x :: xs →
        (s'.cluster c).epochs = { x with stage := .confirmed } :: xs ∧ (∀ p ∈ x.parts, signalled s' x.seq p) ∧
        (s.memOk → bounded → ∀ p ∈ x.parts, ∀ b, s.latestSeal c p.tile p.slot = some b → Claims.number s' (sealAt c p b + 60) 4 = 1))) ∧
    Completes (exec .epochApplyDone s) (fun s' => kept s' ∧ (s'.cluster cl).epochs = rest ∧ (s'.cluster cl).journal = [] ∧
      (∀ p ∈ e.parts, ∀ i, p.ctrl = some i → (∀ q ∈ e.parts, ∀ j, q.ctrl = some j → j.tile = i.tile → j.slot = i.slot → q = p) →
        i ∈ (s'.cluster cl).images) ∧
      let n := (e.parts.map (fun p => p.lines.length + (if p.ctrl.isSome then 68 else 0))).sum
      let from_ (k : Nat) : Nat := locShadow cl (planeJournal + 272 * k)
      let home (k : Nat) : Nat := s.homeOf cl (Claims.number s (from_ k) 8)
      let apart (x m y w : Nat) : Prop := x + m ≤ y ∨ y + w ≤ x
      (s.memOk → (∀ k < n, apart (home k) 256 (from_ 0) (272 * n) ∧ (∀ h < n, h ≠ k → apart (home k) 256 (home h) 256) ∧
          ∀ p ∈ e.parts, ∀ b < 2, apart (home k) 256 (sealAt cl p b) 64) → small cl →
        (∀ p ∈ e.parts, ∀ b < 2, apart (sealAt cl p b) 64 (from_ 0) (272 * n)) →
        (∀ k < n, ∀ i < 256, s'.readByte (home k + i) = s.readByte (from_ k + 16 + i)) ∧
        ∀ p ∈ e.parts, ∀ b, s.latestSeal cl p.tile p.slot = some b → Claims.number s' (sealAt cl p b + 60) 4 = 2))

/-- R423, R424: a request of the master reaches the device: the host's own masters need an up link. -/
def Sys2Proof.Claims.Heard (s : State) (m : Nat) : Prop :=
  0x3F0 ≤ m → m ≤ 0x3FF → s.linkUp 0 = true ∨ s.linkUp 1 = true

/-- R432: the master may use the configuration window: a supervisor tile's always, others by V and CFG of their entry. -/
def Sys2Proof.Claims.CfgRight (s : State) (m : Nat) : Prop :=
  m ∈ [0x10F, 0x11F, 0x12F, 0x13F] ∨ ((s.maclOf m).getLsbD 0 = true ∧ (s.maclOf m).getLsbD 7 = true)

/-- R432: a request that its master's entry refuses counts in INTST.DENY, up to its greatest value. -/
def Sys2Proof.Claims.denied (s : State) : State :=
  { s with intst := if s.intst.toNat / 2 ^ 48 = 0xFFFF then s.intst else s.intst + BitVec.ofNat 64 (2 ^ 48) }

/-- R424, R426, R432: a write that the host alone may make. One that does not reach the device does nothing, one refused by its
master's entry is counted, one of another master is ignored, and one of the host does `P`. -/
def Sys2Proof.Claims.ByHost (s : State) (m : Nat) (i : Instr) (P : Prop) : Prop :=
  (¬Claims.Heard s m → exec i s = .next s) ∧
  (Claims.Heard s m → ¬Claims.CfgRight s m → exec i s = .next (Claims.denied s)) ∧
  (Claims.Heard s m → Claims.CfgRight s m → ¬(0x3F0 ≤ m ∧ m ≤ 0x3FF) → exec i s = .next s) ∧
  (Claims.Heard s m → Claims.CfgRight s m → 0x3F0 ≤ m → m ≤ 0x3FF → P)

/-- R127-R129, R390, R410, R412: the gating handshake of a cluster. Setting QREQ latches a quiesce request in each running domain
of the cluster; the clock is gated only under QACK, its capture ends in CLKOFF, and the rail goes off only from there with
the cluster sealed; a wake brings back the rail before OFF, on which every bank in use is restored from its image; clearing QREQ ends QACK,
SEALED and a SEAL still under way, and every domain that the quiesce alone halted, and that no other cluster holds quiesced,
resumes on its halt tick; one with another cause waits for its RTE (assumption 67). A field written out of turn changes nothing. -/
def Obligations.GatingHandshake : Prop :=
  ∀ (s : State) (cl : Nat) (vl : Bool),
    let c := s.cluster cl
    let set (f : Cluster → Cluster) : State := s.updCluster cl f
    let here (f : Cluster → Cluster) : State := s.updCluster s.cur.cluster f
    let off : Prop := c.rail = .off ∨ c.switching = some .off ∨ c.wakepend = true
    exec (.cpctlQreqSet cl) s = .next { (set (fun k => { k with cpctl := k.cpctl ||| 1 })) with
      domains := s.domains.map (fun d => if s.onCluster d cl = true ∧ d.phase = .running then d.raise ⟨d.dtick, 0, 8, 34, 0⟩ 0 else d) } ∧
    exec .quiesceAck s = .next (here (fun k => { k with qack := true })) ∧
    (c.qack = true → c.cpctl.getLsbD 1 = false → exec (.cpctlClkgateSet cl) s =
      .next (set (fun k => { k with cpctl := k.cpctl ||| 2, capturing := true }))) ∧
    (¬(c.qack = true ∧ c.cpctl.getLsbD 1 = false) → exec (.cpctlClkgateSet cl) s = .next s) ∧
    exec .retentionCaptureDone s = .next (here (fun k => { k with capturing := false, clkoff := true })) ∧
    (c.qack = true → c.rail ≠ .off → exec (.cpctlClkgateClear cl) s =
      .next (set (fun k => { k with cpctl := k.cpctl &&& ~~~2, capturing := false, clkoff := false }))) ∧
    (¬(c.qack = true ∧ c.rail ≠ .off) → exec (.cpctlClkgateClear cl) s = .next s) ∧
    (c.clkoff = true → c.sealed = true → c.rail ≠ .off → exec (.cpctlRailOff cl) s = .next (set (fun k => { k with
      cpctl := (k.cpctl &&& ~~~12) ||| 8
      before := k.rail
      switching := some .off }))) ∧
    (¬(c.clkoff = true ∧ c.sealed = true ∧ c.rail ≠ .off) → exec (.cpctlRailOff cl) s = .next s) ∧
    (¬off → exec (.cpctlRailSelect cl vl) s = .next (set (fun k => { k with
      cpctl := (k.cpctl &&& ~~~12) ||| (if vl then 4 else 0) }))) ∧
    (off → exec (.cpctlRailSelect cl vl) s = .next s) ∧
    (∀ r, (s.cluster s.cur.cluster).switching = some r → exec .railSwitchDone s =
      .next (here (fun k => { k with rail := r, switching := none }))) ∧
    (c.rail = .off → c.cpctl.getLsbD 4 = true → exec (.cpwake cl) s =
      .next (set (fun k => { k with wakepend := true, switching := some k.before }))) ∧
    (¬(c.rail = .off ∧ c.cpctl.getLsbD 4 = true) → exec (.cpwake cl) s = .next s) ∧
    (let h := s.cluster s.cur.cluster;
      s.cur.cluster < 256 → s.memOk → Completes (exec .wakeRestoreDone s) (fun s' => s'.domains = s.domains ∧
        (∃ k, k = s'.cluster s.cur.cluster ∧ k.rail = h.before ∧ k.clkoff = false ∧ k.wakepend = false ∧ k.banks = h.banks ∧
          k.cpctl.getLsbD 1 = false) ∧
        ∀ b < 16, (h.banks.getD b .free = .used ∨ h.banks.getD b .free = .leaving) → ∀ i < 2 ^ 19,
          s'.readByte (locBank s.cur.cluster b i) = s.readByte (locShadow s.cur.cluster (b * 2 ^ 19 + i)))) ∧
    (c.wakepend = false → c.rail ≠ .off → Completes (exec (.cpctlQreqClear cl) s) (fun s' => s'.mem = s.mem ∧
      (∃ k, k = s'.cluster cl ∧ k.cpctl = c.cpctl &&& ~~~1 ∧ k.qack = false ∧ k.sealed = false ∧ k.sealReq = false) ∧
      ∀ d ∈ s.domains,
        let resumes : Prop := s.onCluster d cl = true ∧ d.phase = .halted ∧ d.parked = false ∧ s.contextsHeld d = true ∧
          (∀ x ∈ d.causes, x.code = 34) ∧ (∀ x ∈ d.tiles, ∀ f ∈ x.flights, f.owed = false) ∧
          ∀ k ∈ s.runsOn d, k = cl ∨ (s.cluster k).cpctl.getLsbD 0 = false
        (resumes → Claims.resumed d ∈ s'.domains) ∧ (¬resumes → d ∈ s'.domains))) ∧
    (¬(c.wakepend = false ∧ c.rail ≠ .off) → exec (.cpctlQreqClear cl) s = .next s)

/-- R412-R417, R386-R388: the host alone writes the cap and the floors (as its function 0x3F0 here, assumption 93). The cap is refused below 180 W and below 180 W and the
floors, its status counting the write, and is in force for the module from the next boundary of any die (assumption 19); a floor is ignored when the cap in force
could not hold it; a boost waits for its next boundary; a control interval puts a tripped
cluster on VL at the slowest pace without its boost and leaves other dies' clusters alone; PWRLOG and SVHALT give and drop
their oldest entry; LATHDR and LATDATA change only an owed latch of the frame that SVSEL names, and FEND makes its task
fatal. -/
def Obligations.PowerAndFrameRegisters : Prop :=
  (∀ (s : State) (v : BitVec 64) (p : Nat) (die : Nat),
    let w : Nat := min (v.toNat % 2 ^ 16) 3200
    let floors : Nat := (s.parts.map (fun p => p.pfloor.toNat)).sum
    let code : Nat := if w < 180 then 1 else if w < 180 + floors then 2 else 0
    let status : W64 := BitVec.ofNat 64 ((s.pcapst.toNat / 256 % 256 + 1) % 256 * 256 + code)
    let set : State := s.updPart p (fun q => { q with pfloor := v.setWidth 16 })
    let held : Prop := 180 + (set.parts.map (fun p => p.pfloor.toNat)).sum ≤ min s.capNow.toNat 3200
    let count := v.toNat / 256 % 256
    let cl := v.toNat % 256
    Claims.ByHost s 0x3F0 (.pcapWrite v) (Completes (exec (.pcapWrite v) s) (fun s' => s'.mem = s.mem ∧ s'.pcapst = status ∧
      s'.clusters = s.clusters ∧ s'.capNow = s.capNow ∧ s'.pcap = (if code = 0 then v.setWidth 16 else s.pcap))) ∧
    Claims.ByHost s 0x3F0 (.pfloorWrite p v) ((held → exec (.pfloorWrite p v) s = .next set) ∧
      (¬held → exec (.pfloorWrite p v) s = .next s)) ∧
    (count = 0 ∨ 192 ≤ cl → exec (.boostWrite v) s = .next s) ∧
    (count ≠ 0 → cl < 192 → exec (.boostWrite v) s = .next (s.updCluster cl (fun k => { k with boostNew := some count }))) ∧
    (let le (x : W64) : List Byte := (List.range 8).map (fun k => BitVec.ofNat 8 (x.toNat / 256 ^ k));
      exec (.pwrlogRead die) s = .next { (s.updDie die (fun q => { q with pwrlog := q.pwrlog.tail })) with
        answers := s.answers ++ [.data (le ((s.die die).pwrlog.headD 0))] } ∧
      exec (.svhaltRead die) s = .next { (s.updDie die (fun q => { q with svhalt := q.svhalt.tail })) with
        answers := s.answers ++ [.data (le ((s.die die).svhalt.headD 0))] })) ∧
  (∀ (s : State) (die : Nat) (l : List Sensor) (cur : Bool), die < s.dies.length → Completes (exec (.controlInterval die l cur) s) (fun s' =>
    s'.mem = s.mem ∧ (s'.die die).intervals = (s.die die).intervals + 1 ∧ s'.pcap = s.pcap ∧ s'.capNow = s.pcap ∧
    (∀ c, c / 48 ≠ die ∨ 192 ≤ c → s'.cluster c = s.cluster c) ∧
    ∀ c < 192, c / 48 = die → (s.cluster c).railNext ≠ .off → (∃ r, readingOf l c = some r ∧ r.trip = true) →
      (s'.cluster c).request = 16 ∧ (s'.cluster c).railNext = .vl ∧ (s'.cluster c).boost = 0)) ∧
  ∀ (s : State) (die : Nat) (v : BitVec 64),
    (s.frameOf die = none → exec (.lathdrOwedClear die) s = .next s ∧ exec (.latdataWrite die v) s = .next s ∧
      exec (.fend die) s = .next s) ∧
    ∀ d t, s.frameOf die = some (d, t) →
      (Completes (exec (.fend die) s) (fun s' => s'.mem = s.mem ∧ s'.clusters = s.clusters ∧
        ∀ e ∈ s.domains, e.seq = d.seq → { e with fatal := true, endCode := some (match e.endCode, d.primary with
          | some c, _ => c
          | none, some p => p.code
          | none, none => 0) } ∈ s'.domains)) ∧
      ∀ x, d.selectedLatch t = some x →
        (x.owed = false → exec (.lathdrOwedClear die) s = .next s ∧ exec (.latdataWrite die v) s = .next s) ∧
        ∀ i, x.flight = some i → x.owed = true →
          exec (.lathdrOwedClear die) s = .next (s.updTile d.seq t.lt (fun t => { t with
            flights := upd t.flights i (fun f => { f with owed := false }) })) ∧
          exec (.latdataWrite die v) s = .next (s.updTile d.seq t.lt (fun t => { t with
            flights := upd t.flights i (fun f => f.setWord (t.latsel.extractLsb' 16 5).toNat v) }))

/-- R27, R86, R109, R373: an image of the descriptor covers byte o of the bank in window w of a tile. -/
def Sys2Proof.Claims.covers (i : Nat × Nat × Nat × List Byte) (t : Tile) (w o : Nat) : Prop :=
  (i.1 = 0xFFFF ∨ i.1 = t.lt) ∧ i.2.1 = w ∧ i.2.2.1 ≤ o ∧ o < i.2.2.1 + i.2.2.2.length

/-- R27, R85, R86, R109, R366, R373: what a bind leaves of a tile whose banks are its own: every byte of a bank and of its home
is that of the last image over it, else zero; the bank is in use with tag RAW; the accumulators, the B store and both homes
read zero, the slices RAW; the record store holds the records from slot 0 up and the constants from slot 4095 down; and the tile
runs the slot of the launch. -/
def Sys2Proof.Claims.Bound (s' : State) (d : Domain) (t : Tile) : Prop :=
  let dd := taskDesc d.pkt d.desc
  let c := s'.cluster t.cluster
  (∀ w b, w < 8 → t.bank? w = some b → b < 16 ∧ c.banks.getD b .free = .used ∧ c.tags.getD b Tag.raw = Tag.raw ∧
    ∀ o < 2 ^ 19, s'.readByte (locShadow t.cluster (b * 2 ^ 19 + o)) = s'.readByte (locBank t.cluster b o) ∧
      ((∀ i ∈ dd.images, ¬Claims.covers i t w o) → s'.readByte (locBank t.cluster b o) = 0) ∧
      ∀ l i r, dd.images = l ++ i :: r → Claims.covers i t w o → (∀ j ∈ r, ¬Claims.covers j t w o) →
        s'.readByte (locBank t.cluster b o) = i.2.2.2.getD (o - i.2.2.1) 0) ∧
  (∀ o < 2 ^ 17, s'.readByte (locAcc t.cluster t.idx t.slot o) = 0) ∧
  (∀ o < 2 ^ 20, s'.readByte (locB t.cluster t.idx t.slot o) = 0 ∧
    s'.readByte (locShadow t.cluster (2 ^ 23 + t.idx * 2 ^ 20 + o)) = 0) ∧
  (∀ o < 192 * 1024, s'.readByte (locShadow (s'.seatOf t.cluster)
    (12 * 2 ^ 20 + (2 * t.idx + t.slot.toNat) * 192 * 1024 + o)) = 0) ∧
  (∀ j < 64, c.slices.getD (sliceAt t.idx t.slot j) Tag.raw = Tag.raw) ∧
  (∀ k < dd.recs.length, 32 * dd.recs.length + 8 * dd.consts.length ≤ 2 ^ 15 →
    s'.readLE (locRec t.cluster t.idx t.slot (32 * k)) 32 = (dd.recs.getD k 0).toNat) ∧
  (∀ k < dd.consts.length, 32 * dd.recs.length + 8 * dd.consts.length ≤ 2 ^ 15 →
    s'.readLE (locRec t.cluster t.idx t.slot (8 * (4095 - k))) 8 = dd.consts.getD k 0 % 2 ^ 64) ∧
  c.activeB.getD t.idx t.slot = t.slot

/-- R86, R362, R364, R366, R367, R370-R375, R377: a post of the host needs its link up; a whole packet at an aligned offset from a master that may post it
arrives at the port, any other counts in LPDROP; the arrivals of a cycle enter the stream by their place, numbered on. A packet that passes its checks joins its queue and starts the
build of a new handle, or joins its die's supervisor launches; one that fails joins none. A task-end event frees its task.
The selected task becomes a domain on its clusters, each tile's windows its share of the cluster's lowest free banks; the
dies bind one by one, which zeroes the banks and their homes but for the descriptor's images, and accumulators, B store and
record store but for its records and constants; it starts at tick 0. A new launch's image of a tile's B store takes the home
that both slots share (assumption 105). -/
def Obligations.LaunchesFlowThroughTheStream : Prop :=
  (∀ (s : State) (port m o : Nat) (b : List Byte),
    let host : Prop := 0x3F0 ≤ m ∧ m ≤ 0x3FF
    let e := s.lpaclOf m
    let may : Prop := (m ∈ [0x10F, 0x11F, 0x12F, 0x13F] ∧ field b 3 1 / 2 % 2 = 1) ∨
      (e.getLsbD 0 = true ∧ (e.extractLsb' 16 16).getLsbD (field b 2 1) = true)
    (host → s.linkUp port = false → exec (.launchPost port m o b) s = .next s) ∧
    ((host → s.linkUp port = true) → b.length = 128 → o % 128 = 0 → may → exec (.launchPost port m o b) s = .next { s with
      arrivals := s.arrivals ++ [.packet port m (e.toNat / 16 % 16) b] }) ∧
    ((host → s.linkUp port = true) → ¬(b.length = 128 ∧ o % 128 = 0 ∧ may) → exec (.launchPost port m o b) s = .next { s with
      lpdrop := if s.lpdrop = 0xFFFFFFFFFFFFFFFF then s.lpdrop else s.lpdrop + 1 })) ∧
  (∀ (s : State), ∃ l : List Arrival, l.Perm s.arrivals ∧ l.Pairwise (fun a b => a.place ≤ b.place) ∧
    s.serialise = { s with
      arrivals := []
      stream := s.stream ++ (l.zipIdx s.nextSeq).map (fun x => match x.1 with
        | .packet _ m p pkt => .packet x.2 m p pkt
        | .taskEnd _ n => .taskEnd x.2 n)
      nextSeq := s.nextSeq + l.length }) ∧
  (∀ (s : State) (seq m p : Nat) (pkt : List Byte) (rest : List StreamEntry), s.stream = .packet seq m p pkt :: rest →
    (∀ code, ({ s with stream := rest } : State).checkPacket m p pkt = .error code → Completes (exec .packetApply s) (fun s' =>
      s'.stream = rest ∧ s'.queues = s.queues ∧ s'.domains = s.domains ∧ s'.leases = s.leases)) ∧
    (∀ bs d, ({ s with stream := rest } : State).checkPacket m p pkt = .ok (bs, d) → field pkt 3 1 / 2 % 2 = 0 →
      Completes (exec .packetApply s) (fun s' => s'.stream = rest ∧ s'.queues = s.queues ++ [⟨seq, pkt, bs, p, m⟩] ∧
        s'.domains = s.domains ∧ ((field pkt 3 1 % 2 = 1 ∨ ∃ l ∈ s.leases, l.handle = field pkt 6 2) → s'.leases = s.leases) ∧
        (field pkt 3 1 % 2 = 0 → (∀ l ∈ s.leases, l.handle ≠ field pkt 6 2) → ∃ l, s'.leases = s.leases ++ [l] ∧
          l.handle = field pkt 6 2 ∧ l.part = p ∧ l.state = .building ∧ l.at_ = (0, 0) ∧ l.ranges = d.ranges))) ∧
    (∀ bs d, ({ s with stream := rest } : State).checkPacket m p pkt = .ok (bs, d) → field pkt 3 1 / 2 % 2 = 1 →
      field pkt 84 1 < s.dies.length → Completes (exec .packetApply s) (fun s' => s'.stream = rest ∧ s'.queues = s.queues ∧
        (s'.die (field pkt 84 1)).supWaiting = (s.die (field pkt 84 1)).supWaiting ++ [⟨seq, pkt, bs, p, m⟩]))) ∧
  (∀ (s : State) (k n : Nat) (rest : List StreamEntry), s.stream = .taskEnd k n :: rest → Completes (exec .taskEndEvent s) (fun s' =>
    s'.mem = s.mem ∧ s'.stream = rest ∧ (∀ d ∈ s'.domains, d.seq = n → d.phase = .freed) ∧
    ∀ d ∈ s.domains, d.seq ≠ n → d.phase ≠ .freed → (∀ e ∈ s.domains, e.seq = d.seq → e = d) → d ∈ s'.domains)) ∧
  (∀ (s : State),
    (∀ d l, s.dom? s.cur.dom = some d → d.phase = .binding l → Completes (exec .taskBind s) (fun s' => ∃ d', s'.dom? s.cur.dom = some d' ∧
      d'.tiles = d.tiles ∧ d'.phase = if l.filter (· != s.cur.die) = [] then .starting else .binding (l.filter (· != s.cur.die)))) ∧
    (∀ d l t, s.dom? s.cur.dom = some d → d.phase = .binding l → d.tiles = [t] → dieOf t.cluster = s.cur.die → s.memOk →
      t.idx < 4 → t.cluster < 256 → (s.cluster t.cluster).banks.length = 16 → (s.cluster t.cluster).tags.length = 16 →
      (s.cluster t.cluster).loose = [] → (∀ w b, t.bank? w = some b → w < 8 ∧ b < 16 ∧ ∀ v, t.bank? v = some b → v = w) →
      (∀ i ∈ (taskDesc d.pkt d.desc).images, i.2.2.1 + i.2.2.2.length ≤ 2 ^ 19) →
      Completes (exec .taskBind s) (fun s' => Claims.Bound s' d t)) ∧
    (∀ k cls, s.dom? s.cur.dom = none → s.selected = some k.seq → s.queues.find? (fun x => x.seq == k.seq) = some k →
      s.placeTask k = some cls → Completes (exec .taskBind s) (fun s' => s'.mem = s.mem ∧
        s'.queues = s.queues.filter (fun x => x.seq != k.seq) ∧ ∃ d, s'.domains = s.domains ++ [d] ∧ d.seq = k.seq ∧
          d.pkt = k.pkt ∧ d.dtick = 0 ∧ d.phase = .binding (cls.map dieOf).eraseDups ∧ d.tiles.length = 4 * cls.length ∧
          (∀ t ∈ d.tiles, ∀ w < 8, t.wins.getD w .empty = if w < field k.pkt 4 1 then
            (match (s.freeBanks t.cluster)[field k.pkt 4 1 * t.idx + w]? with | some b => .att b | none => .empty) else .empty) ∧
          (∀ t ∈ d.tiles, ∀ w b, t.bank? w = some b → (s.cluster t.cluster).banks.length = 16 →
            (s'.cluster t.cluster).banks.getD b .free = .used) ∧
          ∀ t ∈ d.tiles, t.s = List.replicate 32 0 ∧ t.sqQ = [] ∧ t.flags = 0 ∧ t.sems = List.replicate 16 [] ∧
            t.preds = List.replicate 8 ⟨false, false⟩ ∧ t.engines = List.replicate 4 ⟨[], none, none⟩)) ∧
    (∀ q d, s.dom? s.cur.dom = none → s.selected = some q → s.queues.find? (fun x => x.seq == q) = none → s.dom? q = some d →
      s.slotsBack d = true → (∀ t ∈ d.tiles, t.badBlock = false) → Completes (exec .taskBind s) (fun s' => s'.mem = s.mem ∧ ∃ d', s'.dom? q = some d' ∧
        d'.phase = .running ∧ d'.parked = false ∧ d'.causes = [] ∧ d'.dtick = d.dtick)) ∧
    (∀ d, s.dom? s.cur.dom = some d → Completes (exec .domainStart s) (fun s' => s'.mem = s.mem ∧ s'.clusters = s.clusters ∧
      ∃ d', s'.dom? s.cur.dom = some d' ∧ d'.phase = .running ∧ d'.tiles = d.tiles ∧ d'.dtick = d.dtick ∧
        (d'.causes = d.causes ∨ d'.causes = d.causes ++ [⟨d.dtick, 0, 8, 34, 0⟩]))) ∧
    ∀ k rest, (s.die s.cur.die).supWaiting = k :: rest → s.cur.die < s.dies.length → Completes (exec .supLaunchBind s) (fun s' =>
      (s'.die s.cur.die).supWaiting = rest ∧ (s'.die s.cur.die).fwParked = true ∧ s'.queues = s.queues ∧
      ∃ d, s'.domains = s.domains ++ [d] ∧ d.seq = k.seq ∧ d.sup = true ∧ d.phase = .starting ∧ d.dtick = 0 ∧
        d.tiles.map (fun t => t.cluster) = [192 + s.cur.die]))

/-- R394-R398, R400, R401, R423, R426, R427, R432: a flit of a reserved network is dropped and counted, and its transfer
loses it; a unicast one goes along x by the shorter way, the positive one at a distance of four, then along y, and ends at its
node, where its check is made. A flit with MC = 1 may write the destinations of its collectives, and none changes another byte. A
flit goes on only into a pool with a free buffer, and with two where it enters a ring. A multicast entry is written
unless its MCID is bound. An up link does not train; a training that reaches stage 4 brings a link up, on which a boot that
waits at stage 5 goes on, and its fall counts in ERRS up to 15. A register write by a master that may not use the window counts
in INTST.DENY and is dropped; others take effect as the register allows, MRDAT with the supervisor's right. That PCAP is at
offset 0x1000, and FRBASE and FRHEAD of partition n at 0x4000 + 128n and 0x4010 + 128n, is assumption 27, that FRBASE keeps any
value 98, what a lost flit ends 68 and 112. -/
def Obligations.RoutersLinksAndRegisters : Prop :=
  (∀ (s : State) (die node : Nat) (p : Port) (h : BitVec 128) (b : List Byte),
    let vn := h.toNat % 4
    let dest := h.toNat / 2 ^ 8 % 256
    let x := (dest / 4 % 8 + 8 - node % 8) % 8
    let y := (dest / 32 + 8 - node / 8 % 8) % 8
    let out : Port := if x ≠ 0 then (if x ≤ 4 then .e else .w) else if y ≤ 4 then .n else .s
    let granule := (b ++ List.replicate 128 0).take 128
    let drop : State := s.updDie die (fun q => { q with dropped := q.dropped + 1 })
    Completes (exec (.flitReceive die node p h b) s) (fun s' =>
      (h.getLsbD 24 = false → s'.mem = s.mem ∧ s'.clusters = s.clusters) ∧
      (h.getLsbD 24 = true ∨ vn = 2 →
        s'.domains.map (fun d => { d with lostFlits := [] }) = s.domains.map (fun d => { d with lostFlits := [] })) ∧
      (s.memOk → ∀ z, (∀ d ∈ s.domains, ∀ g i ms m t r bk, d.members g i = some ms → ms[m]? = some (t, r) →
          t.bank? (fieldAt r.bits 94 3) = some bk →
          z < Claims.chorusDst (t, r) bk ∨ Claims.chorusDst (t, r) bk + r.receives ms.length m ≤ z) →
        s'.readByte z = s.readByte z)) ∧
    (p = .loc → h.getLsbD 24 = false →
      let lost (s' : State) : Prop := s'.dies = drop.dies ∧ (s.domains = [] → s' = drop)
      let own : Prop := vn ≠ 3 ∧ dest % 4 = die ∧ node < 64 ∧ Config.typeReserved (h.extractLsb' 2 6) = false
      (vn = 3 ∨ Config.typeReserved (h.extractLsb' 2 6) = true → Completes (exec (.flitReceive die node p h b) s) lost) ∧
      (own → x = 0 → y = 0 → crc32c granule = h.extractLsb' 96 32 → exec (.flitReceive die node p h b) s = .next s) ∧
      (own → x = 0 → y = 0 → crc32c granule ≠ h.extractLsb' 96 32 → Completes (exec (.flitReceive die node p h b) s) lost) ∧
      (own → ¬(x = 0 ∧ y = 0) → exec (.flitReceive die node p h b) s = .next
        (s.updDie die (fun q => { q with flits := q.flits ++ [⟨node, .loc, h, granule, [out]⟩] }))))) ∧
  (∀ (s : State) (die node : Nat) (out : Port) (f : FlitAt), s.nextFlit die node out = some f →
    f ∈ (s.die die).flits ∧ f.node = node ∧ out ∈ f.outs ∧ ∃ d n p, receiver die node out = some (d, n, p) ∧
      let used := ((s.die d).flits.filter (fun g => g.node == n && g.from_ == p && g.header.toNat % 4 == f.header.toNat % 4)).length
      (p ∈ [.e, .w, .n, .s] → used < 4 ∧ ((f.from_, out) ∉ [(.w, .e), (.e, .w), (.s, .n), (.n, .s)] → used < 3)) ∧
      (p ∈ [.bridge 0, .bridge 1, .bridge 2] → used < 16)) ∧
  (∀ (s : State) (die : Nat) (v : BitVec 64), die < s.dies.length →
    let i := (s.die die).mctidx.toNat
    (s.mcidBound die (i % 256) = true → exec (.mctdatWrite die v) s = .next s) ∧
    (s.mcidBound die (i % 256) = false → Completes (exec (.mctdatWrite die v) s) (fun s' => s'.mem = s.mem ∧
      s'.mcEntry die (i / 256 % 64) (i % 256) = v.setWidth 16 &&& 0x81DF ∧
      ∀ e n k, (e ≠ die ∨ n ≠ i / 256 % 64 ∨ k ≠ i % 256) → s'.mcEntry e n k = s.mcEntry e n k))) ∧
  (∀ (s : State) (l : Nat) (r : Training), l < s.lnkst.length →
    let waits : Prop := s.bootst.toNat % 256 = 5
    let s1 := s.train l r
    (s.linkUp l = true → ¬(waits ∧ (s.linkUp 0 = true ∨ s.linkUp 1 = true)) → exec (.linkTraining l r) s = .next s) ∧
    (waits → s1.linkUp 0 = true ∨ s1.linkUp 1 = true → Completes (exec (.linkTraining l r) s) (fun s' =>
      if s1.imageOk (locFlash 0) then s'.bootst.toNat % 16 = 7 else s'.bootst.toNat = 0x68)) ∧
    (s.linkUp l = false → Completes (exec (.linkTraining l r) s) (fun s' => s'.mem = s.mem ∧
      (∀ k, k ≠ l → s'.lnkst.getD k 0 = s.lnkst.getD k 0) ∧
      (s'.linkUp l = true ↔ r.stage = 4 ∧ (r.width = 4 ∨ r.width = 8 ∨ r.width = 16) ∧ 1 ≤ r.rate.toNat ∧ r.rate.toNat ≤ 3))) ∧
    (s.linkUp l = false → exec (.rentanLinkDown l) s = .next s) ∧
    (s.linkUp l = true → Completes (exec (.rentanLinkDown l) s) (fun s' => s'.mem = s.mem ∧
      (s'.lnkst.getD l 0).toNat = min 15 ((s.lnkst.getD l 0).toNat / 2 ^ 12 % 16 + 1) * 2 ^ 12))) ∧
  ∀ (s : State) (m o die : Nat) (v : BitVec 64),
    let sup : Prop := m ∈ [0x10F, 0x11F, 0x12F, 0x13F]
    let host : Prop := 0x3F0 ≤ m ∧ m ≤ 0x3FF
    let cfg : Prop := Claims.CfgRight s m
    let reach : Prop := Claims.Heard s m
    let write (t : State) : Prop := exec (.registerWrite m o v) s = .next t
    (¬reach → write s) ∧
    (reach → ¬cfg → write (Claims.denied s)) ∧
    (reach → cfg →
      (o = 0x1000 → host → Completes (exec (.registerWrite m o v) s) (fun s' => s'.mem = s.mem ∧ s'.clusters = s.clusters ∧
        s'.capNow = s.capNow ∧ (Claims.CfgRight s 0x3F0 → exec (.pcapWrite v) s = .next s'))) ∧
      (o = 0x1000 → ¬host → write s) ∧
      (∀ n < 16, o = 0x2000 + 32 * n → host → Completes (exec (.registerWrite m o v) s) (fun s' => s'.mem = s.mem ∧
        (n < s.egress.length → (s'.egress.getD n (0, 0, 0)) = (v &&& 0x0000FFFFFFE000F3, (s.egress.getD n (0, 0, 0)).2)))) ∧
      (∀ n < 16, o = 0x4000 + 128 * n → (sup ∨ host) → write (s.updPart n (fun q => { q with frbase := v }))) ∧
      (∀ n < 16, o = 0x4010 + 128 * n → write s) ∧
      (∀ n < 16, o = 0x4800 + 8 * n → (sup ∨ host) → write { s with lqrank := upd s.lqrank n (fun _ => v.setWidth 4) }) ∧
      (o = 0x4880 → (sup ∨ host) → write { s with lpdrop := v }) ∧
      (∀ n < 192, o = 0x9000 + 8 * n → sup → write { s with partmap := setAssoc s.partmap n (v &&& 0x1F) }) ∧
      (∀ n < 192, o = 0x9000 + 8 * n → ¬sup → write s)) ∧
    (∀ d < 4, ∀ k < 16, (s.die die).mrsel.toNat = 0x10000 * (d + 1) + 8 * k →
      exec (.mrdatWrite die v) s = .next (s.updDie d (fun q => { q with ptroot := upd q.ptroot k (fun _ => v) })))

/-- R424, R425, R432, R434, R438: an aperture request without its MACL right is refused: a read with an error completion, a write
dropped, both counted in INTST.DENY. A read that its page carries answers its bytes and a write leaves them there. A mailbox
takes no command while one is posted; ATTEST of a 32-byte nonce answers the report once the device is READY, and the
firmware answers a posted command of its own. A read over granules that fail their check answers all its bytes with the poison
marker on those granules, each counted in INTST.POISON; a write that would merge with one does not land (18 R433). ATTEST is an
access of host function 0x3F0 (assumption 93), and its answer carries the whole report beyond the buffer (assumption 25). -/
def Obligations.ApertureAndMailbox : Prop :=
  (∀ (s : State) (m n : Nat) (a : BitVec 50) (bs : List Byte) (p : Place),
    let e := s.maclOf m
    let part := e.toNat / 2 ^ 8 % 16
    let va : W64 := BitVec.ofNat 64 (a.toNat / 2 ^ 48 * 2 ^ 61 + a.toNat % 2 ^ 48)
    let reach : Prop := Claims.Heard s m
    let denied : State := Claims.denied s
    (¬reach → exec (.apertureAccess m (.memRead a n)) s = .next s ∧ exec (.apertureAccess m (.memWrite a bs)) s = .next s) ∧
    (reach → ¬(e.getLsbD 0 = true ∧ e.getLsbD 5 = true) →
      exec (.apertureAccess m (.memRead a n)) s = .next { denied with answers := denied.answers ++ [.error] }) ∧
    (reach → ¬(e.getLsbD 0 = true ∧ e.getLsbD 6 = true) → exec (.apertureAccess m (.memWrite a bs)) s = .next denied) ∧
    (reach → e.getLsbD 0 = true → e.getLsbD 5 = true → 0 < n → a.toNat % 4096 + n ≤ 4096 →
      resolve s part m .report false va = .ok p → p.discarded = false → s.sound [(p.loc, n)] = true →
      exec (.apertureAccess m (.memRead a n)) s = .next { s with answers := s.answers ++ [.data (s.readBytes p.loc n)] }) ∧
    (reach → e.getLsbD 0 = true → e.getLsbD 5 = true → 0 < n → a.toNat % 4096 + n ≤ 4096 →
      resolve s part m .report false va = .ok p → p.discarded = false → s.sound [(p.loc, n)] = false →
      Completes (exec (.apertureAccess m (.memRead a n)) s) (fun s' => s'.mem = s.mem ∧
        ∃ gs, s'.answers = s.answers ++ [.poisoned (s.readBytes p.loc n) gs] ∧ gs.length = (s.flawsIn [(p.loc, n)]).length ∧
          s'.intst.toNat / 2 ^ 32 % 2 ^ 16 = min 0xFFFF (s.intst.toNat / 2 ^ 32 % 2 ^ 16 + gs.length))) ∧
    (reach → e.getLsbD 0 = true → e.getLsbD 6 = true → bs ≠ [] → a.toNat % 4096 + bs.length ≤ 4096 →
      resolve s part m .report true va = .ok p → p.discarded = false → s.mergeSound (p.loc, bs.length) = false →
      Completes (exec (.apertureAccess m (.memWrite a bs)) s) (fun s' => s'.mem = s.mem ∧ s'.answers = s.answers ++ [.error])) ∧
    (reach → e.getLsbD 0 = true → e.getLsbD 6 = true → bs ≠ [] → a.toNat % 4096 + bs.length ≤ 4096 → s.memOk →
      resolve s part m .report true va = .ok p → p.discarded = false → s.mergeSound (p.loc, bs.length) = true →
      Completes (exec (.apertureAccess m (.memWrite a bs)) s) (fun s' => s'.answers = s.answers ∧
        (∀ k < bs.length, s'.readByte (p.loc + k) = bs.getD k 0) ∧
        ∀ x, x < p.loc ∨ p.loc + bs.length ≤ x → s'.readByte x = s.readByte x))) ∧
  ∀ (s : State) (l : List Byte) (bad : Bool), s.memOk →
    let go : Prop := s.mbctl.getLsbD 0 = true
    let ready : Prop := s.bootst.toNat % 16 = 9
    let cmd := s.readLE (locMail 0) 2
    Claims.ByHost s 0x3F0 (.attest l) ((go → exec (.attest l) s = .next s) ∧
      (¬go → ¬ready → Completes (exec (.attest l) s) (fun s' => s'.answers = s.answers ∧ s'.mbctl = s.mbctl ||| 1)) ∧
      (¬go → ready → l.length = 32 → Completes (exec (.attest l) s) (fun s' => s'.mbctl = 2 ∧
        ∃ r, s'.answers = s.answers ++ [.data r] ∧ r.length = 448 ∧ r.take 32 = toLE 32 s.imageHash.toNat ∧
          (r.drop 128).take 32 = l))) ∧
    (go → ready → cmd ≠ 1 → Completes (exec (.mailboxFirmwareCommand l bad) s) (fun s' =>
      s'.answers = s.answers ++ [.data l] ∧ s'.mbctl = (if bad then 6 else 2) ∧
      ∀ x, x < locMail 0x100 ∨ locMail 0x200 ≤ x → s'.readByte x = s.readByte x)) ∧
    (¬(go ∧ ready ∧ cmd ≠ 1) → exec (.mailboxFirmwareCommand l bad) s = .next s)

/-- R131, R428, R437, R439: a loss of power empties the live storage of the clusters it strikes, and of the fused ones they host
(R49), and of no other place, and leaves their domains to be recovered. A reset stops at stage 3 or 4 when the fuses or the HBM fail,
waits at stage 5 without a link, goes to RECOVERY without a good image and to stage 7 with one, with error 7 when a self-test
fails; the firmware that runs then reports READY. The host alone resets and loads by RESETC. In RECOVERY alone an image is
taken: a good one into the flash, a bad one discarded. Links that are both down train again. A cluster whose rail is off or
whose wake is pending keeps its storage. The next sequence number after a reset is 1 (R364). That the bytes of HBM read 0 after a reset is assumption 2, and the pairs of STAGE
and ERR are assumption 66. -/
def Obligations.ResetsAndRecovery : Prop :=
  (∀ (s : State) (cls : List Nat),
    let hit (c : Nat) : Prop := c ∈ cls ∧ c ∉ s.fused ∧ (s.cluster c).rail ≠ .off ∧ (s.cluster c).wakepend = false
    let gone (c : Nat) : Prop := hit c ∨ (c ∈ s.fused ∧ ∃ h, hostNode s.fused c = some h ∧ hit h)
    let struck (x : Nat) : Prop := ∃ c, liveCluster x = some c ∧ gone c
    Completes (exec (.unplannedPowerLoss cls) s) (fun s' =>
      (∀ x, struck x → s'.readByte x = 0) ∧ (∀ x, ¬struck x → s'.readByte x = s.readByte x) ∧
      ∀ d ∈ s.domains, d.phase = .running → (∃ t ∈ d.tiles, gone t.cluster) →
        (∀ e ∈ s.domains, e.seq = d.seq → e = d) →
        { d with phase := .lost, parked := s.parkedOut d } ∈ s'.domains)) ∧
  (∀ (s : State) (b : BootInputs) (m : Nat),
    let s1 := (s.afterReset.train 0 b.link0).train 1 b.link1
    let up : Prop := s1.linkUp 0 = true ∨ s1.linkUp 1 = true
    let boots (n err : Nat) : Prop := Completes (exec (.coldReset b) s) (fun s' => s'.bootst.toNat = err * 16 + n)
    Completes (exec (.coldReset b) s) (fun s' => s'.seqOf s'.nextSeq = 1) ∧
    (b.fuseOk = false → boots 3 3) ∧
    (b.fuseOk = true → b.hbmOk = false → boots 4 4) ∧
    (b.fuseOk = true → b.hbmOk = true → ¬up → boots 5 0) ∧
    (b.fuseOk = true → b.hbmOk = true → up →
      if s1.imageOk (locFlash 0) = true then boots 7 (if b.selfTestOk then 0 else 7) else boots 8 6) ∧
    (b.fuseOk = false → Completes (exec (.coldReset b) s) (fun s' => s'.parts = State.reset.parts ∧ s'.macl = State.reset.macl ∧
      s'.leases = [] ∧ s'.queues = [] ∧ s'.fused = s.fused ∧ (∀ x < 2 * 2 ^ 48, s'.readByte x = 0) ∧
      ∀ x, 7 * 2 ^ 48 ≤ x → x < 8 * 2 ^ 48 → s'.readByte x = s.readByte x)) ∧
    Claims.ByHost s m (.warmReset m b) (exec (.warmReset m b) s = exec (.coldReset b) s)) ∧
  (∀ (s : State), (Move.ready ∈ moves s ↔ s.bootst.toNat % 256 = 7) ∧ s.reportReady.bootst.toNat = 9) ∧
  (∀ (s : State) (m : Nat), s.memOk →
    let in_ : Prop := s.bootst.toNat % 16 = 8
    let n := s.imageLen (locRecovery 0)
    Claims.ByHost s m (.recoveryLoad m) ((¬in_ → exec (.recoveryLoad m) s = .next s) ∧
      (in_ → Completes (exec (.recoveryLoad m) s) (fun s' => if s.imageOk (locRecovery 0) = true
        then s'.bootst.toNat % 16 = 7 ∧ ∀ k < n, s'.readByte (locFlash 0 + k) = s.readByte (locRecovery 0 + k)
        else s'.bootst = s.bootst ∧
          ∀ x, s'.readByte x = if locRecovery 0 ≤ x ∧ x < locRecovery (2 ^ 19) then 0 else s.readByte x)))) ∧
  ∀ (s : State) (a b : Training),
    (s.linkUp 0 = true ∨ s.linkUp 1 = true → exec (.linkRetryTimer a b) s = .next s) ∧
    (s.linkUp 0 = false → s.linkUp 1 = false →
      let s1 := (s.train 0 a).train 1 b
      let up : Prop := s1.linkUp 0 = true ∨ s1.linkUp 1 = true
      (s.bootst.toNat % 256 ≠ 5 ∨ ¬up → exec (.linkRetryTimer a b) s = .next s1) ∧
      (s.bootst.toNat % 256 = 5 → up → Completes (exec (.linkRetryTimer a b) s) (fun s' =>
        if s1.imageOk (locFlash 0) then s'.bootst.toNat % 16 = 7 else s'.bootst.toNat = 0x68)))

/-- R201, R227, R228 and the order of moves (assumptions 1 and 7): an event from outside is taken first, then what has reached
the launch port; else, when one move is
possible, it is made, and when several are, the one that the schedule names. A word that is made is the one that its
column's stream decodes to at its tick; its stream has gone past the word's halfwords, `cur` names its place, and nothing
else has changed when it is executed. -/
def Obligations.StepRunsTheDecodedWord : Prop :=
  (∀ (s : State) (i : Instr) (rest : List Instr), s.inputs = i :: rest → step s = exec i { s with inputs := rest }) ∧
  (∀ (s : State), s.inputs = [] → s.arrivals ≠ [] → step s = .next s.serialise) ∧
  (∀ (s : State) (i : Instr) (c : Cur) (st : Stream), s.inputs = [] → s.arrivals = [] →
    (moves s = [.word i c st] → step s = exec i (issueWord i c st s)) ∧
    (moves s = [.event i c] → step s = exec i { s with cur := c }) ∧
    (Move.word i c st).make s = exec i (issueWord i c st s) ∧
    ∀ m n l, moves s = m :: n :: l → step s = ((moves s).getD (Config.schedule s.fresh % (l.length + 2)) m).make s.tickFresh) ∧
  (∀ (t : Tile) (c : Column) (st : Stream) (h : Half) (hs r : List Half) (i : Instr), t.badBlock = false →
    t.streams[colIdx c]? = some st → st.rest = h :: hs → decodeWord c (h :: hs) = .ok (i, r) →
    st.base + (if h.getLsbD 15 then h.toNat / 2 ^ 11 % 16 else h.toNat / 2 ^ 12 % 8) = t.btick →
    t.dueWord c = some (i, { st with
      rest := r
      ofs := st.ofs + (if h.getLsbD 15 then 2 else 1)
      last := st.ofs
      base := t.btick + 1 })) ∧
  (∀ (d : Domain) (i : Instr) (c : Cur) (st : Stream), wordMove d = some (.word i c st) →
    ∃ t ∈ d.tiles, ∃ col, t.dueWord col = some (i, st) ∧ c = { tileCur d t with col := col }) ∧
  ∀ (s : State) (d : Domain) (t : Tile) (i : Instr) (c : Cur) (st : Stream), s.dom? c.dom = some d → d.tile? c.lt = some t →
    let s' := issueWord i c st s
    s'.cur = c ∧ s'.mem = s.mem ∧ s'.clusters = s.clusters ∧ ∃ d' t', s'.At d' t' ∧ d'.dtick = d.dtick ∧ d'.causes = d.causes ∧
      { t' with lastF64 := t.lastF64 } = { t with streams := t.streams.set (colIdx c.col) st }

/-- R227, R234, R235, R238, R240, R241, R245, R249, R250: words written out from the encoding tables decode to the instructions
they stand for, each in its column. -/
def Obligations.WordsDecodeAsWritten : Prop :=
  decodeWord .sq [0b1000000100000001, 0b0100001000011100] = .ok (.add 0 (.reg 5) (.s 2) (.s 7), []) ∧
  decodeWord .sq [0b0101000000000111] = .ok (.skip 5 7, []) ∧
  decodeWord .sq [0b0000000010000011, 0b0000000010000001] = .ok (.inc 0 3, [0b0000000010000001]) ∧
  decodeWord .vx [0b0000000001000011] = .ok (.vput 0 3, []) ∧
  decodeWord .sq [0b1000000001010000, 0b0000000000000000] = .ok (.halt 0, []) ∧
  decodeWord .sq [0b1000000100000001] = .error .cutLongWord

/-- R227, R234-R250, R253: every well-formed word decodes, in its own column and whatever follows it in the stream, to the
instruction it encodes: no bit of an encoding is dropped. SKIP is a word of every column. -/
def Obligations.EncodedWordsDecodeToThemselves : Prop :=
  ∀ (c : Column) (i : Instr) (rest : List Half), i.wf = true → (i.column = some c ∨ ∃ g n, i = .skip g n) →
    decodeWord c (encode i ++ rest) = .ok (i, rest)

/-- R136 and the storage of the module (assumption 2): every step that goes on leaves the storage in its canonical form, its
locations rising and no byte listed that an unlisted location reads as. -/
def Obligations.StepKeepsTheStorageCanonical : Prop :=
  ∀ (s s' : State), s.memOk → step s = .next s' → s'.memOk

/-- R79, R370, R415, R432 and the reset columns they give: after reset the storage is canonical and lists no byte, the fault rings
are off, empty and of 64 records, queue q has rank q, the cap is 3,200 W, the host's masters 0x3F0 to 0x3FF alone may use
the configuration window, no master may launch, and no domain, lease or launch stands. -/
def Obligations.ResetLeavesTheStatedValues : Prop :=
  let s := State.reset
  s.memOk ∧ (∀ a, s.readByte a = 0) ∧
  (∀ p < 16, (s.part p).frbase = 0 ∧ (s.part p).frsize = 64 ∧ (s.part p).frhead = 0 ∧ (s.part p).frtail = 0 ∧
    (s.part p).frstat = 0 ∧ (s.part p).dwrite = 0) ∧
  (∀ q < 16, s.lqrank.getD q 0 = BitVec.ofNat 4 q) ∧ s.pcap = 3200 ∧ s.capNow = 3200 ∧
  (∀ m, s.maclOf m = if 0x3F0 ≤ m ∧ m ≤ 0x3FF then 0x81 else 0) ∧ (∀ m, s.lpaclOf m = 0) ∧
  s.domains = [] ∧ s.leases = [] ∧ s.queues = [] ∧ s.stream = [] ∧ s.arrivals = [] ∧ s.inputs = []

/-- R396: a unicast flit goes along its row to the destination x, then along its column to the destination y, each ring by its
shorter direction; at a distance of 4 it takes E on the row and N on the column; at its node it leaves the network. Its
port depends on nothing but the node it is at and its destination. -/
def Obligations.UnicastGoesAcrossThenUp : Prop :=
  ∀ (die x y : Nat) (h : BitVec 128), x < 8 → y < 8 → h.toNat / 2 ^ 8 % 4 = die →
    let dx := h.toNat / 2 ^ 10 % 8
    let dy := h.toNat / 2 ^ 13 % 8
    let port := unicastPort die (8 * y + x) h
    let east := (dx + 8 - x) % 8
    let north := (dy + 8 - y) % 8
    (dx = x → dy = y → port = .loc) ∧
    (dx = x → dy ≠ y → (north ≤ 4 → port = .n) ∧ (4 < north → port = .s)) ∧
    (dx ≠ x → (east ≤ 4 → port = .e) ∧ (4 < east → port = .w)) ∧
    ∀ g : BitVec 128, g.toNat / 2 ^ 8 % 256 = h.toNat / 2 ^ 8 % 256 → unicastPort die (8 * y + x) g = port

/-- R62: the station of a request is the exclusive OR, over i = 0 to 11, of virtual-address bits (14 + 3i):(12 + 3i), one of 0 to
7; two addresses of one page of 4 KiB share it, and some page larger than that is served by several. -/
def Obligations.StationIsTheFoldOfTheAddress : Prop :=
  (∀ va : Nat, stationOf va < 8 ∧ ∀ j < 3, (stationOf va).testBit j =
    (List.range 12).foldl (fun b i => b ^^ va.testBit (12 + 3 * i + j)) false) ∧
  (∀ a b : Nat, a / 4096 = b / 4096 → stationOf a = stationOf b) ∧
  ∀ k < 8, ∃ a : Nat, a < 65536 ∧ stationOf a = k

/-- R67: SZ codes 6 and 7 name no page size; a valid entry with SZ 6 at levels 0 to 2 is a table descriptor whose PPN names the next
level's table, every bit other than V, SZ and PPN zero; every valid level-0 entry must be a descriptor. -/
def Obligations.TableDescriptorsChainTheWalk : Prop :=
  ∀ (s : State) (die key va : Nat) (mode : WalkMode) (fuel level pa : Nat),
    let at_ := pa + 8 * (va / 2 ^ (39 - 9 * level) % 512)
    let e : W64 := BitVec.ofNat 64 (s.readLE (locHbm die at_) 8)
    let go := walkFrom s die key va mode (fuel + 1) level pa
    let sz := e.toNat / 2 ^ 8 % 8
    let ppn := e.toNat / 2 ^ 20 % 2 ^ 37
    (∀ l f b n, go = .ok l f b n → f.toNat / 2 ^ 8 % 8 < 6) ∧
    (s.sound [(locHbm die at_, 8)] = true → e.getLsbD 0 = true →
      (sz = 6 → level ≤ 2 → e &&& ~~~0x01FFFFFFFFF00701 = 0 → ppn < 2 ^ 25 →
        go = walkFrom s die key va mode fuel (level + 1) (ppn * 4096)) ∧
      (sz = 6 → level ≤ 2 → e &&& ~~~0x01FFFFFFFFF00701 ≠ 0 → ∃ c, go = .bad c level e at_) ∧
      (level = 0 → sz ≠ 6 → ∃ c, go = .bad c 0 e at_))

/-- R182, R183, R185, R297, R298, R301, R305, R306, R308, R309, R316, R319: the results that the statements of the vector and
function words take from the functions of the number formats. In FP32 and FP64, and under each of the five modes, the sum,
difference, product, fused sum, quotient, reciprocal, root and inverse root of finite operands is the exact value rounded once, and
so are the scaling, the conversions, the QNT8 product and the integral values; an exact zero takes the sign of its rule and raises
nothing. The transcendental functions are assumption 12 and have no clause here. -/
def Sys2Proof.Claims.FiniteResultsRoundOnce : Prop :=
  (∀ (f : FpFormat) (mode : Rm), f = fp32F ∨ f = fp64F → mode ≠ .dyn →
    let val (a : Nat) : ℝ := Claims.real f a
    let fin (a : Nat) : Prop := Claims.finite f a
    let neg (a : Nat) : Bool := Claims.negative f a
    let sign (b : Bool) : Nat := if b then 2 ^ (f.ebits + f.fbits) else 0
    let rounds (x : ℝ) (r : Nat × Flg) : Prop := Claims.RoundsTo f f.infBits mode x r
    let sumSign (b c : Bool) : Bool := if b = c then b else decide (mode = .rdn)
    (∀ (sub : Bool) (a b : Nat), fin a → fin b →
      let x : ℝ := val a + (if sub then -1 else 1) * val b
      (x ≠ 0 → rounds x (f.add mode sub a b)) ∧
      (x = 0 → f.add mode sub a b = (sign (sumSign (neg a) (neg b ^^ sub)), 0))) ∧
    (∀ a b : Nat, fin a → fin b →
      (val a * val b ≠ 0 → rounds (val a * val b) (f.mul mode a b)) ∧
      (val a * val b = 0 → f.mul mode a b = (sign (neg a ^^ neg b), 0))) ∧
    (∀ (np nc : Bool) (a b c : Nat), fin a → fin b → fin c →
      let x : ℝ := (if np then -1 else 1) * (val a * val b) + (if nc then -1 else 1) * val c
      (x ≠ 0 → rounds x (f.fma mode np nc a b c)) ∧
      (x = 0 → f.fma mode np nc a b c = (sign (sumSign (neg a ^^ neg b ^^ np) (neg c ^^ nc)), 0))) ∧
    (∀ a b : Nat, fin a → fin b → val b ≠ 0 →
      (val a ≠ 0 → rounds (val a / val b) (f.div mode a b)) ∧
      (val a = 0 → f.div mode a b = (sign (neg a ^^ neg b), 0))) ∧
    (∀ a : Nat, fin a → val a ≠ 0 → rounds (1 / val a) (f.func .rcp mode a)) ∧
    (∀ a : Nat, fin a → 0 < val a → rounds (Real.sqrt (val a)) (f.func .sqrt mode a) ∧
      rounds (1 / Real.sqrt (val a)) (f.func .rsqrt mode a)) ∧
    (∀ a : Nat, fin a → ∃ n : ℤ, Claims.Integral mode (val a) n ∧ fin (f.rint mode a).1 ∧ val (f.rint mode a).1 = n ∧
      neg (f.rint mode a).1 = neg a ∧ (f.rint mode a).2 = if val a = n then 0 else fNX) ∧
    (∀ (a : Nat) (n : ℤ), fin a →
      (val a ≠ 0 → rounds (val a * 2 ^ n) (f.scalb mode a n)) ∧ (val a = 0 → f.scalb mode a n = (sign (neg a), 0)))) ∧
  (∀ (f g : FpFormat) (mode : Rm) (a : Nat), f ∈ [fp16F, bf16F, fp32F, fp64F] → g ∈ [fp16F, bf16F, fp32F, fp64F] → mode ≠ .dyn →
    Claims.finite g a →
    (Claims.real g a ≠ 0 → Claims.RoundsTo f f.infBits mode (Claims.real g a) (f.convert g mode a)) ∧
    (Claims.real g a = 0 → f.convert g mode a = (if Claims.negative g a then 2 ^ (f.ebits + f.fbits) else 0, 0))) ∧
  (∀ (mode : Rm) (x : ℤ), mode ≠ .dyn → x ≠ 0 → Claims.RoundsTo fp32F fp32F.infBits mode x (intToFp32 mode x)) ∧
  (∀ (mode : Rm) (a : Nat), mode ≠ .dyn → Claims.finite fp32F a → ∃ n : ℤ, Claims.Integral mode (Claims.real fp32F a) n ∧
    fp32ToInt mode a = if 2 ^ 31 ≤ n then (0x7FFFFFFF, fNV) else if n < -2 ^ 31 then (0x80000000, fNV)
      else (BitVec.ofInt 32 n, if Claims.real fp32F a = n then 0 else fNX)) ∧
  ∀ (e5 sat : Bool) (a b : Nat), Claims.finite fp32F a → Claims.finite fp32F b →
    let f := if e5 then e5m2F else e4m3F
    let top := if e5 then 0x7C else 0x7F
    let narrows (x : ℝ) (r : Nat × Flg) : Prop := ∃ q, Claims.RoundsTo f top .rne x q ∧
      r = if sat ∧ q.1 % 128 = top then (q.1 - 1, fSAT ||| fNX) else q
    (Claims.real fp32F a ≠ 0 → narrows (Claims.real fp32F a) (fp32ToFp8 e5 sat a)) ∧
    ((Claims.real fp32F a * Claims.real fp32F b : ℝ) ≠ 0 →
      narrows (Claims.real fp32F a * Claims.real fp32F b) (mulToFp8 e5 sat a b))

/-- R173, R184, R185, R297, R298, R301, R302, R304-R306, R309, R320: special operands, and orders. A NaN result is the quiet form of
the first NaN operand, with NV for a signalling one; an infinity minus itself, zero times an infinity and the other invalid cases are
the canonical NaN with NV; the other results of infinities and zeros are those of their tables. The minima and maxima give
the lesser and the greater operand, −0 below +0, unrounded, and their Number forms the operand that is no NaN; the compares hold
by value, +0 equal to −0, false with a NaN but for the unordered one. Conversions keep sign and payload, narrowed or widened and
quieted, FP8 and INT32 as their rules say. -/
def Sys2Proof.Claims.SpecialOperandsAndOrders : Prop :=
  let nan (f : FpFormat) (a : Nat) : Prop := f.infBits < a % 2 ^ (f.ebits + f.fbits)
  let sig (f : FpFormat) (a : Nat) : Prop := nan f a ∧ a % 2 ^ f.fbits < 2 ^ (f.fbits - 1)
  let inf (f : FpFormat) (a : Nat) : Prop := a % 2 ^ (f.ebits + f.fbits) = f.infBits
  let zero (f : FpFormat) (a : Nat) : Prop := a % 2 ^ (f.ebits + f.fbits) = 0
  let sign (f : FpFormat) (b : Bool) : Nat := if b then 2 ^ (f.ebits + f.fbits) else 0
  let neg := Claims.negative
  let flagged (p : Prop) (fl : Flg) : Prop := (p → fl = fNV) ∧ (¬p → fl = 0)
  (∀ (f : FpFormat) (mode : Rm), f = fp32F ∨ f = fp64F → mode ≠ .dyn →
    let pattern (a : Nat) : Prop := a < 2 ^ (f.ebits + f.fbits + 1)
    let quiet (a : Nat) : Nat := a ||| 2 ^ (f.fbits - 1)
    let invalid : Nat × Flg := (f.infBits + 2 ^ (f.fbits - 1), fNV)
    let infinity (b : Bool) : Nat := sign f b + f.infBits
    let one := f.bias * 2 ^ f.fbits
    (∀ a b c : Nat, pattern a → pattern b → pattern c →
      let noNan : Prop := ¬nan f a ∧ ¬nan f b
      let fails : Prop := (inf f a ∧ zero f b) ∨ (zero f a ∧ inf f b)
      let product : Bool := neg f a ^^ neg f b
      let below (x y : Nat) : Prop := (inf f x ∧ neg f x = true ∧ x ≠ y) ∨ (inf f y ∧ neg f y = false ∧ x ≠ y) ∨
        (Claims.finite f x ∧ Claims.finite f y ∧ Claims.real f x < Claims.real f y)
      let equal (x y : Nat) : Prop := x = y ∨ (zero f x ∧ zero f y)
      let before (x y : Nat) : Prop := below x y ∨ (zero f x ∧ zero f y ∧ neg f x = true ∧ neg f y = false)
      (∀ g ∈ [f.add mode false, f.add mode true, f.mul mode, f.div mode, f.minmax false, f.minmax true],
        (nan f a → (g a b).1 = quiet a) ∧ (¬nan f a → nan f b → (g a b).1 = quiet b) ∧
        (nan f a ∨ nan f b → flagged (sig f a ∨ sig f b) (g a b).2)) ∧
      (∀ np nc : Bool,
        (nan f a → (f.fma mode np nc a b c).1 = quiet a) ∧ (¬nan f a → nan f b → (f.fma mode np nc a b c).1 = quiet b) ∧
        (noNan → nan f c → (f.fma mode np nc a b c).1 = quiet c) ∧
        (nan f a ∨ nan f b ∨ nan f c → flagged (sig f a ∨ sig f b ∨ sig f c ∨ fails) (f.fma mode np nc a b c).2) ∧
        (noNan → ¬nan f c →
          (fails → f.fma mode np nc a b c = invalid) ∧
          (¬fails → inf f a ∨ inf f b → f.fma mode np nc a b c =
            if inf f c ∧ (neg f c ^^ nc) ≠ (product ^^ np) then invalid else (infinity (product ^^ np), 0)) ∧
          (¬(inf f a ∨ inf f b) → inf f c → f.fma mode np nc a b c = (infinity (neg f c ^^ nc), 0)))) ∧
      (noNan →
        (∀ sub : Bool, (inf f a → f.add mode sub a b = if inf f b ∧ neg f a ≠ (neg f b ^^ sub) then invalid else (a, 0)) ∧
          (¬inf f a → inf f b → f.add mode sub a b = (infinity (neg f b ^^ sub), 0))) ∧
        (inf f a ∨ inf f b → f.mul mode a b = if fails then invalid else (infinity product, 0)) ∧
        ((inf f a ∧ inf f b) ∨ (zero f a ∧ zero f b) → f.div mode a b = invalid) ∧
        (inf f a → ¬inf f b → f.div mode a b = (infinity product, 0)) ∧
        (¬inf f a → inf f b → f.div mode a b = (sign f product, 0)) ∧
        (Claims.finite f a → ¬zero f a → zero f b → f.div mode a b = (infinity product, fDZ)) ∧
        (∀ g ∈ [f.minmax, f.minmaxNum], (before a b → g false a b = (a, 0) ∧ g true a b = (b, 0)) ∧
          (before b a → g false a b = (b, 0) ∧ g true a b = (a, 0)) ∧ (a = b → g false a b = (a, 0) ∧ g true a b = (a, 0)))) ∧
      (∀ most : Bool, (nan f a → ¬nan f b → (f.minmaxNum most a b).1 = b) ∧ (¬nan f a → nan f b → (f.minmaxNum most a b).1 = a) ∧
        (nan f a → nan f b → (f.minmaxNum most a b).1 = quiet a) ∧
        (nan f a ∨ nan f b → flagged (sig f a ∨ sig f b) (f.minmaxNum most a b).2)) ∧
      ((f.cmp .eq a b).1 = true ↔ noNan ∧ equal a b) ∧ ((f.cmp .lt a b).1 = true ↔ noNan ∧ below a b) ∧
      ((f.cmp .le a b).1 = true ↔ noNan ∧ (below a b ∨ equal a b)) ∧ ((f.cmp .un a b).1 = true ↔ ¬noNan) ∧
      (∀ k ∈ [FCmp.eq, FCmp.un], flagged (sig f a ∨ sig f b) (f.cmp k a b).2) ∧
      ∀ k ∈ [FCmp.lt, FCmp.le], flagged (¬noNan) (f.cmp k a b).2) ∧
    ∀ a : Nat, pattern a →
      (∀ g ∈ [f.rint mode, f.func .exp mode, f.func .exp2 mode, f.func .log mode, f.func .log2 mode,
          f.func .erf mode, f.func .erfc mode, f.func .sqrt mode, f.func .rsqrt mode, f.func .rcp mode, f.func .tanh mode,
          f.func .sigm mode, f.func .expm1 mode, f.func .log1p mode],
        nan f a → (g a).1 = quiet a ∧ flagged (sig f a) (g a).2) ∧
      (∀ n : ℤ, nan f a → (f.scalb mode a n).1 = quiet a ∧ flagged (sig f a) (f.scalb mode a n).2) ∧
      (inf f a → f.rint mode a = (a, 0) ∧ ∀ n : ℤ, f.scalb mode a n = (a, 0)) ∧
      (∀ q ∈ ([(.exp, (0, 0), (one, 0), (one, 0), (infinity false, 0)), (.exp2, (0, 0), (one, 0), (one, 0), (infinity false, 0)),
          (.expm1, (sign f true + one, 0), (sign f true, 0), (0, 0), (infinity false, 0)),
          (.log, invalid, (infinity true, fDZ), (infinity true, fDZ), (infinity false, 0)),
          (.log2, invalid, (infinity true, fDZ), (infinity true, fDZ), (infinity false, 0)),
          (.log1p, invalid, (sign f true, 0), (0, 0), (infinity false, 0)),
          (.erf, (sign f true + one, 0), (sign f true, 0), (0, 0), (one, 0)),
          (.erfc, ((f.bias + 1) * 2 ^ f.fbits, 0), (one, 0), (one, 0), (0, 0)),
          (.sqrt, invalid, (sign f true, 0), (0, 0), (infinity false, 0)),
          (.rsqrt, invalid, (infinity true, fDZ), (infinity false, fDZ), (0, 0)),
          (.rcp, (sign f true, 0), (infinity true, fDZ), (infinity false, fDZ), (0, 0)),
          (.tanh, (sign f true + one, 0), (sign f true, 0), (0, 0), (one, 0)),
          (.sigm, (0, 0), ((f.bias - 1) * 2 ^ f.fbits, 0), ((f.bias - 1) * 2 ^ f.fbits, 0), (one, 0))] :
          List (Fn × (Nat × Flg) × (Nat × Flg) × (Nat × Flg) × (Nat × Flg))),
        (inf f a → f.func q.1 mode a = if neg f a then q.2.1 else q.2.2.2.2) ∧
        (zero f a → f.func q.1 mode a = if neg f a then q.2.2.1 else q.2.2.2.1)) ∧
      (Claims.finite f a → Claims.real f a < 0 → ∀ g ∈ [Fn.log, .log2, .sqrt, .rsqrt], f.func g mode a = invalid) ∧
      (Claims.finite f a → (Claims.real f a < -1 → f.func .log1p mode a = invalid) ∧
        (Claims.real f a = -1 → f.func .log1p mode a = (infinity true, fDZ)) ∧
        (Claims.real f a = 1 → f.func .log mode a = (0, 0) ∧ f.func .log2 mode a = (0, 0)))) ∧
  (∀ (f g : FpFormat) (mode : Rm) (a : Nat), f ∈ [fp16F, bf16F, fp32F, fp64F] → g ∈ [fp16F, bf16F, fp32F, fp64F] → mode ≠ .dyn →
    (inf g a → f.convert g mode a = (sign f (neg g a) + f.infBits, 0)) ∧
    (nan g a → flagged (sig g a) (f.convert g mode a).2 ∧ (f.convert g mode a).1 = sign f (neg g a) + f.infBits +
      ((a % 2 ^ g.fbits * 2 ^ f.fbits / 2 ^ g.fbits) ||| 2 ^ (f.fbits - 1)))) ∧
  (∀ (mode : Rm) (a : Nat), mode ≠ .dyn → (nan fp32F a → fp32ToInt mode a = (0, fNV)) ∧
    (inf fp32F a → fp32ToInt mode a = (if neg fp32F a then 0x80000000 else 0x7FFFFFFF, fNV))) ∧
  ∀ (e5 sat : Bool) (a b : Nat), a < 2 ^ 32 → b < 2 ^ 32 →
    let low (x : Bool) : Nat := if x then 0x80 else 0
    let ofNan (x : Nat) : Nat := low (neg fp32F x) + if e5 then 0x7C + (x % 2 ^ 23 / 2 ^ 21 ||| 2) else 0x7F
    let ofInf (x : Bool) : Nat × Flg := if sat then (low x + (if e5 then 0x7B else 0x7E), fSAT)
      else if e5 then (low x + 0x7C, 0) else (low x + 0x7F, fNV)
    let fails : Prop := (inf fp32F a ∧ zero fp32F b) ∨ (zero fp32F a ∧ inf fp32F b)
    let product : Bool := neg fp32F a ^^ neg fp32F b
    (nan fp32F a → (fp32ToFp8 e5 sat a).1 = ofNan a ∧ flagged (sig fp32F a) (fp32ToFp8 e5 sat a).2) ∧
    (inf fp32F a → fp32ToFp8 e5 sat a = ofInf (neg fp32F a)) ∧ (zero fp32F a → fp32ToFp8 e5 sat a = (low (neg fp32F a), 0)) ∧
    (nan fp32F a → (mulToFp8 e5 sat a b).1 = ofNan a) ∧ (¬nan fp32F a → nan fp32F b → (mulToFp8 e5 sat a b).1 = ofNan b) ∧
    (nan fp32F a ∨ nan fp32F b → flagged (sig fp32F a ∨ sig fp32F b) (mulToFp8 e5 sat a b).2) ∧
    (¬nan fp32F a → ¬nan fp32F b →
      (fails → mulToFp8 e5 sat a b = (if e5 then 0x7E else 0x7F, fNV)) ∧
      (¬fails → inf fp32F a ∨ inf fp32F b → mulToFp8 e5 sat a b = ofInf product) ∧
      (¬(inf fp32F a ∨ inf fp32F b) → zero fp32F a ∨ zero fp32F b → mulToFp8 e5 sat a b = (low product, 0)))

/-- R173, R182-R185, R297, R298, R301, R302, R304-R306, R308, R309, R319, R320: finite results are the exact value rounded once, with their
flags; special operands give the results of their tables, and minima, maxima and compares go by value. -/
def Obligations.FloatResultsRoundTheExactValueOnce : Prop :=
  Claims.FiniteResultsRoundOnce ∧ Claims.SpecialOperandsAndOrders
end

