-- ==== Sys2Proof/Laws/Encoding.lean ====
section
/-!
SUPPORT. Fields of a word: what a placed field reads as at its own place and at others, and the codecs of operand fields.
-/

namespace Sys2Proof

theorem place_same (n lo k : Nat) (x : BitVec k) (h : lo + k ≤ n) : (place n lo x).extractLsb' lo k = x := by
  ext i hi
  have : lo + i < n := by omega
  simp [place, this, BitVec.getLsbD_eq_getElem hi]

theorem place_above (n lo k lo' k' : Nat) (x : BitVec k) (h : lo + k ≤ lo') :
    (place n lo x).extractLsb' lo' k' = 0#k' := by
  ext i hi
  simp [place]; intros; apply BitVec.getLsbD_of_ge; omega

theorem place_below (n lo k lo' k' : Nat) (x : BitVec k) (h : lo' + k' ≤ lo) :
    (place n lo x).extractLsb' lo' k' = 0#k' := by
  ext i hi
  simp [place]; omega

theorem extract_or (n lo k : Nat) (x y : BitVec n) :
    (x ||| y).extractLsb' lo k = x.extractLsb' lo k ||| y.extractLsb' lo k := by
  ext i hi; simp

@[simp] theorem Dst.ofBits_toBits (d : Dst) : Dst.ofBits d.toBits = some d := by
  cases d <;> simp [Dst.ofBits, Dst.toBits, place_same, place_above, place_below]

@[simp] theorem SSpec.ofBits_toBits (a : SSpec) : SSpec.ofBits a.toBits = a := by
  cases a <;> simp [SSpec.ofBits, SSpec.toBits, extract_or, place_same, place_above, place_below]

end Sys2Proof
end

