-- ==== Sys2Proof/Laws/State.lean ====
section
/-!
SUPPORT. One lemma for each field of the state under each named update of it, and for each field of a domain and a tile
under theirs: what the update writes, and that it leaves the rest.
-/

namespace Sys2Proof.Machine

/-! ## State.updDom -/

@[simp] theorem State.updDom_cur (s : State) (k : Nat) (f : Domain → Domain) : (s.updDom k f).cur = s.cur := rfl
@[simp] theorem State.updDom_domains (s : State) (k : Nat) (f : Domain → Domain) : (s.updDom k f).domains = s.domains.map (fun d => if d.seq = k then f d else d) := rfl
@[simp] theorem State.updDom_clusters (s : State) (k : Nat) (f : Domain → Domain) : (s.updDom k f).clusters = s.clusters := rfl
@[simp] theorem State.updDom_dies (s : State) (k : Nat) (f : Domain → Domain) : (s.updDom k f).dies = s.dies := rfl
@[simp] theorem State.updDom_parts (s : State) (k : Nat) (f : Domain → Domain) : (s.updDom k f).parts = s.parts := rfl
@[simp] theorem State.updDom_mem (s : State) (k : Nat) (f : Domain → Domain) : (s.updDom k f).mem = s.mem := rfl
@[simp] theorem State.updDom_flawed (s : State) (k : Nat) (f : Domain → Domain) : (s.updDom k f).flawed = s.flawed := rfl
@[simp] theorem State.updDom_lpacl (s : State) (k : Nat) (f : Domain → Domain) : (s.updDom k f).lpacl = s.lpacl := rfl
@[simp] theorem State.updDom_macl (s : State) (k : Nat) (f : Domain → Domain) : (s.updDom k f).macl = s.macl := rfl
@[simp] theorem State.updDom_partmap (s : State) (k : Nat) (f : Domain → Domain) : (s.updDom k f).partmap = s.partmap := rfl
@[simp] theorem State.updDom_lpdrop (s : State) (k : Nat) (f : Domain → Domain) : (s.updDom k f).lpdrop = s.lpdrop := rfl
@[simp] theorem State.updDom_lqrank (s : State) (k : Nat) (f : Domain → Domain) : (s.updDom k f).lqrank = s.lqrank := rfl
@[simp] theorem State.updDom_egress (s : State) (k : Nat) (f : Domain → Domain) : (s.updDom k f).egress = s.egress := rfl
@[simp] theorem State.updDom_leases (s : State) (k : Nat) (f : Domain → Domain) : (s.updDom k f).leases = s.leases := rfl
@[simp] theorem State.updDom_arrivals (s : State) (k : Nat) (f : Domain → Domain) : (s.updDom k f).arrivals = s.arrivals := rfl
@[simp] theorem State.updDom_stream (s : State) (k : Nat) (f : Domain → Domain) : (s.updDom k f).stream = s.stream := rfl
@[simp] theorem State.updDom_nextSeq (s : State) (k : Nat) (f : Domain → Domain) : (s.updDom k f).nextSeq = s.nextSeq := rfl
@[simp] theorem State.updDom_seqBases (s : State) (k : Nat) (f : Domain → Domain) : (s.updDom k f).seqBases = s.seqBases := rfl
@[simp] theorem State.updDom_queues (s : State) (k : Nat) (f : Domain → Domain) : (s.updDom k f).queues = s.queues := rfl
@[simp] theorem State.updDom_selected (s : State) (k : Nat) (f : Domain → Domain) : (s.updDom k f).selected = s.selected := rfl
@[simp] theorem State.updDom_room (s : State) (k : Nat) (f : Domain → Domain) : (s.updDom k f).room = s.room := rfl
@[simp] theorem State.updDom_lnkst (s : State) (k : Nat) (f : Domain → Domain) : (s.updDom k f).lnkst = s.lnkst := rfl
@[simp] theorem State.updDom_bootst (s : State) (k : Nat) (f : Domain → Domain) : (s.updDom k f).bootst = s.bootst := rfl
@[simp] theorem State.updDom_intst (s : State) (k : Nat) (f : Domain → Domain) : (s.updDom k f).intst = s.intst := rfl
@[simp] theorem State.updDom_pcap (s : State) (k : Nat) (f : Domain → Domain) : (s.updDom k f).pcap = s.pcap := rfl
@[simp] theorem State.updDom_capNow (s : State) (k : Nat) (f : Domain → Domain) : (s.updDom k f).capNow = s.capNow := rfl
@[simp] theorem State.updDom_pcapst (s : State) (k : Nat) (f : Domain → Domain) : (s.updDom k f).pcapst = s.pcapst := rfl
@[simp] theorem State.updDom_mbctl (s : State) (k : Nat) (f : Domain → Domain) : (s.updDom k f).mbctl = s.mbctl := rfl
@[simp] theorem State.updDom_signature (s : State) (k : Nat) (f : Domain → Domain) : (s.updDom k f).signature = s.signature := rfl
@[simp] theorem State.updDom_imageHash (s : State) (k : Nat) (f : Domain → Domain) : (s.updDom k f).imageHash = s.imageHash := rfl
@[simp] theorem State.updDom_imageVersion (s : State) (k : Nat) (f : Domain → Domain) : (s.updDom k f).imageVersion = s.imageVersion := rfl
@[simp] theorem State.updDom_fused (s : State) (k : Nat) (f : Domain → Domain) : (s.updDom k f).fused = s.fused := rfl
@[simp] theorem State.updDom_answers (s : State) (k : Nat) (f : Domain → Domain) : (s.updDom k f).answers = s.answers := rfl
@[simp] theorem State.updDom_inputs (s : State) (k : Nat) (f : Domain → Domain) : (s.updDom k f).inputs = s.inputs := rfl
@[simp] theorem State.updDom_fresh (s : State) (k : Nat) (f : Domain → Domain) : (s.updDom k f).fresh = s.fresh := rfl
@[simp] theorem State.updDom_cycle (s : State) (k : Nat) (f : Domain → Domain) : (s.updDom k f).cycle = s.cycle := rfl

/-! ## State.updTile -/

@[simp] theorem State.updTile_cur (s : State) (k lt : Nat) (f : Tile → Tile) : (s.updTile k lt f).cur = s.cur := rfl
@[simp] theorem State.updTile_domains (s : State) (k lt : Nat) (f : Tile → Tile) : (s.updTile k lt f).domains = s.domains.map (fun d => if d.seq = k then d.updTile lt f else d) := rfl
@[simp] theorem State.updTile_clusters (s : State) (k lt : Nat) (f : Tile → Tile) : (s.updTile k lt f).clusters = s.clusters := rfl
@[simp] theorem State.updTile_dies (s : State) (k lt : Nat) (f : Tile → Tile) : (s.updTile k lt f).dies = s.dies := rfl
@[simp] theorem State.updTile_parts (s : State) (k lt : Nat) (f : Tile → Tile) : (s.updTile k lt f).parts = s.parts := rfl
@[simp] theorem State.updTile_mem (s : State) (k lt : Nat) (f : Tile → Tile) : (s.updTile k lt f).mem = s.mem := rfl
@[simp] theorem State.updTile_flawed (s : State) (k lt : Nat) (f : Tile → Tile) : (s.updTile k lt f).flawed = s.flawed := rfl
@[simp] theorem State.updTile_lpacl (s : State) (k lt : Nat) (f : Tile → Tile) : (s.updTile k lt f).lpacl = s.lpacl := rfl
@[simp] theorem State.updTile_macl (s : State) (k lt : Nat) (f : Tile → Tile) : (s.updTile k lt f).macl = s.macl := rfl
@[simp] theorem State.updTile_partmap (s : State) (k lt : Nat) (f : Tile → Tile) : (s.updTile k lt f).partmap = s.partmap := rfl
@[simp] theorem State.updTile_lpdrop (s : State) (k lt : Nat) (f : Tile → Tile) : (s.updTile k lt f).lpdrop = s.lpdrop := rfl
@[simp] theorem State.updTile_lqrank (s : State) (k lt : Nat) (f : Tile → Tile) : (s.updTile k lt f).lqrank = s.lqrank := rfl
@[simp] theorem State.updTile_egress (s : State) (k lt : Nat) (f : Tile → Tile) : (s.updTile k lt f).egress = s.egress := rfl
@[simp] theorem State.updTile_leases (s : State) (k lt : Nat) (f : Tile → Tile) : (s.updTile k lt f).leases = s.leases := rfl
@[simp] theorem State.updTile_arrivals (s : State) (k lt : Nat) (f : Tile → Tile) : (s.updTile k lt f).arrivals = s.arrivals := rfl
@[simp] theorem State.updTile_stream (s : State) (k lt : Nat) (f : Tile → Tile) : (s.updTile k lt f).stream = s.stream := rfl
@[simp] theorem State.updTile_nextSeq (s : State) (k lt : Nat) (f : Tile → Tile) : (s.updTile k lt f).nextSeq = s.nextSeq := rfl
@[simp] theorem State.updTile_seqBases (s : State) (k lt : Nat) (f : Tile → Tile) : (s.updTile k lt f).seqBases = s.seqBases := rfl
@[simp] theorem State.updTile_queues (s : State) (k lt : Nat) (f : Tile → Tile) : (s.updTile k lt f).queues = s.queues := rfl
@[simp] theorem State.updTile_selected (s : State) (k lt : Nat) (f : Tile → Tile) : (s.updTile k lt f).selected = s.selected := rfl
@[simp] theorem State.updTile_room (s : State) (k lt : Nat) (f : Tile → Tile) : (s.updTile k lt f).room = s.room := rfl
@[simp] theorem State.updTile_lnkst (s : State) (k lt : Nat) (f : Tile → Tile) : (s.updTile k lt f).lnkst = s.lnkst := rfl
@[simp] theorem State.updTile_bootst (s : State) (k lt : Nat) (f : Tile → Tile) : (s.updTile k lt f).bootst = s.bootst := rfl
@[simp] theorem State.updTile_intst (s : State) (k lt : Nat) (f : Tile → Tile) : (s.updTile k lt f).intst = s.intst := rfl
@[simp] theorem State.updTile_pcap (s : State) (k lt : Nat) (f : Tile → Tile) : (s.updTile k lt f).pcap = s.pcap := rfl
@[simp] theorem State.updTile_capNow (s : State) (k lt : Nat) (f : Tile → Tile) : (s.updTile k lt f).capNow = s.capNow := rfl
@[simp] theorem State.updTile_pcapst (s : State) (k lt : Nat) (f : Tile → Tile) : (s.updTile k lt f).pcapst = s.pcapst := rfl
@[simp] theorem State.updTile_mbctl (s : State) (k lt : Nat) (f : Tile → Tile) : (s.updTile k lt f).mbctl = s.mbctl := rfl
@[simp] theorem State.updTile_signature (s : State) (k lt : Nat) (f : Tile → Tile) : (s.updTile k lt f).signature = s.signature := rfl
@[simp] theorem State.updTile_imageHash (s : State) (k lt : Nat) (f : Tile → Tile) : (s.updTile k lt f).imageHash = s.imageHash := rfl
@[simp] theorem State.updTile_imageVersion (s : State) (k lt : Nat) (f : Tile → Tile) : (s.updTile k lt f).imageVersion = s.imageVersion := rfl
@[simp] theorem State.updTile_fused (s : State) (k lt : Nat) (f : Tile → Tile) : (s.updTile k lt f).fused = s.fused := rfl
@[simp] theorem State.updTile_answers (s : State) (k lt : Nat) (f : Tile → Tile) : (s.updTile k lt f).answers = s.answers := rfl
@[simp] theorem State.updTile_inputs (s : State) (k lt : Nat) (f : Tile → Tile) : (s.updTile k lt f).inputs = s.inputs := rfl
@[simp] theorem State.updTile_fresh (s : State) (k lt : Nat) (f : Tile → Tile) : (s.updTile k lt f).fresh = s.fresh := rfl
@[simp] theorem State.updTile_cycle (s : State) (k lt : Nat) (f : Tile → Tile) : (s.updTile k lt f).cycle = s.cycle := rfl

/-! ## State.put -/

@[simp] theorem State.put_cur (s : State) (t : Tile) : (s.put t).cur = s.cur := rfl
@[simp] theorem State.put_domains (s : State) (t : Tile) : (s.put t).domains = s.domains.map (fun d => if d.seq = s.cur.dom then d.updTile s.cur.lt (fun _ => t) else d) := rfl
@[simp] theorem State.put_clusters (s : State) (t : Tile) : (s.put t).clusters = s.clusters := rfl
@[simp] theorem State.put_dies (s : State) (t : Tile) : (s.put t).dies = s.dies := rfl
@[simp] theorem State.put_parts (s : State) (t : Tile) : (s.put t).parts = s.parts := rfl
@[simp] theorem State.put_mem (s : State) (t : Tile) : (s.put t).mem = s.mem := rfl
@[simp] theorem State.put_flawed (s : State) (t : Tile) : (s.put t).flawed = s.flawed := rfl
@[simp] theorem State.put_lpacl (s : State) (t : Tile) : (s.put t).lpacl = s.lpacl := rfl
@[simp] theorem State.put_macl (s : State) (t : Tile) : (s.put t).macl = s.macl := rfl
@[simp] theorem State.put_partmap (s : State) (t : Tile) : (s.put t).partmap = s.partmap := rfl
@[simp] theorem State.put_lpdrop (s : State) (t : Tile) : (s.put t).lpdrop = s.lpdrop := rfl
@[simp] theorem State.put_lqrank (s : State) (t : Tile) : (s.put t).lqrank = s.lqrank := rfl
@[simp] theorem State.put_egress (s : State) (t : Tile) : (s.put t).egress = s.egress := rfl
@[simp] theorem State.put_leases (s : State) (t : Tile) : (s.put t).leases = s.leases := rfl
@[simp] theorem State.put_arrivals (s : State) (t : Tile) : (s.put t).arrivals = s.arrivals := rfl
@[simp] theorem State.put_stream (s : State) (t : Tile) : (s.put t).stream = s.stream := rfl
@[simp] theorem State.put_nextSeq (s : State) (t : Tile) : (s.put t).nextSeq = s.nextSeq := rfl
@[simp] theorem State.put_seqBases (s : State) (t : Tile) : (s.put t).seqBases = s.seqBases := rfl
@[simp] theorem State.put_queues (s : State) (t : Tile) : (s.put t).queues = s.queues := rfl
@[simp] theorem State.put_selected (s : State) (t : Tile) : (s.put t).selected = s.selected := rfl
@[simp] theorem State.put_room (s : State) (t : Tile) : (s.put t).room = s.room := rfl
@[simp] theorem State.put_lnkst (s : State) (t : Tile) : (s.put t).lnkst = s.lnkst := rfl
@[simp] theorem State.put_bootst (s : State) (t : Tile) : (s.put t).bootst = s.bootst := rfl
@[simp] theorem State.put_intst (s : State) (t : Tile) : (s.put t).intst = s.intst := rfl
@[simp] theorem State.put_pcap (s : State) (t : Tile) : (s.put t).pcap = s.pcap := rfl
@[simp] theorem State.put_capNow (s : State) (t : Tile) : (s.put t).capNow = s.capNow := rfl
@[simp] theorem State.put_pcapst (s : State) (t : Tile) : (s.put t).pcapst = s.pcapst := rfl
@[simp] theorem State.put_mbctl (s : State) (t : Tile) : (s.put t).mbctl = s.mbctl := rfl
@[simp] theorem State.put_signature (s : State) (t : Tile) : (s.put t).signature = s.signature := rfl
@[simp] theorem State.put_imageHash (s : State) (t : Tile) : (s.put t).imageHash = s.imageHash := rfl
@[simp] theorem State.put_imageVersion (s : State) (t : Tile) : (s.put t).imageVersion = s.imageVersion := rfl
@[simp] theorem State.put_fused (s : State) (t : Tile) : (s.put t).fused = s.fused := rfl
@[simp] theorem State.put_answers (s : State) (t : Tile) : (s.put t).answers = s.answers := rfl
@[simp] theorem State.put_inputs (s : State) (t : Tile) : (s.put t).inputs = s.inputs := rfl
@[simp] theorem State.put_fresh (s : State) (t : Tile) : (s.put t).fresh = s.fresh := rfl
@[simp] theorem State.put_cycle (s : State) (t : Tile) : (s.put t).cycle = s.cycle := rfl

/-! ## State.updCluster -/

@[simp] theorem State.updCluster_cur (s : State) (c : Nat) (f : Cluster → Cluster) : (s.updCluster c f).cur = s.cur := rfl
@[simp] theorem State.updCluster_domains (s : State) (c : Nat) (f : Cluster → Cluster) : (s.updCluster c f).domains = s.domains := rfl
@[simp] theorem State.updCluster_clusters (s : State) (c : Nat) (f : Cluster → Cluster) : (s.updCluster c f).clusters = setAssoc s.clusters c (f (s.cluster c)) := rfl
@[simp] theorem State.updCluster_dies (s : State) (c : Nat) (f : Cluster → Cluster) : (s.updCluster c f).dies = s.dies := rfl
@[simp] theorem State.updCluster_parts (s : State) (c : Nat) (f : Cluster → Cluster) : (s.updCluster c f).parts = s.parts := rfl
@[simp] theorem State.updCluster_mem (s : State) (c : Nat) (f : Cluster → Cluster) : (s.updCluster c f).mem = s.mem := rfl
@[simp] theorem State.updCluster_flawed (s : State) (c : Nat) (f : Cluster → Cluster) : (s.updCluster c f).flawed = s.flawed := rfl
@[simp] theorem State.updCluster_lpacl (s : State) (c : Nat) (f : Cluster → Cluster) : (s.updCluster c f).lpacl = s.lpacl := rfl
@[simp] theorem State.updCluster_macl (s : State) (c : Nat) (f : Cluster → Cluster) : (s.updCluster c f).macl = s.macl := rfl
@[simp] theorem State.updCluster_partmap (s : State) (c : Nat) (f : Cluster → Cluster) : (s.updCluster c f).partmap = s.partmap := rfl
@[simp] theorem State.updCluster_lpdrop (s : State) (c : Nat) (f : Cluster → Cluster) : (s.updCluster c f).lpdrop = s.lpdrop := rfl
@[simp] theorem State.updCluster_lqrank (s : State) (c : Nat) (f : Cluster → Cluster) : (s.updCluster c f).lqrank = s.lqrank := rfl
@[simp] theorem State.updCluster_egress (s : State) (c : Nat) (f : Cluster → Cluster) : (s.updCluster c f).egress = s.egress := rfl
@[simp] theorem State.updCluster_leases (s : State) (c : Nat) (f : Cluster → Cluster) : (s.updCluster c f).leases = s.leases := rfl
@[simp] theorem State.updCluster_arrivals (s : State) (c : Nat) (f : Cluster → Cluster) : (s.updCluster c f).arrivals = s.arrivals := rfl
@[simp] theorem State.updCluster_stream (s : State) (c : Nat) (f : Cluster → Cluster) : (s.updCluster c f).stream = s.stream := rfl
@[simp] theorem State.updCluster_nextSeq (s : State) (c : Nat) (f : Cluster → Cluster) : (s.updCluster c f).nextSeq = s.nextSeq := rfl
@[simp] theorem State.updCluster_seqBases (s : State) (c : Nat) (f : Cluster → Cluster) : (s.updCluster c f).seqBases = s.seqBases := rfl
@[simp] theorem State.updCluster_queues (s : State) (c : Nat) (f : Cluster → Cluster) : (s.updCluster c f).queues = s.queues := rfl
@[simp] theorem State.updCluster_selected (s : State) (c : Nat) (f : Cluster → Cluster) : (s.updCluster c f).selected = s.selected := rfl
@[simp] theorem State.updCluster_room (s : State) (c : Nat) (f : Cluster → Cluster) : (s.updCluster c f).room = s.room := rfl
@[simp] theorem State.updCluster_lnkst (s : State) (c : Nat) (f : Cluster → Cluster) : (s.updCluster c f).lnkst = s.lnkst := rfl
@[simp] theorem State.updCluster_bootst (s : State) (c : Nat) (f : Cluster → Cluster) : (s.updCluster c f).bootst = s.bootst := rfl
@[simp] theorem State.updCluster_intst (s : State) (c : Nat) (f : Cluster → Cluster) : (s.updCluster c f).intst = s.intst := rfl
@[simp] theorem State.updCluster_pcap (s : State) (c : Nat) (f : Cluster → Cluster) : (s.updCluster c f).pcap = s.pcap := rfl
@[simp] theorem State.updCluster_capNow (s : State) (c : Nat) (f : Cluster → Cluster) : (s.updCluster c f).capNow = s.capNow := rfl
@[simp] theorem State.updCluster_pcapst (s : State) (c : Nat) (f : Cluster → Cluster) : (s.updCluster c f).pcapst = s.pcapst := rfl
@[simp] theorem State.updCluster_mbctl (s : State) (c : Nat) (f : Cluster → Cluster) : (s.updCluster c f).mbctl = s.mbctl := rfl
@[simp] theorem State.updCluster_signature (s : State) (c : Nat) (f : Cluster → Cluster) : (s.updCluster c f).signature = s.signature := rfl
@[simp] theorem State.updCluster_imageHash (s : State) (c : Nat) (f : Cluster → Cluster) : (s.updCluster c f).imageHash = s.imageHash := rfl
@[simp] theorem State.updCluster_imageVersion (s : State) (c : Nat) (f : Cluster → Cluster) : (s.updCluster c f).imageVersion = s.imageVersion := rfl
@[simp] theorem State.updCluster_fused (s : State) (c : Nat) (f : Cluster → Cluster) : (s.updCluster c f).fused = s.fused := rfl
@[simp] theorem State.updCluster_answers (s : State) (c : Nat) (f : Cluster → Cluster) : (s.updCluster c f).answers = s.answers := rfl
@[simp] theorem State.updCluster_inputs (s : State) (c : Nat) (f : Cluster → Cluster) : (s.updCluster c f).inputs = s.inputs := rfl
@[simp] theorem State.updCluster_fresh (s : State) (c : Nat) (f : Cluster → Cluster) : (s.updCluster c f).fresh = s.fresh := rfl
@[simp] theorem State.updCluster_cycle (s : State) (c : Nat) (f : Cluster → Cluster) : (s.updCluster c f).cycle = s.cycle := rfl

/-! ## State.updDie -/

@[simp] theorem State.updDie_cur (s : State) (d : Nat) (f : Die → Die) : (s.updDie d f).cur = s.cur := rfl
@[simp] theorem State.updDie_domains (s : State) (d : Nat) (f : Die → Die) : (s.updDie d f).domains = s.domains := rfl
@[simp] theorem State.updDie_clusters (s : State) (d : Nat) (f : Die → Die) : (s.updDie d f).clusters = s.clusters := rfl
@[simp] theorem State.updDie_dies (s : State) (d : Nat) (f : Die → Die) : (s.updDie d f).dies = upd s.dies d f := rfl
@[simp] theorem State.updDie_parts (s : State) (d : Nat) (f : Die → Die) : (s.updDie d f).parts = s.parts := rfl
@[simp] theorem State.updDie_mem (s : State) (d : Nat) (f : Die → Die) : (s.updDie d f).mem = s.mem := rfl
@[simp] theorem State.updDie_flawed (s : State) (d : Nat) (f : Die → Die) : (s.updDie d f).flawed = s.flawed := rfl
@[simp] theorem State.updDie_lpacl (s : State) (d : Nat) (f : Die → Die) : (s.updDie d f).lpacl = s.lpacl := rfl
@[simp] theorem State.updDie_macl (s : State) (d : Nat) (f : Die → Die) : (s.updDie d f).macl = s.macl := rfl
@[simp] theorem State.updDie_partmap (s : State) (d : Nat) (f : Die → Die) : (s.updDie d f).partmap = s.partmap := rfl
@[simp] theorem State.updDie_lpdrop (s : State) (d : Nat) (f : Die → Die) : (s.updDie d f).lpdrop = s.lpdrop := rfl
@[simp] theorem State.updDie_lqrank (s : State) (d : Nat) (f : Die → Die) : (s.updDie d f).lqrank = s.lqrank := rfl
@[simp] theorem State.updDie_egress (s : State) (d : Nat) (f : Die → Die) : (s.updDie d f).egress = s.egress := rfl
@[simp] theorem State.updDie_leases (s : State) (d : Nat) (f : Die → Die) : (s.updDie d f).leases = s.leases := rfl
@[simp] theorem State.updDie_arrivals (s : State) (d : Nat) (f : Die → Die) : (s.updDie d f).arrivals = s.arrivals := rfl
@[simp] theorem State.updDie_stream (s : State) (d : Nat) (f : Die → Die) : (s.updDie d f).stream = s.stream := rfl
@[simp] theorem State.updDie_nextSeq (s : State) (d : Nat) (f : Die → Die) : (s.updDie d f).nextSeq = s.nextSeq := rfl
@[simp] theorem State.updDie_seqBases (s : State) (d : Nat) (f : Die → Die) : (s.updDie d f).seqBases = s.seqBases := rfl
@[simp] theorem State.updDie_queues (s : State) (d : Nat) (f : Die → Die) : (s.updDie d f).queues = s.queues := rfl
@[simp] theorem State.updDie_selected (s : State) (d : Nat) (f : Die → Die) : (s.updDie d f).selected = s.selected := rfl
@[simp] theorem State.updDie_room (s : State) (d : Nat) (f : Die → Die) : (s.updDie d f).room = s.room := rfl
@[simp] theorem State.updDie_lnkst (s : State) (d : Nat) (f : Die → Die) : (s.updDie d f).lnkst = s.lnkst := rfl
@[simp] theorem State.updDie_bootst (s : State) (d : Nat) (f : Die → Die) : (s.updDie d f).bootst = s.bootst := rfl
@[simp] theorem State.updDie_intst (s : State) (d : Nat) (f : Die → Die) : (s.updDie d f).intst = s.intst := rfl
@[simp] theorem State.updDie_pcap (s : State) (d : Nat) (f : Die → Die) : (s.updDie d f).pcap = s.pcap := rfl
@[simp] theorem State.updDie_capNow (s : State) (d : Nat) (f : Die → Die) : (s.updDie d f).capNow = s.capNow := rfl
@[simp] theorem State.updDie_pcapst (s : State) (d : Nat) (f : Die → Die) : (s.updDie d f).pcapst = s.pcapst := rfl
@[simp] theorem State.updDie_mbctl (s : State) (d : Nat) (f : Die → Die) : (s.updDie d f).mbctl = s.mbctl := rfl
@[simp] theorem State.updDie_signature (s : State) (d : Nat) (f : Die → Die) : (s.updDie d f).signature = s.signature := rfl
@[simp] theorem State.updDie_imageHash (s : State) (d : Nat) (f : Die → Die) : (s.updDie d f).imageHash = s.imageHash := rfl
@[simp] theorem State.updDie_imageVersion (s : State) (d : Nat) (f : Die → Die) : (s.updDie d f).imageVersion = s.imageVersion := rfl
@[simp] theorem State.updDie_fused (s : State) (d : Nat) (f : Die → Die) : (s.updDie d f).fused = s.fused := rfl
@[simp] theorem State.updDie_answers (s : State) (d : Nat) (f : Die → Die) : (s.updDie d f).answers = s.answers := rfl
@[simp] theorem State.updDie_inputs (s : State) (d : Nat) (f : Die → Die) : (s.updDie d f).inputs = s.inputs := rfl
@[simp] theorem State.updDie_fresh (s : State) (d : Nat) (f : Die → Die) : (s.updDie d f).fresh = s.fresh := rfl
@[simp] theorem State.updDie_cycle (s : State) (d : Nat) (f : Die → Die) : (s.updDie d f).cycle = s.cycle := rfl

/-! ## State.updPart -/

@[simp] theorem State.updPart_cur (s : State) (p : Nat) (f : Partition → Partition) : (s.updPart p f).cur = s.cur := rfl
@[simp] theorem State.updPart_domains (s : State) (p : Nat) (f : Partition → Partition) : (s.updPart p f).domains = s.domains := rfl
@[simp] theorem State.updPart_clusters (s : State) (p : Nat) (f : Partition → Partition) : (s.updPart p f).clusters = s.clusters := rfl
@[simp] theorem State.updPart_dies (s : State) (p : Nat) (f : Partition → Partition) : (s.updPart p f).dies = s.dies := rfl
@[simp] theorem State.updPart_parts (s : State) (p : Nat) (f : Partition → Partition) : (s.updPart p f).parts = upd s.parts p f := rfl
@[simp] theorem State.updPart_mem (s : State) (p : Nat) (f : Partition → Partition) : (s.updPart p f).mem = s.mem := rfl
@[simp] theorem State.updPart_flawed (s : State) (p : Nat) (f : Partition → Partition) : (s.updPart p f).flawed = s.flawed := rfl
@[simp] theorem State.updPart_lpacl (s : State) (p : Nat) (f : Partition → Partition) : (s.updPart p f).lpacl = s.lpacl := rfl
@[simp] theorem State.updPart_macl (s : State) (p : Nat) (f : Partition → Partition) : (s.updPart p f).macl = s.macl := rfl
@[simp] theorem State.updPart_partmap (s : State) (p : Nat) (f : Partition → Partition) : (s.updPart p f).partmap = s.partmap := rfl
@[simp] theorem State.updPart_lpdrop (s : State) (p : Nat) (f : Partition → Partition) : (s.updPart p f).lpdrop = s.lpdrop := rfl
@[simp] theorem State.updPart_lqrank (s : State) (p : Nat) (f : Partition → Partition) : (s.updPart p f).lqrank = s.lqrank := rfl
@[simp] theorem State.updPart_egress (s : State) (p : Nat) (f : Partition → Partition) : (s.updPart p f).egress = s.egress := rfl
@[simp] theorem State.updPart_leases (s : State) (p : Nat) (f : Partition → Partition) : (s.updPart p f).leases = s.leases := rfl
@[simp] theorem State.updPart_arrivals (s : State) (p : Nat) (f : Partition → Partition) : (s.updPart p f).arrivals = s.arrivals := rfl
@[simp] theorem State.updPart_stream (s : State) (p : Nat) (f : Partition → Partition) : (s.updPart p f).stream = s.stream := rfl
@[simp] theorem State.updPart_nextSeq (s : State) (p : Nat) (f : Partition → Partition) : (s.updPart p f).nextSeq = s.nextSeq := rfl
@[simp] theorem State.updPart_seqBases (s : State) (p : Nat) (f : Partition → Partition) : (s.updPart p f).seqBases = s.seqBases := rfl
@[simp] theorem State.updPart_queues (s : State) (p : Nat) (f : Partition → Partition) : (s.updPart p f).queues = s.queues := rfl
@[simp] theorem State.updPart_selected (s : State) (p : Nat) (f : Partition → Partition) : (s.updPart p f).selected = s.selected := rfl
@[simp] theorem State.updPart_room (s : State) (p : Nat) (f : Partition → Partition) : (s.updPart p f).room = s.room := rfl
@[simp] theorem State.updPart_lnkst (s : State) (p : Nat) (f : Partition → Partition) : (s.updPart p f).lnkst = s.lnkst := rfl
@[simp] theorem State.updPart_bootst (s : State) (p : Nat) (f : Partition → Partition) : (s.updPart p f).bootst = s.bootst := rfl
@[simp] theorem State.updPart_intst (s : State) (p : Nat) (f : Partition → Partition) : (s.updPart p f).intst = s.intst := rfl
@[simp] theorem State.updPart_pcap (s : State) (p : Nat) (f : Partition → Partition) : (s.updPart p f).pcap = s.pcap := rfl
@[simp] theorem State.updPart_capNow (s : State) (p : Nat) (f : Partition → Partition) : (s.updPart p f).capNow = s.capNow := rfl
@[simp] theorem State.updPart_pcapst (s : State) (p : Nat) (f : Partition → Partition) : (s.updPart p f).pcapst = s.pcapst := rfl
@[simp] theorem State.updPart_mbctl (s : State) (p : Nat) (f : Partition → Partition) : (s.updPart p f).mbctl = s.mbctl := rfl
@[simp] theorem State.updPart_signature (s : State) (p : Nat) (f : Partition → Partition) : (s.updPart p f).signature = s.signature := rfl
@[simp] theorem State.updPart_imageHash (s : State) (p : Nat) (f : Partition → Partition) : (s.updPart p f).imageHash = s.imageHash := rfl
@[simp] theorem State.updPart_imageVersion (s : State) (p : Nat) (f : Partition → Partition) : (s.updPart p f).imageVersion = s.imageVersion := rfl
@[simp] theorem State.updPart_fused (s : State) (p : Nat) (f : Partition → Partition) : (s.updPart p f).fused = s.fused := rfl
@[simp] theorem State.updPart_answers (s : State) (p : Nat) (f : Partition → Partition) : (s.updPart p f).answers = s.answers := rfl
@[simp] theorem State.updPart_inputs (s : State) (p : Nat) (f : Partition → Partition) : (s.updPart p f).inputs = s.inputs := rfl
@[simp] theorem State.updPart_fresh (s : State) (p : Nat) (f : Partition → Partition) : (s.updPart p f).fresh = s.fresh := rfl
@[simp] theorem State.updPart_cycle (s : State) (p : Nat) (f : Partition → Partition) : (s.updPart p f).cycle = s.cycle := rfl

/-! ## State.writeByte -/

@[simp] theorem State.writeByte_cur (s : State) (a : Nat) (b : Byte) : (s.writeByte a b).cur = s.cur := rfl
@[simp] theorem State.writeByte_domains (s : State) (a : Nat) (b : Byte) : (s.writeByte a b).domains = s.domains := rfl
@[simp] theorem State.writeByte_clusters (s : State) (a : Nat) (b : Byte) : (s.writeByte a b).clusters = s.clusters := rfl
@[simp] theorem State.writeByte_dies (s : State) (a : Nat) (b : Byte) : (s.writeByte a b).dies = s.dies := rfl
@[simp] theorem State.writeByte_parts (s : State) (a : Nat) (b : Byte) : (s.writeByte a b).parts = s.parts := rfl
@[simp] theorem State.writeByte_mem (s : State) (a : Nat) (b : Byte) : (s.writeByte a b).mem = writeCells s.mem a b := rfl
@[simp] theorem State.writeByte_flawed (s : State) (a : Nat) (b : Byte) : (s.writeByte a b).flawed = s.flawed := rfl
@[simp] theorem State.writeByte_lpacl (s : State) (a : Nat) (b : Byte) : (s.writeByte a b).lpacl = s.lpacl := rfl
@[simp] theorem State.writeByte_macl (s : State) (a : Nat) (b : Byte) : (s.writeByte a b).macl = s.macl := rfl
@[simp] theorem State.writeByte_partmap (s : State) (a : Nat) (b : Byte) : (s.writeByte a b).partmap = s.partmap := rfl
@[simp] theorem State.writeByte_lpdrop (s : State) (a : Nat) (b : Byte) : (s.writeByte a b).lpdrop = s.lpdrop := rfl
@[simp] theorem State.writeByte_lqrank (s : State) (a : Nat) (b : Byte) : (s.writeByte a b).lqrank = s.lqrank := rfl
@[simp] theorem State.writeByte_egress (s : State) (a : Nat) (b : Byte) : (s.writeByte a b).egress = s.egress := rfl
@[simp] theorem State.writeByte_leases (s : State) (a : Nat) (b : Byte) : (s.writeByte a b).leases = s.leases := rfl
@[simp] theorem State.writeByte_arrivals (s : State) (a : Nat) (b : Byte) : (s.writeByte a b).arrivals = s.arrivals := rfl
@[simp] theorem State.writeByte_stream (s : State) (a : Nat) (b : Byte) : (s.writeByte a b).stream = s.stream := rfl
@[simp] theorem State.writeByte_nextSeq (s : State) (a : Nat) (b : Byte) : (s.writeByte a b).nextSeq = s.nextSeq := rfl
@[simp] theorem State.writeByte_seqBases (s : State) (a : Nat) (b : Byte) : (s.writeByte a b).seqBases = s.seqBases := rfl
@[simp] theorem State.writeByte_queues (s : State) (a : Nat) (b : Byte) : (s.writeByte a b).queues = s.queues := rfl
@[simp] theorem State.writeByte_selected (s : State) (a : Nat) (b : Byte) : (s.writeByte a b).selected = s.selected := rfl
@[simp] theorem State.writeByte_room (s : State) (a : Nat) (b : Byte) : (s.writeByte a b).room = s.room := rfl
@[simp] theorem State.writeByte_lnkst (s : State) (a : Nat) (b : Byte) : (s.writeByte a b).lnkst = s.lnkst := rfl
@[simp] theorem State.writeByte_bootst (s : State) (a : Nat) (b : Byte) : (s.writeByte a b).bootst = s.bootst := rfl
@[simp] theorem State.writeByte_intst (s : State) (a : Nat) (b : Byte) : (s.writeByte a b).intst = s.intst := rfl
@[simp] theorem State.writeByte_pcap (s : State) (a : Nat) (b : Byte) : (s.writeByte a b).pcap = s.pcap := rfl
@[simp] theorem State.writeByte_capNow (s : State) (a : Nat) (b : Byte) : (s.writeByte a b).capNow = s.capNow := rfl
@[simp] theorem State.writeByte_pcapst (s : State) (a : Nat) (b : Byte) : (s.writeByte a b).pcapst = s.pcapst := rfl
@[simp] theorem State.writeByte_mbctl (s : State) (a : Nat) (b : Byte) : (s.writeByte a b).mbctl = s.mbctl := rfl
@[simp] theorem State.writeByte_signature (s : State) (a : Nat) (b : Byte) : (s.writeByte a b).signature = s.signature := rfl
@[simp] theorem State.writeByte_imageHash (s : State) (a : Nat) (b : Byte) : (s.writeByte a b).imageHash = s.imageHash := rfl
@[simp] theorem State.writeByte_imageVersion (s : State) (a : Nat) (b : Byte) : (s.writeByte a b).imageVersion = s.imageVersion := rfl
@[simp] theorem State.writeByte_fused (s : State) (a : Nat) (b : Byte) : (s.writeByte a b).fused = s.fused := rfl
@[simp] theorem State.writeByte_answers (s : State) (a : Nat) (b : Byte) : (s.writeByte a b).answers = s.answers := rfl
@[simp] theorem State.writeByte_inputs (s : State) (a : Nat) (b : Byte) : (s.writeByte a b).inputs = s.inputs := rfl
@[simp] theorem State.writeByte_fresh (s : State) (a : Nat) (b : Byte) : (s.writeByte a b).fresh = s.fresh := rfl
@[simp] theorem State.writeByte_cycle (s : State) (a : Nat) (b : Byte) : (s.writeByte a b).cycle = s.cycle := rfl

/-! ## State.writeBytes -/

@[simp] theorem State.writeBytes_cur (s : State) (a : Nat) (bs : List Byte) : (s.writeBytes a bs).cur = s.cur := rfl
@[simp] theorem State.writeBytes_domains (s : State) (a : Nat) (bs : List Byte) : (s.writeBytes a bs).domains = s.domains := rfl
@[simp] theorem State.writeBytes_clusters (s : State) (a : Nat) (bs : List Byte) : (s.writeBytes a bs).clusters = s.clusters := rfl
@[simp] theorem State.writeBytes_dies (s : State) (a : Nat) (bs : List Byte) : (s.writeBytes a bs).dies = s.dies := rfl
@[simp] theorem State.writeBytes_parts (s : State) (a : Nat) (bs : List Byte) : (s.writeBytes a bs).parts = s.parts := rfl
@[simp] theorem State.writeBytes_mem (s : State) (a : Nat) (bs : List Byte) : (s.writeBytes a bs).mem = writeCellList s.mem a bs := rfl
@[simp] theorem State.writeBytes_flawed (s : State) (a : Nat) (bs : List Byte) : (s.writeBytes a bs).flawed = mended s.flawed a bs.length := rfl
@[simp] theorem State.writeBytes_lpacl (s : State) (a : Nat) (bs : List Byte) : (s.writeBytes a bs).lpacl = s.lpacl := rfl
@[simp] theorem State.writeBytes_macl (s : State) (a : Nat) (bs : List Byte) : (s.writeBytes a bs).macl = s.macl := rfl
@[simp] theorem State.writeBytes_partmap (s : State) (a : Nat) (bs : List Byte) : (s.writeBytes a bs).partmap = s.partmap := rfl
@[simp] theorem State.writeBytes_lpdrop (s : State) (a : Nat) (bs : List Byte) : (s.writeBytes a bs).lpdrop = s.lpdrop := rfl
@[simp] theorem State.writeBytes_lqrank (s : State) (a : Nat) (bs : List Byte) : (s.writeBytes a bs).lqrank = s.lqrank := rfl
@[simp] theorem State.writeBytes_egress (s : State) (a : Nat) (bs : List Byte) : (s.writeBytes a bs).egress = s.egress := rfl
@[simp] theorem State.writeBytes_leases (s : State) (a : Nat) (bs : List Byte) : (s.writeBytes a bs).leases = s.leases := rfl
@[simp] theorem State.writeBytes_arrivals (s : State) (a : Nat) (bs : List Byte) : (s.writeBytes a bs).arrivals = s.arrivals := rfl
@[simp] theorem State.writeBytes_stream (s : State) (a : Nat) (bs : List Byte) : (s.writeBytes a bs).stream = s.stream := rfl
@[simp] theorem State.writeBytes_nextSeq (s : State) (a : Nat) (bs : List Byte) : (s.writeBytes a bs).nextSeq = s.nextSeq := rfl
@[simp] theorem State.writeBytes_seqBases (s : State) (a : Nat) (bs : List Byte) : (s.writeBytes a bs).seqBases = s.seqBases := rfl
@[simp] theorem State.writeBytes_queues (s : State) (a : Nat) (bs : List Byte) : (s.writeBytes a bs).queues = s.queues := rfl
@[simp] theorem State.writeBytes_selected (s : State) (a : Nat) (bs : List Byte) : (s.writeBytes a bs).selected = s.selected := rfl
@[simp] theorem State.writeBytes_room (s : State) (a : Nat) (bs : List Byte) : (s.writeBytes a bs).room = s.room := rfl
@[simp] theorem State.writeBytes_lnkst (s : State) (a : Nat) (bs : List Byte) : (s.writeBytes a bs).lnkst = s.lnkst := rfl
@[simp] theorem State.writeBytes_bootst (s : State) (a : Nat) (bs : List Byte) : (s.writeBytes a bs).bootst = s.bootst := rfl
@[simp] theorem State.writeBytes_intst (s : State) (a : Nat) (bs : List Byte) : (s.writeBytes a bs).intst = s.intst := rfl
@[simp] theorem State.writeBytes_pcap (s : State) (a : Nat) (bs : List Byte) : (s.writeBytes a bs).pcap = s.pcap := rfl
@[simp] theorem State.writeBytes_capNow (s : State) (a : Nat) (bs : List Byte) : (s.writeBytes a bs).capNow = s.capNow := rfl
@[simp] theorem State.writeBytes_pcapst (s : State) (a : Nat) (bs : List Byte) : (s.writeBytes a bs).pcapst = s.pcapst := rfl
@[simp] theorem State.writeBytes_mbctl (s : State) (a : Nat) (bs : List Byte) : (s.writeBytes a bs).mbctl = s.mbctl := rfl
@[simp] theorem State.writeBytes_signature (s : State) (a : Nat) (bs : List Byte) : (s.writeBytes a bs).signature = s.signature := rfl
@[simp] theorem State.writeBytes_imageHash (s : State) (a : Nat) (bs : List Byte) : (s.writeBytes a bs).imageHash = s.imageHash := rfl
@[simp] theorem State.writeBytes_imageVersion (s : State) (a : Nat) (bs : List Byte) : (s.writeBytes a bs).imageVersion = s.imageVersion := rfl
@[simp] theorem State.writeBytes_fused (s : State) (a : Nat) (bs : List Byte) : (s.writeBytes a bs).fused = s.fused := rfl
@[simp] theorem State.writeBytes_answers (s : State) (a : Nat) (bs : List Byte) : (s.writeBytes a bs).answers = s.answers := rfl
@[simp] theorem State.writeBytes_inputs (s : State) (a : Nat) (bs : List Byte) : (s.writeBytes a bs).inputs = s.inputs := rfl
@[simp] theorem State.writeBytes_fresh (s : State) (a : Nat) (bs : List Byte) : (s.writeBytes a bs).fresh = s.fresh := rfl
@[simp] theorem State.writeBytes_cycle (s : State) (a : Nat) (bs : List Byte) : (s.writeBytes a bs).cycle = s.cycle := rfl

/-! ## State.writeLE -/

@[simp] theorem State.writeLE_cur (s : State) (a n x : Nat) : (s.writeLE a n x).cur = s.cur := rfl
@[simp] theorem State.writeLE_domains (s : State) (a n x : Nat) : (s.writeLE a n x).domains = s.domains := rfl
@[simp] theorem State.writeLE_clusters (s : State) (a n x : Nat) : (s.writeLE a n x).clusters = s.clusters := rfl
@[simp] theorem State.writeLE_dies (s : State) (a n x : Nat) : (s.writeLE a n x).dies = s.dies := rfl
@[simp] theorem State.writeLE_parts (s : State) (a n x : Nat) : (s.writeLE a n x).parts = s.parts := rfl
@[simp] theorem State.writeLE_mem (s : State) (a n x : Nat) : (s.writeLE a n x).mem = writeCellList s.mem a (toLE n x) := rfl
@[simp] theorem State.writeLE_flawed (s : State) (a n x : Nat) : (s.writeLE a n x).flawed = mended s.flawed a (toLE n x).length := rfl
@[simp] theorem State.writeLE_lpacl (s : State) (a n x : Nat) : (s.writeLE a n x).lpacl = s.lpacl := rfl
@[simp] theorem State.writeLE_macl (s : State) (a n x : Nat) : (s.writeLE a n x).macl = s.macl := rfl
@[simp] theorem State.writeLE_partmap (s : State) (a n x : Nat) : (s.writeLE a n x).partmap = s.partmap := rfl
@[simp] theorem State.writeLE_lpdrop (s : State) (a n x : Nat) : (s.writeLE a n x).lpdrop = s.lpdrop := rfl
@[simp] theorem State.writeLE_lqrank (s : State) (a n x : Nat) : (s.writeLE a n x).lqrank = s.lqrank := rfl
@[simp] theorem State.writeLE_egress (s : State) (a n x : Nat) : (s.writeLE a n x).egress = s.egress := rfl
@[simp] theorem State.writeLE_leases (s : State) (a n x : Nat) : (s.writeLE a n x).leases = s.leases := rfl
@[simp] theorem State.writeLE_arrivals (s : State) (a n x : Nat) : (s.writeLE a n x).arrivals = s.arrivals := rfl
@[simp] theorem State.writeLE_stream (s : State) (a n x : Nat) : (s.writeLE a n x).stream = s.stream := rfl
@[simp] theorem State.writeLE_nextSeq (s : State) (a n x : Nat) : (s.writeLE a n x).nextSeq = s.nextSeq := rfl
@[simp] theorem State.writeLE_seqBases (s : State) (a n x : Nat) : (s.writeLE a n x).seqBases = s.seqBases := rfl
@[simp] theorem State.writeLE_queues (s : State) (a n x : Nat) : (s.writeLE a n x).queues = s.queues := rfl
@[simp] theorem State.writeLE_selected (s : State) (a n x : Nat) : (s.writeLE a n x).selected = s.selected := rfl
@[simp] theorem State.writeLE_room (s : State) (a n x : Nat) : (s.writeLE a n x).room = s.room := rfl
@[simp] theorem State.writeLE_lnkst (s : State) (a n x : Nat) : (s.writeLE a n x).lnkst = s.lnkst := rfl
@[simp] theorem State.writeLE_bootst (s : State) (a n x : Nat) : (s.writeLE a n x).bootst = s.bootst := rfl
@[simp] theorem State.writeLE_intst (s : State) (a n x : Nat) : (s.writeLE a n x).intst = s.intst := rfl
@[simp] theorem State.writeLE_pcap (s : State) (a n x : Nat) : (s.writeLE a n x).pcap = s.pcap := rfl
@[simp] theorem State.writeLE_capNow (s : State) (a n x : Nat) : (s.writeLE a n x).capNow = s.capNow := rfl
@[simp] theorem State.writeLE_pcapst (s : State) (a n x : Nat) : (s.writeLE a n x).pcapst = s.pcapst := rfl
@[simp] theorem State.writeLE_mbctl (s : State) (a n x : Nat) : (s.writeLE a n x).mbctl = s.mbctl := rfl
@[simp] theorem State.writeLE_signature (s : State) (a n x : Nat) : (s.writeLE a n x).signature = s.signature := rfl
@[simp] theorem State.writeLE_imageHash (s : State) (a n x : Nat) : (s.writeLE a n x).imageHash = s.imageHash := rfl
@[simp] theorem State.writeLE_imageVersion (s : State) (a n x : Nat) : (s.writeLE a n x).imageVersion = s.imageVersion := rfl
@[simp] theorem State.writeLE_fused (s : State) (a n x : Nat) : (s.writeLE a n x).fused = s.fused := rfl
@[simp] theorem State.writeLE_answers (s : State) (a n x : Nat) : (s.writeLE a n x).answers = s.answers := rfl
@[simp] theorem State.writeLE_inputs (s : State) (a n x : Nat) : (s.writeLE a n x).inputs = s.inputs := rfl
@[simp] theorem State.writeLE_fresh (s : State) (a n x : Nat) : (s.writeLE a n x).fresh = s.fresh := rfl
@[simp] theorem State.writeLE_cycle (s : State) (a n x : Nat) : (s.writeLE a n x).cycle = s.cycle := rfl

/-! ## State.clearRange -/

@[simp] theorem State.clearRange_cur (s : State) (a n : Nat) : (s.clearRange a n).cur = s.cur := rfl
@[simp] theorem State.clearRange_domains (s : State) (a n : Nat) : (s.clearRange a n).domains = s.domains := rfl
@[simp] theorem State.clearRange_clusters (s : State) (a n : Nat) : (s.clearRange a n).clusters = s.clusters := rfl
@[simp] theorem State.clearRange_dies (s : State) (a n : Nat) : (s.clearRange a n).dies = s.dies := rfl
@[simp] theorem State.clearRange_parts (s : State) (a n : Nat) : (s.clearRange a n).parts = s.parts := rfl
@[simp] theorem State.clearRange_mem (s : State) (a n : Nat) : (s.clearRange a n).mem = s.mem.filter (fun c => decide (c.1 < a) || decide (a + n ≤ c.1)) := rfl
@[simp] theorem State.clearRange_flawed (s : State) (a n : Nat) : (s.clearRange a n).flawed = mended s.flawed a n := rfl
@[simp] theorem State.clearRange_lpacl (s : State) (a n : Nat) : (s.clearRange a n).lpacl = s.lpacl := rfl
@[simp] theorem State.clearRange_macl (s : State) (a n : Nat) : (s.clearRange a n).macl = s.macl := rfl
@[simp] theorem State.clearRange_partmap (s : State) (a n : Nat) : (s.clearRange a n).partmap = s.partmap := rfl
@[simp] theorem State.clearRange_lpdrop (s : State) (a n : Nat) : (s.clearRange a n).lpdrop = s.lpdrop := rfl
@[simp] theorem State.clearRange_lqrank (s : State) (a n : Nat) : (s.clearRange a n).lqrank = s.lqrank := rfl
@[simp] theorem State.clearRange_egress (s : State) (a n : Nat) : (s.clearRange a n).egress = s.egress := rfl
@[simp] theorem State.clearRange_leases (s : State) (a n : Nat) : (s.clearRange a n).leases = s.leases := rfl
@[simp] theorem State.clearRange_arrivals (s : State) (a n : Nat) : (s.clearRange a n).arrivals = s.arrivals := rfl
@[simp] theorem State.clearRange_stream (s : State) (a n : Nat) : (s.clearRange a n).stream = s.stream := rfl
@[simp] theorem State.clearRange_nextSeq (s : State) (a n : Nat) : (s.clearRange a n).nextSeq = s.nextSeq := rfl
@[simp] theorem State.clearRange_seqBases (s : State) (a n : Nat) : (s.clearRange a n).seqBases = s.seqBases := rfl
@[simp] theorem State.clearRange_queues (s : State) (a n : Nat) : (s.clearRange a n).queues = s.queues := rfl
@[simp] theorem State.clearRange_selected (s : State) (a n : Nat) : (s.clearRange a n).selected = s.selected := rfl
@[simp] theorem State.clearRange_room (s : State) (a n : Nat) : (s.clearRange a n).room = s.room := rfl
@[simp] theorem State.clearRange_lnkst (s : State) (a n : Nat) : (s.clearRange a n).lnkst = s.lnkst := rfl
@[simp] theorem State.clearRange_bootst (s : State) (a n : Nat) : (s.clearRange a n).bootst = s.bootst := rfl
@[simp] theorem State.clearRange_intst (s : State) (a n : Nat) : (s.clearRange a n).intst = s.intst := rfl
@[simp] theorem State.clearRange_pcap (s : State) (a n : Nat) : (s.clearRange a n).pcap = s.pcap := rfl
@[simp] theorem State.clearRange_capNow (s : State) (a n : Nat) : (s.clearRange a n).capNow = s.capNow := rfl
@[simp] theorem State.clearRange_pcapst (s : State) (a n : Nat) : (s.clearRange a n).pcapst = s.pcapst := rfl
@[simp] theorem State.clearRange_mbctl (s : State) (a n : Nat) : (s.clearRange a n).mbctl = s.mbctl := rfl
@[simp] theorem State.clearRange_signature (s : State) (a n : Nat) : (s.clearRange a n).signature = s.signature := rfl
@[simp] theorem State.clearRange_imageHash (s : State) (a n : Nat) : (s.clearRange a n).imageHash = s.imageHash := rfl
@[simp] theorem State.clearRange_imageVersion (s : State) (a n : Nat) : (s.clearRange a n).imageVersion = s.imageVersion := rfl
@[simp] theorem State.clearRange_fused (s : State) (a n : Nat) : (s.clearRange a n).fused = s.fused := rfl
@[simp] theorem State.clearRange_answers (s : State) (a n : Nat) : (s.clearRange a n).answers = s.answers := rfl
@[simp] theorem State.clearRange_inputs (s : State) (a n : Nat) : (s.clearRange a n).inputs = s.inputs := rfl
@[simp] theorem State.clearRange_fresh (s : State) (a n : Nat) : (s.clearRange a n).fresh = s.fresh := rfl
@[simp] theorem State.clearRange_cycle (s : State) (a n : Nat) : (s.clearRange a n).cycle = s.cycle := rfl

/-! ## State.tickFresh -/

@[simp] theorem State.tickFresh_cur (s : State) : (s.tickFresh).cur = s.cur := rfl
@[simp] theorem State.tickFresh_domains (s : State) : (s.tickFresh).domains = s.domains := rfl
@[simp] theorem State.tickFresh_clusters (s : State) : (s.tickFresh).clusters = s.clusters := rfl
@[simp] theorem State.tickFresh_dies (s : State) : (s.tickFresh).dies = s.dies := rfl
@[simp] theorem State.tickFresh_parts (s : State) : (s.tickFresh).parts = s.parts := rfl
@[simp] theorem State.tickFresh_mem (s : State) : (s.tickFresh).mem = s.mem := rfl
@[simp] theorem State.tickFresh_flawed (s : State) : (s.tickFresh).flawed = s.flawed := rfl
@[simp] theorem State.tickFresh_lpacl (s : State) : (s.tickFresh).lpacl = s.lpacl := rfl
@[simp] theorem State.tickFresh_macl (s : State) : (s.tickFresh).macl = s.macl := rfl
@[simp] theorem State.tickFresh_partmap (s : State) : (s.tickFresh).partmap = s.partmap := rfl
@[simp] theorem State.tickFresh_lpdrop (s : State) : (s.tickFresh).lpdrop = s.lpdrop := rfl
@[simp] theorem State.tickFresh_lqrank (s : State) : (s.tickFresh).lqrank = s.lqrank := rfl
@[simp] theorem State.tickFresh_egress (s : State) : (s.tickFresh).egress = s.egress := rfl
@[simp] theorem State.tickFresh_leases (s : State) : (s.tickFresh).leases = s.leases := rfl
@[simp] theorem State.tickFresh_arrivals (s : State) : (s.tickFresh).arrivals = s.arrivals := rfl
@[simp] theorem State.tickFresh_stream (s : State) : (s.tickFresh).stream = s.stream := rfl
@[simp] theorem State.tickFresh_nextSeq (s : State) : (s.tickFresh).nextSeq = s.nextSeq := rfl
@[simp] theorem State.tickFresh_seqBases (s : State) : (s.tickFresh).seqBases = s.seqBases := rfl
@[simp] theorem State.tickFresh_queues (s : State) : (s.tickFresh).queues = s.queues := rfl
@[simp] theorem State.tickFresh_selected (s : State) : (s.tickFresh).selected = s.selected := rfl
@[simp] theorem State.tickFresh_room (s : State) : (s.tickFresh).room = s.room := rfl
@[simp] theorem State.tickFresh_lnkst (s : State) : (s.tickFresh).lnkst = s.lnkst := rfl
@[simp] theorem State.tickFresh_bootst (s : State) : (s.tickFresh).bootst = s.bootst := rfl
@[simp] theorem State.tickFresh_intst (s : State) : (s.tickFresh).intst = s.intst := rfl
@[simp] theorem State.tickFresh_pcap (s : State) : (s.tickFresh).pcap = s.pcap := rfl
@[simp] theorem State.tickFresh_capNow (s : State) : (s.tickFresh).capNow = s.capNow := rfl
@[simp] theorem State.tickFresh_pcapst (s : State) : (s.tickFresh).pcapst = s.pcapst := rfl
@[simp] theorem State.tickFresh_mbctl (s : State) : (s.tickFresh).mbctl = s.mbctl := rfl
@[simp] theorem State.tickFresh_signature (s : State) : (s.tickFresh).signature = s.signature := rfl
@[simp] theorem State.tickFresh_imageHash (s : State) : (s.tickFresh).imageHash = s.imageHash := rfl
@[simp] theorem State.tickFresh_imageVersion (s : State) : (s.tickFresh).imageVersion = s.imageVersion := rfl
@[simp] theorem State.tickFresh_fused (s : State) : (s.tickFresh).fused = s.fused := rfl
@[simp] theorem State.tickFresh_answers (s : State) : (s.tickFresh).answers = s.answers := rfl
@[simp] theorem State.tickFresh_inputs (s : State) : (s.tickFresh).inputs = s.inputs := rfl
@[simp] theorem State.tickFresh_fresh (s : State) : (s.tickFresh).fresh = s.fresh + 1 := rfl
@[simp] theorem State.tickFresh_cycle (s : State) : (s.tickFresh).cycle = s.cycle := rfl

/-! ## State.raise -/

@[simp] theorem State.raise_cur (s : State) (src code detail : Nat) (addr : W64) : (s.raise src code detail addr).cur = s.cur := rfl
@[simp] theorem State.raise_domains (s : State) (src code detail : Nat) (addr : W64) : (s.raise src code detail addr).domains = s.domains.map (fun d => if d.seq = s.cur.dom then d.raise ⟨d.dtick, s.cur.lt, src, code, detail⟩ addr else d) := rfl
@[simp] theorem State.raise_clusters (s : State) (src code detail : Nat) (addr : W64) : (s.raise src code detail addr).clusters = s.clusters := rfl
@[simp] theorem State.raise_dies (s : State) (src code detail : Nat) (addr : W64) : (s.raise src code detail addr).dies = s.dies := rfl
@[simp] theorem State.raise_parts (s : State) (src code detail : Nat) (addr : W64) : (s.raise src code detail addr).parts = s.parts := rfl
@[simp] theorem State.raise_mem (s : State) (src code detail : Nat) (addr : W64) : (s.raise src code detail addr).mem = s.mem := rfl
@[simp] theorem State.raise_flawed (s : State) (src code detail : Nat) (addr : W64) : (s.raise src code detail addr).flawed = s.flawed := rfl
@[simp] theorem State.raise_lpacl (s : State) (src code detail : Nat) (addr : W64) : (s.raise src code detail addr).lpacl = s.lpacl := rfl
@[simp] theorem State.raise_macl (s : State) (src code detail : Nat) (addr : W64) : (s.raise src code detail addr).macl = s.macl := rfl
@[simp] theorem State.raise_partmap (s : State) (src code detail : Nat) (addr : W64) : (s.raise src code detail addr).partmap = s.partmap := rfl
@[simp] theorem State.raise_lpdrop (s : State) (src code detail : Nat) (addr : W64) : (s.raise src code detail addr).lpdrop = s.lpdrop := rfl
@[simp] theorem State.raise_lqrank (s : State) (src code detail : Nat) (addr : W64) : (s.raise src code detail addr).lqrank = s.lqrank := rfl
@[simp] theorem State.raise_egress (s : State) (src code detail : Nat) (addr : W64) : (s.raise src code detail addr).egress = s.egress := rfl
@[simp] theorem State.raise_leases (s : State) (src code detail : Nat) (addr : W64) : (s.raise src code detail addr).leases = s.leases := rfl
@[simp] theorem State.raise_arrivals (s : State) (src code detail : Nat) (addr : W64) : (s.raise src code detail addr).arrivals = s.arrivals := rfl
@[simp] theorem State.raise_stream (s : State) (src code detail : Nat) (addr : W64) : (s.raise src code detail addr).stream = s.stream := rfl
@[simp] theorem State.raise_nextSeq (s : State) (src code detail : Nat) (addr : W64) : (s.raise src code detail addr).nextSeq = s.nextSeq := rfl
@[simp] theorem State.raise_seqBases (s : State) (src code detail : Nat) (addr : W64) : (s.raise src code detail addr).seqBases = s.seqBases := rfl
@[simp] theorem State.raise_queues (s : State) (src code detail : Nat) (addr : W64) : (s.raise src code detail addr).queues = s.queues := rfl
@[simp] theorem State.raise_selected (s : State) (src code detail : Nat) (addr : W64) : (s.raise src code detail addr).selected = s.selected := rfl
@[simp] theorem State.raise_room (s : State) (src code detail : Nat) (addr : W64) : (s.raise src code detail addr).room = s.room := rfl
@[simp] theorem State.raise_lnkst (s : State) (src code detail : Nat) (addr : W64) : (s.raise src code detail addr).lnkst = s.lnkst := rfl
@[simp] theorem State.raise_bootst (s : State) (src code detail : Nat) (addr : W64) : (s.raise src code detail addr).bootst = s.bootst := rfl
@[simp] theorem State.raise_intst (s : State) (src code detail : Nat) (addr : W64) : (s.raise src code detail addr).intst = s.intst := rfl
@[simp] theorem State.raise_pcap (s : State) (src code detail : Nat) (addr : W64) : (s.raise src code detail addr).pcap = s.pcap := rfl
@[simp] theorem State.raise_capNow (s : State) (src code detail : Nat) (addr : W64) : (s.raise src code detail addr).capNow = s.capNow := rfl
@[simp] theorem State.raise_pcapst (s : State) (src code detail : Nat) (addr : W64) : (s.raise src code detail addr).pcapst = s.pcapst := rfl
@[simp] theorem State.raise_mbctl (s : State) (src code detail : Nat) (addr : W64) : (s.raise src code detail addr).mbctl = s.mbctl := rfl
@[simp] theorem State.raise_signature (s : State) (src code detail : Nat) (addr : W64) : (s.raise src code detail addr).signature = s.signature := rfl
@[simp] theorem State.raise_imageHash (s : State) (src code detail : Nat) (addr : W64) : (s.raise src code detail addr).imageHash = s.imageHash := rfl
@[simp] theorem State.raise_imageVersion (s : State) (src code detail : Nat) (addr : W64) : (s.raise src code detail addr).imageVersion = s.imageVersion := rfl
@[simp] theorem State.raise_fused (s : State) (src code detail : Nat) (addr : W64) : (s.raise src code detail addr).fused = s.fused := rfl
@[simp] theorem State.raise_answers (s : State) (src code detail : Nat) (addr : W64) : (s.raise src code detail addr).answers = s.answers := rfl
@[simp] theorem State.raise_inputs (s : State) (src code detail : Nat) (addr : W64) : (s.raise src code detail addr).inputs = s.inputs := rfl
@[simp] theorem State.raise_fresh (s : State) (src code detail : Nat) (addr : W64) : (s.raise src code detail addr).fresh = s.fresh := rfl
@[simp] theorem State.raise_cycle (s : State) (src code detail : Nat) (addr : W64) : (s.raise src code detail addr).cycle = s.cycle := rfl

/-! ## Tile.send -/

@[simp] theorem Tile.send_lt (t : Tile) (f : Flight) : (t.send f).lt = t.lt := rfl
@[simp] theorem Tile.send_cluster (t : Tile) (f : Flight) : (t.send f).cluster = t.cluster := rfl
@[simp] theorem Tile.send_idx (t : Tile) (f : Flight) : (t.send f).idx = t.idx := rfl
@[simp] theorem Tile.send_slot (t : Tile) (f : Flight) : (t.send f).slot = t.slot := rfl
@[simp] theorem Tile.send_s (t : Tile) (f : Flight) : (t.send f).s = t.s := rfl
@[simp] theorem Tile.send_v (t : Tile) (f : Flight) : (t.send f).v = t.v := rfl
@[simp] theorem Tile.send_sqQ (t : Tile) (f : Flight) : (t.send f).sqQ = t.sqQ := rfl
@[simp] theorem Tile.send_vxQ (t : Tile) (f : Flight) : (t.send f).vxQ = t.vxQ := rfl
@[simp] theorem Tile.send_xcQ (t : Tile) (f : Flight) : (t.send f).xcQ = t.xcQ := rfl
@[simp] theorem Tile.send_lsQ (t : Tile) (f : Flight) : (t.send f).lsQ = t.lsQ := rfl
@[simp] theorem Tile.send_preds (t : Tile) (f : Flight) : (t.send f).preds = t.preds := rfl
@[simp] theorem Tile.send_targets (t : Tile) (f : Flight) : (t.send f).targets = t.targets := rfl
@[simp] theorem Tile.send_stack (t : Tile) (f : Flight) : (t.send f).stack = t.stack := rfl
@[simp] theorem Tile.send_spills (t : Tile) (f : Flight) : (t.send f).spills = t.spills := rfl
@[simp] theorem Tile.send_refill (t : Tile) (f : Flight) : (t.send f).refill = t.refill := rfl
@[simp] theorem Tile.send_owed (t : Tile) (f : Flight) : (t.send f).owed = t.owed := rfl
@[simp] theorem Tile.send_flags (t : Tile) (f : Flight) : (t.send f).flags = t.flags := rfl
@[simp] theorem Tile.send_trapen (t : Tile) (f : Flight) : (t.send f).trapen = t.trapen := rfl
@[simp] theorem Tile.send_rmdyn (t : Tile) (f : Flight) : (t.send f).rmdyn = t.rmdyn := rfl
@[simp] theorem Tile.send_laneflg (t : Tile) (f : Flight) : (t.send f).laneflg = t.laneflg := rfl
@[simp] theorem Tile.send_sems (t : Tile) (f : Flight) : (t.send f).sems = t.sems := rfl
@[simp] theorem Tile.send_confl (t : Tile) (f : Flight) : (t.send f).confl = t.confl := rfl
@[simp] theorem Tile.send_rdv (t : Tile) (f : Flight) : (t.send f).rdv = t.rdv := rfl
@[simp] theorem Tile.send_epoch (t : Tile) (f : Flight) : (t.send f).epoch = t.epoch := rfl
@[simp] theorem Tile.send_depoch (t : Tile) (f : Flight) : (t.send f).depoch = t.depoch := rfl
@[simp] theorem Tile.send_wins (t : Tile) (f : Flight) : (t.send f).wins = t.wins := rfl
@[simp] theorem Tile.send_pace (t : Tile) (f : Flight) : (t.send f).pace = t.pace := rfl
@[simp] theorem Tile.send_sampctl (t : Tile) (f : Flight) : (t.send f).sampctl = t.sampctl := rfl
@[simp] theorem Tile.send_sampDrops (t : Tile) (f : Flight) : (t.send f).sampDrops = t.sampDrops := rfl
@[simp] theorem Tile.send_sampHead (t : Tile) (f : Flight) : (t.send f).sampHead = t.sampHead := rfl
@[simp] theorem Tile.send_block (t : Tile) (f : Flight) : (t.send f).block = t.block := rfl
@[simp] theorem Tile.send_streams (t : Tile) (f : Flight) : (t.send f).streams = t.streams := rfl
@[simp] theorem Tile.send_btick (t : Tile) (f : Flight) : (t.send f).btick = t.btick := rfl
@[simp] theorem Tile.send_rep (t : Tile) (f : Flight) : (t.send f).rep = t.rep := rfl
@[simp] theorem Tile.send_start (t : Tile) (f : Flight) : (t.send f).start = t.start := rfl
@[simp] theorem Tile.send_badBlock (t : Tile) (f : Flight) : (t.send f).badBlock = t.badBlock := rfl
@[simp] theorem Tile.send_lastF64 (t : Tile) (f : Flight) : (t.send f).lastF64 = t.lastF64 := rfl
@[simp] theorem Tile.send_decision (t : Tile) (f : Flight) : (t.send f).decision = t.decision := rfl
@[simp] theorem Tile.send_loader (t : Tile) (f : Flight) : (t.send f).loader = t.loader := rfl
@[simp] theorem Tile.send_flights (t : Tile) (f : Flight) : (t.send f).flights = t.flights ++ [f] := rfl
@[simp] theorem Tile.send_engines (t : Tile) (f : Flight) : (t.send f).engines = t.engines := rfl
@[simp] theorem Tile.send_recs (t : Tile) (f : Flight) : (t.send f).recs = t.recs := rfl
@[simp] theorem Tile.send_haltTick (t : Tile) (f : Flight) : (t.send f).haltTick = t.haltTick := rfl
@[simp] theorem Tile.send_cuts (t : Tile) (f : Flight) : (t.send f).cuts = t.cuts := rfl
@[simp] theorem Tile.send_latsel (t : Tile) (f : Flight) : (t.send f).latsel = t.latsel := rfl
@[simp] theorem Tile.send_faddr (t : Tile) (f : Flight) : (t.send f).faddr = t.faddr := rfl

/-! ## Tile.pushSq -/

@[simp] theorem Tile.pushSq_lt (t : Tile) (x : W64) : (t.pushSq x).lt = t.lt := rfl
@[simp] theorem Tile.pushSq_cluster (t : Tile) (x : W64) : (t.pushSq x).cluster = t.cluster := rfl
@[simp] theorem Tile.pushSq_idx (t : Tile) (x : W64) : (t.pushSq x).idx = t.idx := rfl
@[simp] theorem Tile.pushSq_slot (t : Tile) (x : W64) : (t.pushSq x).slot = t.slot := rfl
@[simp] theorem Tile.pushSq_s (t : Tile) (x : W64) : (t.pushSq x).s = t.s := rfl
@[simp] theorem Tile.pushSq_v (t : Tile) (x : W64) : (t.pushSq x).v = t.v := rfl
@[simp] theorem Tile.pushSq_sqQ (t : Tile) (x : W64) : (t.pushSq x).sqQ = push 16 t.sqQ x := rfl
@[simp] theorem Tile.pushSq_vxQ (t : Tile) (x : W64) : (t.pushSq x).vxQ = t.vxQ := rfl
@[simp] theorem Tile.pushSq_xcQ (t : Tile) (x : W64) : (t.pushSq x).xcQ = t.xcQ := rfl
@[simp] theorem Tile.pushSq_lsQ (t : Tile) (x : W64) : (t.pushSq x).lsQ = t.lsQ := rfl
@[simp] theorem Tile.pushSq_preds (t : Tile) (x : W64) : (t.pushSq x).preds = t.preds := rfl
@[simp] theorem Tile.pushSq_targets (t : Tile) (x : W64) : (t.pushSq x).targets = t.targets := rfl
@[simp] theorem Tile.pushSq_stack (t : Tile) (x : W64) : (t.pushSq x).stack = t.stack := rfl
@[simp] theorem Tile.pushSq_spills (t : Tile) (x : W64) : (t.pushSq x).spills = t.spills := rfl
@[simp] theorem Tile.pushSq_refill (t : Tile) (x : W64) : (t.pushSq x).refill = t.refill := rfl
@[simp] theorem Tile.pushSq_owed (t : Tile) (x : W64) : (t.pushSq x).owed = t.owed := rfl
@[simp] theorem Tile.pushSq_flags (t : Tile) (x : W64) : (t.pushSq x).flags = t.flags := rfl
@[simp] theorem Tile.pushSq_trapen (t : Tile) (x : W64) : (t.pushSq x).trapen = t.trapen := rfl
@[simp] theorem Tile.pushSq_rmdyn (t : Tile) (x : W64) : (t.pushSq x).rmdyn = t.rmdyn := rfl
@[simp] theorem Tile.pushSq_laneflg (t : Tile) (x : W64) : (t.pushSq x).laneflg = t.laneflg := rfl
@[simp] theorem Tile.pushSq_sems (t : Tile) (x : W64) : (t.pushSq x).sems = t.sems := rfl
@[simp] theorem Tile.pushSq_confl (t : Tile) (x : W64) : (t.pushSq x).confl = t.confl := rfl
@[simp] theorem Tile.pushSq_rdv (t : Tile) (x : W64) : (t.pushSq x).rdv = t.rdv := rfl
@[simp] theorem Tile.pushSq_epoch (t : Tile) (x : W64) : (t.pushSq x).epoch = t.epoch := rfl
@[simp] theorem Tile.pushSq_depoch (t : Tile) (x : W64) : (t.pushSq x).depoch = t.depoch := rfl
@[simp] theorem Tile.pushSq_wins (t : Tile) (x : W64) : (t.pushSq x).wins = t.wins := rfl
@[simp] theorem Tile.pushSq_pace (t : Tile) (x : W64) : (t.pushSq x).pace = t.pace := rfl
@[simp] theorem Tile.pushSq_sampctl (t : Tile) (x : W64) : (t.pushSq x).sampctl = t.sampctl := rfl
@[simp] theorem Tile.pushSq_sampDrops (t : Tile) (x : W64) : (t.pushSq x).sampDrops = t.sampDrops := rfl
@[simp] theorem Tile.pushSq_sampHead (t : Tile) (x : W64) : (t.pushSq x).sampHead = t.sampHead := rfl
@[simp] theorem Tile.pushSq_block (t : Tile) (x : W64) : (t.pushSq x).block = t.block := rfl
@[simp] theorem Tile.pushSq_streams (t : Tile) (x : W64) : (t.pushSq x).streams = t.streams := rfl
@[simp] theorem Tile.pushSq_btick (t : Tile) (x : W64) : (t.pushSq x).btick = t.btick := rfl
@[simp] theorem Tile.pushSq_rep (t : Tile) (x : W64) : (t.pushSq x).rep = t.rep := rfl
@[simp] theorem Tile.pushSq_start (t : Tile) (x : W64) : (t.pushSq x).start = t.start := rfl
@[simp] theorem Tile.pushSq_badBlock (t : Tile) (x : W64) : (t.pushSq x).badBlock = t.badBlock := rfl
@[simp] theorem Tile.pushSq_lastF64 (t : Tile) (x : W64) : (t.pushSq x).lastF64 = t.lastF64 := rfl
@[simp] theorem Tile.pushSq_decision (t : Tile) (x : W64) : (t.pushSq x).decision = t.decision := rfl
@[simp] theorem Tile.pushSq_loader (t : Tile) (x : W64) : (t.pushSq x).loader = t.loader := rfl
@[simp] theorem Tile.pushSq_flights (t : Tile) (x : W64) : (t.pushSq x).flights = t.flights := rfl
@[simp] theorem Tile.pushSq_engines (t : Tile) (x : W64) : (t.pushSq x).engines = t.engines := rfl
@[simp] theorem Tile.pushSq_recs (t : Tile) (x : W64) : (t.pushSq x).recs = t.recs := rfl
@[simp] theorem Tile.pushSq_haltTick (t : Tile) (x : W64) : (t.pushSq x).haltTick = t.haltTick := rfl
@[simp] theorem Tile.pushSq_cuts (t : Tile) (x : W64) : (t.pushSq x).cuts = t.cuts := rfl
@[simp] theorem Tile.pushSq_latsel (t : Tile) (x : W64) : (t.pushSq x).latsel = t.latsel := rfl
@[simp] theorem Tile.pushSq_faddr (t : Tile) (x : W64) : (t.pushSq x).faddr = t.faddr := rfl

/-! ## Tile.pushVx -/

@[simp] theorem Tile.pushVx_lt (t : Tile) (x : Lanes) : (t.pushVx x).lt = t.lt := rfl
@[simp] theorem Tile.pushVx_cluster (t : Tile) (x : Lanes) : (t.pushVx x).cluster = t.cluster := rfl
@[simp] theorem Tile.pushVx_idx (t : Tile) (x : Lanes) : (t.pushVx x).idx = t.idx := rfl
@[simp] theorem Tile.pushVx_slot (t : Tile) (x : Lanes) : (t.pushVx x).slot = t.slot := rfl
@[simp] theorem Tile.pushVx_s (t : Tile) (x : Lanes) : (t.pushVx x).s = t.s := rfl
@[simp] theorem Tile.pushVx_v (t : Tile) (x : Lanes) : (t.pushVx x).v = t.v := rfl
@[simp] theorem Tile.pushVx_sqQ (t : Tile) (x : Lanes) : (t.pushVx x).sqQ = t.sqQ := rfl
@[simp] theorem Tile.pushVx_vxQ (t : Tile) (x : Lanes) : (t.pushVx x).vxQ = push 16 t.vxQ x := rfl
@[simp] theorem Tile.pushVx_xcQ (t : Tile) (x : Lanes) : (t.pushVx x).xcQ = t.xcQ := rfl
@[simp] theorem Tile.pushVx_lsQ (t : Tile) (x : Lanes) : (t.pushVx x).lsQ = t.lsQ := rfl
@[simp] theorem Tile.pushVx_preds (t : Tile) (x : Lanes) : (t.pushVx x).preds = t.preds := rfl
@[simp] theorem Tile.pushVx_targets (t : Tile) (x : Lanes) : (t.pushVx x).targets = t.targets := rfl
@[simp] theorem Tile.pushVx_stack (t : Tile) (x : Lanes) : (t.pushVx x).stack = t.stack := rfl
@[simp] theorem Tile.pushVx_spills (t : Tile) (x : Lanes) : (t.pushVx x).spills = t.spills := rfl
@[simp] theorem Tile.pushVx_refill (t : Tile) (x : Lanes) : (t.pushVx x).refill = t.refill := rfl
@[simp] theorem Tile.pushVx_owed (t : Tile) (x : Lanes) : (t.pushVx x).owed = t.owed := rfl
@[simp] theorem Tile.pushVx_flags (t : Tile) (x : Lanes) : (t.pushVx x).flags = t.flags := rfl
@[simp] theorem Tile.pushVx_trapen (t : Tile) (x : Lanes) : (t.pushVx x).trapen = t.trapen := rfl
@[simp] theorem Tile.pushVx_rmdyn (t : Tile) (x : Lanes) : (t.pushVx x).rmdyn = t.rmdyn := rfl
@[simp] theorem Tile.pushVx_laneflg (t : Tile) (x : Lanes) : (t.pushVx x).laneflg = t.laneflg := rfl
@[simp] theorem Tile.pushVx_sems (t : Tile) (x : Lanes) : (t.pushVx x).sems = t.sems := rfl
@[simp] theorem Tile.pushVx_confl (t : Tile) (x : Lanes) : (t.pushVx x).confl = t.confl := rfl
@[simp] theorem Tile.pushVx_rdv (t : Tile) (x : Lanes) : (t.pushVx x).rdv = t.rdv := rfl
@[simp] theorem Tile.pushVx_epoch (t : Tile) (x : Lanes) : (t.pushVx x).epoch = t.epoch := rfl
@[simp] theorem Tile.pushVx_depoch (t : Tile) (x : Lanes) : (t.pushVx x).depoch = t.depoch := rfl
@[simp] theorem Tile.pushVx_wins (t : Tile) (x : Lanes) : (t.pushVx x).wins = t.wins := rfl
@[simp] theorem Tile.pushVx_pace (t : Tile) (x : Lanes) : (t.pushVx x).pace = t.pace := rfl
@[simp] theorem Tile.pushVx_sampctl (t : Tile) (x : Lanes) : (t.pushVx x).sampctl = t.sampctl := rfl
@[simp] theorem Tile.pushVx_sampDrops (t : Tile) (x : Lanes) : (t.pushVx x).sampDrops = t.sampDrops := rfl
@[simp] theorem Tile.pushVx_sampHead (t : Tile) (x : Lanes) : (t.pushVx x).sampHead = t.sampHead := rfl
@[simp] theorem Tile.pushVx_block (t : Tile) (x : Lanes) : (t.pushVx x).block = t.block := rfl
@[simp] theorem Tile.pushVx_streams (t : Tile) (x : Lanes) : (t.pushVx x).streams = t.streams := rfl
@[simp] theorem Tile.pushVx_btick (t : Tile) (x : Lanes) : (t.pushVx x).btick = t.btick := rfl
@[simp] theorem Tile.pushVx_rep (t : Tile) (x : Lanes) : (t.pushVx x).rep = t.rep := rfl
@[simp] theorem Tile.pushVx_start (t : Tile) (x : Lanes) : (t.pushVx x).start = t.start := rfl
@[simp] theorem Tile.pushVx_badBlock (t : Tile) (x : Lanes) : (t.pushVx x).badBlock = t.badBlock := rfl
@[simp] theorem Tile.pushVx_lastF64 (t : Tile) (x : Lanes) : (t.pushVx x).lastF64 = t.lastF64 := rfl
@[simp] theorem Tile.pushVx_decision (t : Tile) (x : Lanes) : (t.pushVx x).decision = t.decision := rfl
@[simp] theorem Tile.pushVx_loader (t : Tile) (x : Lanes) : (t.pushVx x).loader = t.loader := rfl
@[simp] theorem Tile.pushVx_flights (t : Tile) (x : Lanes) : (t.pushVx x).flights = t.flights := rfl
@[simp] theorem Tile.pushVx_engines (t : Tile) (x : Lanes) : (t.pushVx x).engines = t.engines := rfl
@[simp] theorem Tile.pushVx_recs (t : Tile) (x : Lanes) : (t.pushVx x).recs = t.recs := rfl
@[simp] theorem Tile.pushVx_haltTick (t : Tile) (x : Lanes) : (t.pushVx x).haltTick = t.haltTick := rfl
@[simp] theorem Tile.pushVx_cuts (t : Tile) (x : Lanes) : (t.pushVx x).cuts = t.cuts := rfl
@[simp] theorem Tile.pushVx_latsel (t : Tile) (x : Lanes) : (t.pushVx x).latsel = t.latsel := rfl
@[simp] theorem Tile.pushVx_faddr (t : Tile) (x : Lanes) : (t.pushVx x).faddr = t.faddr := rfl

/-! ## Tile.pushXc -/

@[simp] theorem Tile.pushXc_lt (t : Tile) (x : Lanes) : (t.pushXc x).lt = t.lt := rfl
@[simp] theorem Tile.pushXc_cluster (t : Tile) (x : Lanes) : (t.pushXc x).cluster = t.cluster := rfl
@[simp] theorem Tile.pushXc_idx (t : Tile) (x : Lanes) : (t.pushXc x).idx = t.idx := rfl
@[simp] theorem Tile.pushXc_slot (t : Tile) (x : Lanes) : (t.pushXc x).slot = t.slot := rfl
@[simp] theorem Tile.pushXc_s (t : Tile) (x : Lanes) : (t.pushXc x).s = t.s := rfl
@[simp] theorem Tile.pushXc_v (t : Tile) (x : Lanes) : (t.pushXc x).v = t.v := rfl
@[simp] theorem Tile.pushXc_sqQ (t : Tile) (x : Lanes) : (t.pushXc x).sqQ = t.sqQ := rfl
@[simp] theorem Tile.pushXc_vxQ (t : Tile) (x : Lanes) : (t.pushXc x).vxQ = t.vxQ := rfl
@[simp] theorem Tile.pushXc_xcQ (t : Tile) (x : Lanes) : (t.pushXc x).xcQ = push 8 t.xcQ x := rfl
@[simp] theorem Tile.pushXc_lsQ (t : Tile) (x : Lanes) : (t.pushXc x).lsQ = t.lsQ := rfl
@[simp] theorem Tile.pushXc_preds (t : Tile) (x : Lanes) : (t.pushXc x).preds = t.preds := rfl
@[simp] theorem Tile.pushXc_targets (t : Tile) (x : Lanes) : (t.pushXc x).targets = t.targets := rfl
@[simp] theorem Tile.pushXc_stack (t : Tile) (x : Lanes) : (t.pushXc x).stack = t.stack := rfl
@[simp] theorem Tile.pushXc_spills (t : Tile) (x : Lanes) : (t.pushXc x).spills = t.spills := rfl
@[simp] theorem Tile.pushXc_refill (t : Tile) (x : Lanes) : (t.pushXc x).refill = t.refill := rfl
@[simp] theorem Tile.pushXc_owed (t : Tile) (x : Lanes) : (t.pushXc x).owed = t.owed := rfl
@[simp] theorem Tile.pushXc_flags (t : Tile) (x : Lanes) : (t.pushXc x).flags = t.flags := rfl
@[simp] theorem Tile.pushXc_trapen (t : Tile) (x : Lanes) : (t.pushXc x).trapen = t.trapen := rfl
@[simp] theorem Tile.pushXc_rmdyn (t : Tile) (x : Lanes) : (t.pushXc x).rmdyn = t.rmdyn := rfl
@[simp] theorem Tile.pushXc_laneflg (t : Tile) (x : Lanes) : (t.pushXc x).laneflg = t.laneflg := rfl
@[simp] theorem Tile.pushXc_sems (t : Tile) (x : Lanes) : (t.pushXc x).sems = t.sems := rfl
@[simp] theorem Tile.pushXc_confl (t : Tile) (x : Lanes) : (t.pushXc x).confl = t.confl := rfl
@[simp] theorem Tile.pushXc_rdv (t : Tile) (x : Lanes) : (t.pushXc x).rdv = t.rdv := rfl
@[simp] theorem Tile.pushXc_epoch (t : Tile) (x : Lanes) : (t.pushXc x).epoch = t.epoch := rfl
@[simp] theorem Tile.pushXc_depoch (t : Tile) (x : Lanes) : (t.pushXc x).depoch = t.depoch := rfl
@[simp] theorem Tile.pushXc_wins (t : Tile) (x : Lanes) : (t.pushXc x).wins = t.wins := rfl
@[simp] theorem Tile.pushXc_pace (t : Tile) (x : Lanes) : (t.pushXc x).pace = t.pace := rfl
@[simp] theorem Tile.pushXc_sampctl (t : Tile) (x : Lanes) : (t.pushXc x).sampctl = t.sampctl := rfl
@[simp] theorem Tile.pushXc_sampDrops (t : Tile) (x : Lanes) : (t.pushXc x).sampDrops = t.sampDrops := rfl
@[simp] theorem Tile.pushXc_sampHead (t : Tile) (x : Lanes) : (t.pushXc x).sampHead = t.sampHead := rfl
@[simp] theorem Tile.pushXc_block (t : Tile) (x : Lanes) : (t.pushXc x).block = t.block := rfl
@[simp] theorem Tile.pushXc_streams (t : Tile) (x : Lanes) : (t.pushXc x).streams = t.streams := rfl
@[simp] theorem Tile.pushXc_btick (t : Tile) (x : Lanes) : (t.pushXc x).btick = t.btick := rfl
@[simp] theorem Tile.pushXc_rep (t : Tile) (x : Lanes) : (t.pushXc x).rep = t.rep := rfl
@[simp] theorem Tile.pushXc_start (t : Tile) (x : Lanes) : (t.pushXc x).start = t.start := rfl
@[simp] theorem Tile.pushXc_badBlock (t : Tile) (x : Lanes) : (t.pushXc x).badBlock = t.badBlock := rfl
@[simp] theorem Tile.pushXc_lastF64 (t : Tile) (x : Lanes) : (t.pushXc x).lastF64 = t.lastF64 := rfl
@[simp] theorem Tile.pushXc_decision (t : Tile) (x : Lanes) : (t.pushXc x).decision = t.decision := rfl
@[simp] theorem Tile.pushXc_loader (t : Tile) (x : Lanes) : (t.pushXc x).loader = t.loader := rfl
@[simp] theorem Tile.pushXc_flights (t : Tile) (x : Lanes) : (t.pushXc x).flights = t.flights := rfl
@[simp] theorem Tile.pushXc_engines (t : Tile) (x : Lanes) : (t.pushXc x).engines = t.engines := rfl
@[simp] theorem Tile.pushXc_recs (t : Tile) (x : Lanes) : (t.pushXc x).recs = t.recs := rfl
@[simp] theorem Tile.pushXc_haltTick (t : Tile) (x : Lanes) : (t.pushXc x).haltTick = t.haltTick := rfl
@[simp] theorem Tile.pushXc_cuts (t : Tile) (x : Lanes) : (t.pushXc x).cuts = t.cuts := rfl
@[simp] theorem Tile.pushXc_latsel (t : Tile) (x : Lanes) : (t.pushXc x).latsel = t.latsel := rfl
@[simp] theorem Tile.pushXc_faddr (t : Tile) (x : Lanes) : (t.pushXc x).faddr = t.faddr := rfl

/-! ## Tile.pushLs -/

@[simp] theorem Tile.pushLs_lt (t : Tile) (x : Lanes) : (t.pushLs x).lt = t.lt := rfl
@[simp] theorem Tile.pushLs_cluster (t : Tile) (x : Lanes) : (t.pushLs x).cluster = t.cluster := rfl
@[simp] theorem Tile.pushLs_idx (t : Tile) (x : Lanes) : (t.pushLs x).idx = t.idx := rfl
@[simp] theorem Tile.pushLs_slot (t : Tile) (x : Lanes) : (t.pushLs x).slot = t.slot := rfl
@[simp] theorem Tile.pushLs_s (t : Tile) (x : Lanes) : (t.pushLs x).s = t.s := rfl
@[simp] theorem Tile.pushLs_v (t : Tile) (x : Lanes) : (t.pushLs x).v = t.v := rfl
@[simp] theorem Tile.pushLs_sqQ (t : Tile) (x : Lanes) : (t.pushLs x).sqQ = t.sqQ := rfl
@[simp] theorem Tile.pushLs_vxQ (t : Tile) (x : Lanes) : (t.pushLs x).vxQ = t.vxQ := rfl
@[simp] theorem Tile.pushLs_xcQ (t : Tile) (x : Lanes) : (t.pushLs x).xcQ = t.xcQ := rfl
@[simp] theorem Tile.pushLs_lsQ (t : Tile) (x : Lanes) : (t.pushLs x).lsQ = push 8 t.lsQ x := rfl
@[simp] theorem Tile.pushLs_preds (t : Tile) (x : Lanes) : (t.pushLs x).preds = t.preds := rfl
@[simp] theorem Tile.pushLs_targets (t : Tile) (x : Lanes) : (t.pushLs x).targets = t.targets := rfl
@[simp] theorem Tile.pushLs_stack (t : Tile) (x : Lanes) : (t.pushLs x).stack = t.stack := rfl
@[simp] theorem Tile.pushLs_spills (t : Tile) (x : Lanes) : (t.pushLs x).spills = t.spills := rfl
@[simp] theorem Tile.pushLs_refill (t : Tile) (x : Lanes) : (t.pushLs x).refill = t.refill := rfl
@[simp] theorem Tile.pushLs_owed (t : Tile) (x : Lanes) : (t.pushLs x).owed = t.owed := rfl
@[simp] theorem Tile.pushLs_flags (t : Tile) (x : Lanes) : (t.pushLs x).flags = t.flags := rfl
@[simp] theorem Tile.pushLs_trapen (t : Tile) (x : Lanes) : (t.pushLs x).trapen = t.trapen := rfl
@[simp] theorem Tile.pushLs_rmdyn (t : Tile) (x : Lanes) : (t.pushLs x).rmdyn = t.rmdyn := rfl
@[simp] theorem Tile.pushLs_laneflg (t : Tile) (x : Lanes) : (t.pushLs x).laneflg = t.laneflg := rfl
@[simp] theorem Tile.pushLs_sems (t : Tile) (x : Lanes) : (t.pushLs x).sems = t.sems := rfl
@[simp] theorem Tile.pushLs_confl (t : Tile) (x : Lanes) : (t.pushLs x).confl = t.confl := rfl
@[simp] theorem Tile.pushLs_rdv (t : Tile) (x : Lanes) : (t.pushLs x).rdv = t.rdv := rfl
@[simp] theorem Tile.pushLs_epoch (t : Tile) (x : Lanes) : (t.pushLs x).epoch = t.epoch := rfl
@[simp] theorem Tile.pushLs_depoch (t : Tile) (x : Lanes) : (t.pushLs x).depoch = t.depoch := rfl
@[simp] theorem Tile.pushLs_wins (t : Tile) (x : Lanes) : (t.pushLs x).wins = t.wins := rfl
@[simp] theorem Tile.pushLs_pace (t : Tile) (x : Lanes) : (t.pushLs x).pace = t.pace := rfl
@[simp] theorem Tile.pushLs_sampctl (t : Tile) (x : Lanes) : (t.pushLs x).sampctl = t.sampctl := rfl
@[simp] theorem Tile.pushLs_sampDrops (t : Tile) (x : Lanes) : (t.pushLs x).sampDrops = t.sampDrops := rfl
@[simp] theorem Tile.pushLs_sampHead (t : Tile) (x : Lanes) : (t.pushLs x).sampHead = t.sampHead := rfl
@[simp] theorem Tile.pushLs_block (t : Tile) (x : Lanes) : (t.pushLs x).block = t.block := rfl
@[simp] theorem Tile.pushLs_streams (t : Tile) (x : Lanes) : (t.pushLs x).streams = t.streams := rfl
@[simp] theorem Tile.pushLs_btick (t : Tile) (x : Lanes) : (t.pushLs x).btick = t.btick := rfl
@[simp] theorem Tile.pushLs_rep (t : Tile) (x : Lanes) : (t.pushLs x).rep = t.rep := rfl
@[simp] theorem Tile.pushLs_start (t : Tile) (x : Lanes) : (t.pushLs x).start = t.start := rfl
@[simp] theorem Tile.pushLs_badBlock (t : Tile) (x : Lanes) : (t.pushLs x).badBlock = t.badBlock := rfl
@[simp] theorem Tile.pushLs_lastF64 (t : Tile) (x : Lanes) : (t.pushLs x).lastF64 = t.lastF64 := rfl
@[simp] theorem Tile.pushLs_decision (t : Tile) (x : Lanes) : (t.pushLs x).decision = t.decision := rfl
@[simp] theorem Tile.pushLs_loader (t : Tile) (x : Lanes) : (t.pushLs x).loader = t.loader := rfl
@[simp] theorem Tile.pushLs_flights (t : Tile) (x : Lanes) : (t.pushLs x).flights = t.flights := rfl
@[simp] theorem Tile.pushLs_engines (t : Tile) (x : Lanes) : (t.pushLs x).engines = t.engines := rfl
@[simp] theorem Tile.pushLs_recs (t : Tile) (x : Lanes) : (t.pushLs x).recs = t.recs := rfl
@[simp] theorem Tile.pushLs_haltTick (t : Tile) (x : Lanes) : (t.pushLs x).haltTick = t.haltTick := rfl
@[simp] theorem Tile.pushLs_cuts (t : Tile) (x : Lanes) : (t.pushLs x).cuts = t.cuts := rfl
@[simp] theorem Tile.pushLs_latsel (t : Tile) (x : Lanes) : (t.pushLs x).latsel = t.latsel := rfl
@[simp] theorem Tile.pushLs_faddr (t : Tile) (x : Lanes) : (t.pushLs x).faddr = t.faddr := rfl

/-! ## Tile.setVreg -/

@[simp] theorem Tile.setVreg_lt (t : Tile) (n : BitVec 4) (x : Lanes) : (t.setVreg n x).lt = t.lt := rfl
@[simp] theorem Tile.setVreg_cluster (t : Tile) (n : BitVec 4) (x : Lanes) : (t.setVreg n x).cluster = t.cluster := rfl
@[simp] theorem Tile.setVreg_idx (t : Tile) (n : BitVec 4) (x : Lanes) : (t.setVreg n x).idx = t.idx := rfl
@[simp] theorem Tile.setVreg_slot (t : Tile) (n : BitVec 4) (x : Lanes) : (t.setVreg n x).slot = t.slot := rfl
@[simp] theorem Tile.setVreg_s (t : Tile) (n : BitVec 4) (x : Lanes) : (t.setVreg n x).s = t.s := rfl
@[simp] theorem Tile.setVreg_v (t : Tile) (n : BitVec 4) (x : Lanes) : (t.setVreg n x).v = upd t.v n.toNat (fun _ => x) := rfl
@[simp] theorem Tile.setVreg_sqQ (t : Tile) (n : BitVec 4) (x : Lanes) : (t.setVreg n x).sqQ = t.sqQ := rfl
@[simp] theorem Tile.setVreg_vxQ (t : Tile) (n : BitVec 4) (x : Lanes) : (t.setVreg n x).vxQ = t.vxQ := rfl
@[simp] theorem Tile.setVreg_xcQ (t : Tile) (n : BitVec 4) (x : Lanes) : (t.setVreg n x).xcQ = t.xcQ := rfl
@[simp] theorem Tile.setVreg_lsQ (t : Tile) (n : BitVec 4) (x : Lanes) : (t.setVreg n x).lsQ = t.lsQ := rfl
@[simp] theorem Tile.setVreg_preds (t : Tile) (n : BitVec 4) (x : Lanes) : (t.setVreg n x).preds = t.preds := rfl
@[simp] theorem Tile.setVreg_targets (t : Tile) (n : BitVec 4) (x : Lanes) : (t.setVreg n x).targets = t.targets := rfl
@[simp] theorem Tile.setVreg_stack (t : Tile) (n : BitVec 4) (x : Lanes) : (t.setVreg n x).stack = t.stack := rfl
@[simp] theorem Tile.setVreg_spills (t : Tile) (n : BitVec 4) (x : Lanes) : (t.setVreg n x).spills = t.spills := rfl
@[simp] theorem Tile.setVreg_refill (t : Tile) (n : BitVec 4) (x : Lanes) : (t.setVreg n x).refill = t.refill := rfl
@[simp] theorem Tile.setVreg_owed (t : Tile) (n : BitVec 4) (x : Lanes) : (t.setVreg n x).owed = t.owed := rfl
@[simp] theorem Tile.setVreg_flags (t : Tile) (n : BitVec 4) (x : Lanes) : (t.setVreg n x).flags = t.flags := rfl
@[simp] theorem Tile.setVreg_trapen (t : Tile) (n : BitVec 4) (x : Lanes) : (t.setVreg n x).trapen = t.trapen := rfl
@[simp] theorem Tile.setVreg_rmdyn (t : Tile) (n : BitVec 4) (x : Lanes) : (t.setVreg n x).rmdyn = t.rmdyn := rfl
@[simp] theorem Tile.setVreg_laneflg (t : Tile) (n : BitVec 4) (x : Lanes) : (t.setVreg n x).laneflg = t.laneflg := rfl
@[simp] theorem Tile.setVreg_sems (t : Tile) (n : BitVec 4) (x : Lanes) : (t.setVreg n x).sems = t.sems := rfl
@[simp] theorem Tile.setVreg_confl (t : Tile) (n : BitVec 4) (x : Lanes) : (t.setVreg n x).confl = t.confl := rfl
@[simp] theorem Tile.setVreg_rdv (t : Tile) (n : BitVec 4) (x : Lanes) : (t.setVreg n x).rdv = t.rdv := rfl
@[simp] theorem Tile.setVreg_epoch (t : Tile) (n : BitVec 4) (x : Lanes) : (t.setVreg n x).epoch = t.epoch := rfl
@[simp] theorem Tile.setVreg_depoch (t : Tile) (n : BitVec 4) (x : Lanes) : (t.setVreg n x).depoch = t.depoch := rfl
@[simp] theorem Tile.setVreg_wins (t : Tile) (n : BitVec 4) (x : Lanes) : (t.setVreg n x).wins = t.wins := rfl
@[simp] theorem Tile.setVreg_pace (t : Tile) (n : BitVec 4) (x : Lanes) : (t.setVreg n x).pace = t.pace := rfl
@[simp] theorem Tile.setVreg_sampctl (t : Tile) (n : BitVec 4) (x : Lanes) : (t.setVreg n x).sampctl = t.sampctl := rfl
@[simp] theorem Tile.setVreg_sampDrops (t : Tile) (n : BitVec 4) (x : Lanes) : (t.setVreg n x).sampDrops = t.sampDrops := rfl
@[simp] theorem Tile.setVreg_sampHead (t : Tile) (n : BitVec 4) (x : Lanes) : (t.setVreg n x).sampHead = t.sampHead := rfl
@[simp] theorem Tile.setVreg_block (t : Tile) (n : BitVec 4) (x : Lanes) : (t.setVreg n x).block = t.block := rfl
@[simp] theorem Tile.setVreg_streams (t : Tile) (n : BitVec 4) (x : Lanes) : (t.setVreg n x).streams = t.streams := rfl
@[simp] theorem Tile.setVreg_btick (t : Tile) (n : BitVec 4) (x : Lanes) : (t.setVreg n x).btick = t.btick := rfl
@[simp] theorem Tile.setVreg_rep (t : Tile) (n : BitVec 4) (x : Lanes) : (t.setVreg n x).rep = t.rep := rfl
@[simp] theorem Tile.setVreg_start (t : Tile) (n : BitVec 4) (x : Lanes) : (t.setVreg n x).start = t.start := rfl
@[simp] theorem Tile.setVreg_badBlock (t : Tile) (n : BitVec 4) (x : Lanes) : (t.setVreg n x).badBlock = t.badBlock := rfl
@[simp] theorem Tile.setVreg_lastF64 (t : Tile) (n : BitVec 4) (x : Lanes) : (t.setVreg n x).lastF64 = t.lastF64 := rfl
@[simp] theorem Tile.setVreg_decision (t : Tile) (n : BitVec 4) (x : Lanes) : (t.setVreg n x).decision = t.decision := rfl
@[simp] theorem Tile.setVreg_loader (t : Tile) (n : BitVec 4) (x : Lanes) : (t.setVreg n x).loader = t.loader := rfl
@[simp] theorem Tile.setVreg_flights (t : Tile) (n : BitVec 4) (x : Lanes) : (t.setVreg n x).flights = t.flights := rfl
@[simp] theorem Tile.setVreg_engines (t : Tile) (n : BitVec 4) (x : Lanes) : (t.setVreg n x).engines = t.engines := rfl
@[simp] theorem Tile.setVreg_recs (t : Tile) (n : BitVec 4) (x : Lanes) : (t.setVreg n x).recs = t.recs := rfl
@[simp] theorem Tile.setVreg_haltTick (t : Tile) (n : BitVec 4) (x : Lanes) : (t.setVreg n x).haltTick = t.haltTick := rfl
@[simp] theorem Tile.setVreg_cuts (t : Tile) (n : BitVec 4) (x : Lanes) : (t.setVreg n x).cuts = t.cuts := rfl
@[simp] theorem Tile.setVreg_latsel (t : Tile) (n : BitVec 4) (x : Lanes) : (t.setVreg n x).latsel = t.latsel := rfl
@[simp] theorem Tile.setVreg_faddr (t : Tile) (n : BitVec 4) (x : Lanes) : (t.setVreg n x).faddr = t.faddr := rfl

/-! ## Tile.setPred -/

@[simp] theorem Tile.setPred_lt (t : Tile) (p : BitVec 3) (v : Bool) : (t.setPred p v).lt = t.lt := rfl
@[simp] theorem Tile.setPred_cluster (t : Tile) (p : BitVec 3) (v : Bool) : (t.setPred p v).cluster = t.cluster := rfl
@[simp] theorem Tile.setPred_idx (t : Tile) (p : BitVec 3) (v : Bool) : (t.setPred p v).idx = t.idx := rfl
@[simp] theorem Tile.setPred_slot (t : Tile) (p : BitVec 3) (v : Bool) : (t.setPred p v).slot = t.slot := rfl
@[simp] theorem Tile.setPred_s (t : Tile) (p : BitVec 3) (v : Bool) : (t.setPred p v).s = t.s := rfl
@[simp] theorem Tile.setPred_v (t : Tile) (p : BitVec 3) (v : Bool) : (t.setPred p v).v = t.v := rfl
@[simp] theorem Tile.setPred_sqQ (t : Tile) (p : BitVec 3) (v : Bool) : (t.setPred p v).sqQ = t.sqQ := rfl
@[simp] theorem Tile.setPred_vxQ (t : Tile) (p : BitVec 3) (v : Bool) : (t.setPred p v).vxQ = t.vxQ := rfl
@[simp] theorem Tile.setPred_xcQ (t : Tile) (p : BitVec 3) (v : Bool) : (t.setPred p v).xcQ = t.xcQ := rfl
@[simp] theorem Tile.setPred_lsQ (t : Tile) (p : BitVec 3) (v : Bool) : (t.setPred p v).lsQ = t.lsQ := rfl
@[simp] theorem Tile.setPred_preds (t : Tile) (p : BitVec 3) (v : Bool) : (t.setPred p v).preds = upd t.preds p.toNat (fun _ => ⟨v, true⟩) := rfl
@[simp] theorem Tile.setPred_targets (t : Tile) (p : BitVec 3) (v : Bool) : (t.setPred p v).targets = t.targets := rfl
@[simp] theorem Tile.setPred_stack (t : Tile) (p : BitVec 3) (v : Bool) : (t.setPred p v).stack = t.stack := rfl
@[simp] theorem Tile.setPred_spills (t : Tile) (p : BitVec 3) (v : Bool) : (t.setPred p v).spills = t.spills := rfl
@[simp] theorem Tile.setPred_refill (t : Tile) (p : BitVec 3) (v : Bool) : (t.setPred p v).refill = t.refill := rfl
@[simp] theorem Tile.setPred_owed (t : Tile) (p : BitVec 3) (v : Bool) : (t.setPred p v).owed = t.owed := rfl
@[simp] theorem Tile.setPred_flags (t : Tile) (p : BitVec 3) (v : Bool) : (t.setPred p v).flags = t.flags := rfl
@[simp] theorem Tile.setPred_trapen (t : Tile) (p : BitVec 3) (v : Bool) : (t.setPred p v).trapen = t.trapen := rfl
@[simp] theorem Tile.setPred_rmdyn (t : Tile) (p : BitVec 3) (v : Bool) : (t.setPred p v).rmdyn = t.rmdyn := rfl
@[simp] theorem Tile.setPred_laneflg (t : Tile) (p : BitVec 3) (v : Bool) : (t.setPred p v).laneflg = t.laneflg := rfl
@[simp] theorem Tile.setPred_sems (t : Tile) (p : BitVec 3) (v : Bool) : (t.setPred p v).sems = t.sems := rfl
@[simp] theorem Tile.setPred_confl (t : Tile) (p : BitVec 3) (v : Bool) : (t.setPred p v).confl = t.confl := rfl
@[simp] theorem Tile.setPred_rdv (t : Tile) (p : BitVec 3) (v : Bool) : (t.setPred p v).rdv = t.rdv := rfl
@[simp] theorem Tile.setPred_epoch (t : Tile) (p : BitVec 3) (v : Bool) : (t.setPred p v).epoch = t.epoch := rfl
@[simp] theorem Tile.setPred_depoch (t : Tile) (p : BitVec 3) (v : Bool) : (t.setPred p v).depoch = t.depoch := rfl
@[simp] theorem Tile.setPred_wins (t : Tile) (p : BitVec 3) (v : Bool) : (t.setPred p v).wins = t.wins := rfl
@[simp] theorem Tile.setPred_pace (t : Tile) (p : BitVec 3) (v : Bool) : (t.setPred p v).pace = t.pace := rfl
@[simp] theorem Tile.setPred_sampctl (t : Tile) (p : BitVec 3) (v : Bool) : (t.setPred p v).sampctl = t.sampctl := rfl
@[simp] theorem Tile.setPred_sampDrops (t : Tile) (p : BitVec 3) (v : Bool) : (t.setPred p v).sampDrops = t.sampDrops := rfl
@[simp] theorem Tile.setPred_sampHead (t : Tile) (p : BitVec 3) (v : Bool) : (t.setPred p v).sampHead = t.sampHead := rfl
@[simp] theorem Tile.setPred_block (t : Tile) (p : BitVec 3) (v : Bool) : (t.setPred p v).block = t.block := rfl
@[simp] theorem Tile.setPred_streams (t : Tile) (p : BitVec 3) (v : Bool) : (t.setPred p v).streams = t.streams := rfl
@[simp] theorem Tile.setPred_btick (t : Tile) (p : BitVec 3) (v : Bool) : (t.setPred p v).btick = t.btick := rfl
@[simp] theorem Tile.setPred_rep (t : Tile) (p : BitVec 3) (v : Bool) : (t.setPred p v).rep = t.rep := rfl
@[simp] theorem Tile.setPred_start (t : Tile) (p : BitVec 3) (v : Bool) : (t.setPred p v).start = t.start := rfl
@[simp] theorem Tile.setPred_badBlock (t : Tile) (p : BitVec 3) (v : Bool) : (t.setPred p v).badBlock = t.badBlock := rfl
@[simp] theorem Tile.setPred_lastF64 (t : Tile) (p : BitVec 3) (v : Bool) : (t.setPred p v).lastF64 = t.lastF64 := rfl
@[simp] theorem Tile.setPred_decision (t : Tile) (p : BitVec 3) (v : Bool) : (t.setPred p v).decision = t.decision := rfl
@[simp] theorem Tile.setPred_loader (t : Tile) (p : BitVec 3) (v : Bool) : (t.setPred p v).loader = t.loader := rfl
@[simp] theorem Tile.setPred_flights (t : Tile) (p : BitVec 3) (v : Bool) : (t.setPred p v).flights = t.flights := rfl
@[simp] theorem Tile.setPred_engines (t : Tile) (p : BitVec 3) (v : Bool) : (t.setPred p v).engines = t.engines := rfl
@[simp] theorem Tile.setPred_recs (t : Tile) (p : BitVec 3) (v : Bool) : (t.setPred p v).recs = t.recs := rfl
@[simp] theorem Tile.setPred_haltTick (t : Tile) (p : BitVec 3) (v : Bool) : (t.setPred p v).haltTick = t.haltTick := rfl
@[simp] theorem Tile.setPred_cuts (t : Tile) (p : BitVec 3) (v : Bool) : (t.setPred p v).cuts = t.cuts := rfl
@[simp] theorem Tile.setPred_latsel (t : Tile) (p : BitVec 3) (v : Bool) : (t.setPred p v).latsel = t.latsel := rfl
@[simp] theorem Tile.setPred_faddr (t : Tile) (p : BitVec 3) (v : Bool) : (t.setPred p v).faddr = t.faddr := rfl

/-! ## Tile.setWin -/

@[simp] theorem Tile.setWin_lt (t : Tile) (w : Nat) (x : Win) : (t.setWin w x).lt = t.lt := rfl
@[simp] theorem Tile.setWin_cluster (t : Tile) (w : Nat) (x : Win) : (t.setWin w x).cluster = t.cluster := rfl
@[simp] theorem Tile.setWin_idx (t : Tile) (w : Nat) (x : Win) : (t.setWin w x).idx = t.idx := rfl
@[simp] theorem Tile.setWin_slot (t : Tile) (w : Nat) (x : Win) : (t.setWin w x).slot = t.slot := rfl
@[simp] theorem Tile.setWin_s (t : Tile) (w : Nat) (x : Win) : (t.setWin w x).s = t.s := rfl
@[simp] theorem Tile.setWin_v (t : Tile) (w : Nat) (x : Win) : (t.setWin w x).v = t.v := rfl
@[simp] theorem Tile.setWin_sqQ (t : Tile) (w : Nat) (x : Win) : (t.setWin w x).sqQ = t.sqQ := rfl
@[simp] theorem Tile.setWin_vxQ (t : Tile) (w : Nat) (x : Win) : (t.setWin w x).vxQ = t.vxQ := rfl
@[simp] theorem Tile.setWin_xcQ (t : Tile) (w : Nat) (x : Win) : (t.setWin w x).xcQ = t.xcQ := rfl
@[simp] theorem Tile.setWin_lsQ (t : Tile) (w : Nat) (x : Win) : (t.setWin w x).lsQ = t.lsQ := rfl
@[simp] theorem Tile.setWin_preds (t : Tile) (w : Nat) (x : Win) : (t.setWin w x).preds = t.preds := rfl
@[simp] theorem Tile.setWin_targets (t : Tile) (w : Nat) (x : Win) : (t.setWin w x).targets = t.targets := rfl
@[simp] theorem Tile.setWin_stack (t : Tile) (w : Nat) (x : Win) : (t.setWin w x).stack = t.stack := rfl
@[simp] theorem Tile.setWin_spills (t : Tile) (w : Nat) (x : Win) : (t.setWin w x).spills = t.spills := rfl
@[simp] theorem Tile.setWin_refill (t : Tile) (w : Nat) (x : Win) : (t.setWin w x).refill = t.refill := rfl
@[simp] theorem Tile.setWin_owed (t : Tile) (w : Nat) (x : Win) : (t.setWin w x).owed = t.owed := rfl
@[simp] theorem Tile.setWin_flags (t : Tile) (w : Nat) (x : Win) : (t.setWin w x).flags = t.flags := rfl
@[simp] theorem Tile.setWin_trapen (t : Tile) (w : Nat) (x : Win) : (t.setWin w x).trapen = t.trapen := rfl
@[simp] theorem Tile.setWin_rmdyn (t : Tile) (w : Nat) (x : Win) : (t.setWin w x).rmdyn = t.rmdyn := rfl
@[simp] theorem Tile.setWin_laneflg (t : Tile) (w : Nat) (x : Win) : (t.setWin w x).laneflg = t.laneflg := rfl
@[simp] theorem Tile.setWin_sems (t : Tile) (w : Nat) (x : Win) : (t.setWin w x).sems = t.sems := rfl
@[simp] theorem Tile.setWin_confl (t : Tile) (w : Nat) (x : Win) : (t.setWin w x).confl = t.confl := rfl
@[simp] theorem Tile.setWin_rdv (t : Tile) (w : Nat) (x : Win) : (t.setWin w x).rdv = t.rdv := rfl
@[simp] theorem Tile.setWin_epoch (t : Tile) (w : Nat) (x : Win) : (t.setWin w x).epoch = t.epoch := rfl
@[simp] theorem Tile.setWin_depoch (t : Tile) (w : Nat) (x : Win) : (t.setWin w x).depoch = t.depoch := rfl
@[simp] theorem Tile.setWin_wins (t : Tile) (w : Nat) (x : Win) : (t.setWin w x).wins = upd t.wins w (fun _ => x) := rfl
@[simp] theorem Tile.setWin_pace (t : Tile) (w : Nat) (x : Win) : (t.setWin w x).pace = t.pace := rfl
@[simp] theorem Tile.setWin_sampctl (t : Tile) (w : Nat) (x : Win) : (t.setWin w x).sampctl = t.sampctl := rfl
@[simp] theorem Tile.setWin_sampDrops (t : Tile) (w : Nat) (x : Win) : (t.setWin w x).sampDrops = t.sampDrops := rfl
@[simp] theorem Tile.setWin_sampHead (t : Tile) (w : Nat) (x : Win) : (t.setWin w x).sampHead = t.sampHead := rfl
@[simp] theorem Tile.setWin_block (t : Tile) (w : Nat) (x : Win) : (t.setWin w x).block = t.block := rfl
@[simp] theorem Tile.setWin_streams (t : Tile) (w : Nat) (x : Win) : (t.setWin w x).streams = t.streams := rfl
@[simp] theorem Tile.setWin_btick (t : Tile) (w : Nat) (x : Win) : (t.setWin w x).btick = t.btick := rfl
@[simp] theorem Tile.setWin_rep (t : Tile) (w : Nat) (x : Win) : (t.setWin w x).rep = t.rep := rfl
@[simp] theorem Tile.setWin_start (t : Tile) (w : Nat) (x : Win) : (t.setWin w x).start = t.start := rfl
@[simp] theorem Tile.setWin_badBlock (t : Tile) (w : Nat) (x : Win) : (t.setWin w x).badBlock = t.badBlock := rfl
@[simp] theorem Tile.setWin_lastF64 (t : Tile) (w : Nat) (x : Win) : (t.setWin w x).lastF64 = t.lastF64 := rfl
@[simp] theorem Tile.setWin_decision (t : Tile) (w : Nat) (x : Win) : (t.setWin w x).decision = t.decision := rfl
@[simp] theorem Tile.setWin_loader (t : Tile) (w : Nat) (x : Win) : (t.setWin w x).loader = t.loader := rfl
@[simp] theorem Tile.setWin_flights (t : Tile) (w : Nat) (x : Win) : (t.setWin w x).flights = t.flights := rfl
@[simp] theorem Tile.setWin_engines (t : Tile) (w : Nat) (x : Win) : (t.setWin w x).engines = t.engines := rfl
@[simp] theorem Tile.setWin_recs (t : Tile) (w : Nat) (x : Win) : (t.setWin w x).recs = t.recs := rfl
@[simp] theorem Tile.setWin_haltTick (t : Tile) (w : Nat) (x : Win) : (t.setWin w x).haltTick = t.haltTick := rfl
@[simp] theorem Tile.setWin_cuts (t : Tile) (w : Nat) (x : Win) : (t.setWin w x).cuts = t.cuts := rfl
@[simp] theorem Tile.setWin_latsel (t : Tile) (w : Nat) (x : Win) : (t.setWin w x).latsel = t.latsel := rfl
@[simp] theorem Tile.setWin_faddr (t : Tile) (w : Nat) (x : Win) : (t.setWin w x).faddr = t.faddr := rfl

/-! ## Tile.setSreg -/

@[simp] theorem Tile.setSreg_lt (t : Tile) (n : BitVec 5) (x : W64) : (t.setSreg n x).lt = t.lt := by
  unfold Tile.setSreg; split <;> rfl
@[simp] theorem Tile.setSreg_cluster (t : Tile) (n : BitVec 5) (x : W64) : (t.setSreg n x).cluster = t.cluster := by
  unfold Tile.setSreg; split <;> rfl
@[simp] theorem Tile.setSreg_idx (t : Tile) (n : BitVec 5) (x : W64) : (t.setSreg n x).idx = t.idx := by
  unfold Tile.setSreg; split <;> rfl
@[simp] theorem Tile.setSreg_slot (t : Tile) (n : BitVec 5) (x : W64) : (t.setSreg n x).slot = t.slot := by
  unfold Tile.setSreg; split <;> rfl
@[simp] theorem Tile.setSreg_v (t : Tile) (n : BitVec 5) (x : W64) : (t.setSreg n x).v = t.v := by
  unfold Tile.setSreg; split <;> rfl
@[simp] theorem Tile.setSreg_sqQ (t : Tile) (n : BitVec 5) (x : W64) : (t.setSreg n x).sqQ = t.sqQ := by
  unfold Tile.setSreg; split <;> rfl
@[simp] theorem Tile.setSreg_vxQ (t : Tile) (n : BitVec 5) (x : W64) : (t.setSreg n x).vxQ = t.vxQ := by
  unfold Tile.setSreg; split <;> rfl
@[simp] theorem Tile.setSreg_xcQ (t : Tile) (n : BitVec 5) (x : W64) : (t.setSreg n x).xcQ = t.xcQ := by
  unfold Tile.setSreg; split <;> rfl
@[simp] theorem Tile.setSreg_lsQ (t : Tile) (n : BitVec 5) (x : W64) : (t.setSreg n x).lsQ = t.lsQ := by
  unfold Tile.setSreg; split <;> rfl
@[simp] theorem Tile.setSreg_preds (t : Tile) (n : BitVec 5) (x : W64) : (t.setSreg n x).preds = t.preds := by
  unfold Tile.setSreg; split <;> rfl
@[simp] theorem Tile.setSreg_targets (t : Tile) (n : BitVec 5) (x : W64) : (t.setSreg n x).targets = t.targets := by
  unfold Tile.setSreg; split <;> rfl
@[simp] theorem Tile.setSreg_stack (t : Tile) (n : BitVec 5) (x : W64) : (t.setSreg n x).stack = t.stack := by
  unfold Tile.setSreg; split <;> rfl
@[simp] theorem Tile.setSreg_spills (t : Tile) (n : BitVec 5) (x : W64) : (t.setSreg n x).spills = t.spills := by
  unfold Tile.setSreg; split <;> rfl
@[simp] theorem Tile.setSreg_refill (t : Tile) (n : BitVec 5) (x : W64) : (t.setSreg n x).refill = t.refill := by
  unfold Tile.setSreg; split <;> rfl
@[simp] theorem Tile.setSreg_owed (t : Tile) (n : BitVec 5) (x : W64) : (t.setSreg n x).owed = t.owed := by
  unfold Tile.setSreg; split <;> rfl
@[simp] theorem Tile.setSreg_flags (t : Tile) (n : BitVec 5) (x : W64) : (t.setSreg n x).flags = t.flags := by
  unfold Tile.setSreg; split <;> rfl
@[simp] theorem Tile.setSreg_trapen (t : Tile) (n : BitVec 5) (x : W64) : (t.setSreg n x).trapen = t.trapen := by
  unfold Tile.setSreg; split <;> rfl
@[simp] theorem Tile.setSreg_rmdyn (t : Tile) (n : BitVec 5) (x : W64) : (t.setSreg n x).rmdyn = t.rmdyn := by
  unfold Tile.setSreg; split <;> rfl
@[simp] theorem Tile.setSreg_laneflg (t : Tile) (n : BitVec 5) (x : W64) : (t.setSreg n x).laneflg = t.laneflg := by
  unfold Tile.setSreg; split <;> rfl
@[simp] theorem Tile.setSreg_sems (t : Tile) (n : BitVec 5) (x : W64) : (t.setSreg n x).sems = t.sems := by
  unfold Tile.setSreg; split <;> rfl
@[simp] theorem Tile.setSreg_confl (t : Tile) (n : BitVec 5) (x : W64) : (t.setSreg n x).confl = t.confl := by
  unfold Tile.setSreg; split <;> rfl
@[simp] theorem Tile.setSreg_rdv (t : Tile) (n : BitVec 5) (x : W64) : (t.setSreg n x).rdv = t.rdv := by
  unfold Tile.setSreg; split <;> rfl
@[simp] theorem Tile.setSreg_epoch (t : Tile) (n : BitVec 5) (x : W64) : (t.setSreg n x).epoch = t.epoch := by
  unfold Tile.setSreg; split <;> rfl
@[simp] theorem Tile.setSreg_depoch (t : Tile) (n : BitVec 5) (x : W64) : (t.setSreg n x).depoch = t.depoch := by
  unfold Tile.setSreg; split <;> rfl
@[simp] theorem Tile.setSreg_wins (t : Tile) (n : BitVec 5) (x : W64) : (t.setSreg n x).wins = t.wins := by
  unfold Tile.setSreg; split <;> rfl
@[simp] theorem Tile.setSreg_pace (t : Tile) (n : BitVec 5) (x : W64) : (t.setSreg n x).pace = t.pace := by
  unfold Tile.setSreg; split <;> rfl
@[simp] theorem Tile.setSreg_sampctl (t : Tile) (n : BitVec 5) (x : W64) : (t.setSreg n x).sampctl = t.sampctl := by
  unfold Tile.setSreg; split <;> rfl
@[simp] theorem Tile.setSreg_sampDrops (t : Tile) (n : BitVec 5) (x : W64) : (t.setSreg n x).sampDrops = t.sampDrops := by
  unfold Tile.setSreg; split <;> rfl
@[simp] theorem Tile.setSreg_sampHead (t : Tile) (n : BitVec 5) (x : W64) : (t.setSreg n x).sampHead = t.sampHead := by
  unfold Tile.setSreg; split <;> rfl
@[simp] theorem Tile.setSreg_block (t : Tile) (n : BitVec 5) (x : W64) : (t.setSreg n x).block = t.block := by
  unfold Tile.setSreg; split <;> rfl
@[simp] theorem Tile.setSreg_streams (t : Tile) (n : BitVec 5) (x : W64) : (t.setSreg n x).streams = t.streams := by
  unfold Tile.setSreg; split <;> rfl
@[simp] theorem Tile.setSreg_btick (t : Tile) (n : BitVec 5) (x : W64) : (t.setSreg n x).btick = t.btick := by
  unfold Tile.setSreg; split <;> rfl
@[simp] theorem Tile.setSreg_rep (t : Tile) (n : BitVec 5) (x : W64) : (t.setSreg n x).rep = t.rep := by
  unfold Tile.setSreg; split <;> rfl
@[simp] theorem Tile.setSreg_start (t : Tile) (n : BitVec 5) (x : W64) : (t.setSreg n x).start = t.start := by
  unfold Tile.setSreg; split <;> rfl
@[simp] theorem Tile.setSreg_badBlock (t : Tile) (n : BitVec 5) (x : W64) : (t.setSreg n x).badBlock = t.badBlock := by
  unfold Tile.setSreg; split <;> rfl
@[simp] theorem Tile.setSreg_lastF64 (t : Tile) (n : BitVec 5) (x : W64) : (t.setSreg n x).lastF64 = t.lastF64 := by
  unfold Tile.setSreg; split <;> rfl
@[simp] theorem Tile.setSreg_decision (t : Tile) (n : BitVec 5) (x : W64) : (t.setSreg n x).decision = t.decision := by
  unfold Tile.setSreg; split <;> rfl
@[simp] theorem Tile.setSreg_loader (t : Tile) (n : BitVec 5) (x : W64) : (t.setSreg n x).loader = t.loader := by
  unfold Tile.setSreg; split <;> rfl
@[simp] theorem Tile.setSreg_flights (t : Tile) (n : BitVec 5) (x : W64) : (t.setSreg n x).flights = t.flights := by
  unfold Tile.setSreg; split <;> rfl
@[simp] theorem Tile.setSreg_engines (t : Tile) (n : BitVec 5) (x : W64) : (t.setSreg n x).engines = t.engines := by
  unfold Tile.setSreg; split <;> rfl
@[simp] theorem Tile.setSreg_recs (t : Tile) (n : BitVec 5) (x : W64) : (t.setSreg n x).recs = t.recs := by
  unfold Tile.setSreg; split <;> rfl
@[simp] theorem Tile.setSreg_haltTick (t : Tile) (n : BitVec 5) (x : W64) : (t.setSreg n x).haltTick = t.haltTick := by
  unfold Tile.setSreg; split <;> rfl
@[simp] theorem Tile.setSreg_cuts (t : Tile) (n : BitVec 5) (x : W64) : (t.setSreg n x).cuts = t.cuts := by
  unfold Tile.setSreg; split <;> rfl
@[simp] theorem Tile.setSreg_latsel (t : Tile) (n : BitVec 5) (x : W64) : (t.setSreg n x).latsel = t.latsel := by
  unfold Tile.setSreg; split <;> rfl
@[simp] theorem Tile.setSreg_faddr (t : Tile) (n : BitVec 5) (x : W64) : (t.setSreg n x).faddr = t.faddr := by
  unfold Tile.setSreg; split <;> rfl

/-! ## Domain.updTile -/

@[simp] theorem Domain.updTile_seq (d : Domain) (lt : Nat) (f : Tile → Tile) : (d.updTile lt f).seq = d.seq := rfl
@[simp] theorem Domain.updTile_pkt (d : Domain) (lt : Nat) (f : Tile → Tile) : (d.updTile lt f).pkt = d.pkt := rfl
@[simp] theorem Domain.updTile_desc (d : Domain) (lt : Nat) (f : Tile → Tile) : (d.updTile lt f).desc = d.desc := rfl
@[simp] theorem Domain.updTile_part (d : Domain) (lt : Nat) (f : Tile → Tile) : (d.updTile lt f).part = d.part := rfl
@[simp] theorem Domain.updTile_master (d : Domain) (lt : Nat) (f : Tile → Tile) : (d.updTile lt f).master = d.master := rfl
@[simp] theorem Domain.updTile_ranges (d : Domain) (lt : Nat) (f : Tile → Tile) : (d.updTile lt f).ranges = d.ranges := rfl
@[simp] theorem Domain.updTile_groups (d : Domain) (lt : Nat) (f : Tile → Tile) : (d.updTile lt f).groups = d.groups := rfl
@[simp] theorem Domain.updTile_mcast (d : Domain) (lt : Nat) (f : Tile → Tile) : (d.updTile lt f).mcast = d.mcast := rfl
@[simp] theorem Domain.updTile_sup (d : Domain) (lt : Nat) (f : Tile → Tile) : (d.updTile lt f).sup = d.sup := rfl
@[simp] theorem Domain.updTile_phase (d : Domain) (lt : Nat) (f : Tile → Tile) : (d.updTile lt f).phase = d.phase := rfl
@[simp] theorem Domain.updTile_tiles (d : Domain) (lt : Nat) (f : Tile → Tile) : (d.updTile lt f).tiles = upd d.tiles lt f := rfl
@[simp] theorem Domain.updTile_dtick (d : Domain) (lt : Nat) (f : Tile → Tile) : (d.updTile lt f).dtick = d.dtick := rfl
@[simp] theorem Domain.updTile_holdcnt (d : Domain) (lt : Nat) (f : Tile → Tile) : (d.updTile lt f).holdcnt = d.holdcnt := rfl
@[simp] theorem Domain.updTile_hold (d : Domain) (lt : Nat) (f : Tile → Tile) : (d.updTile lt f).hold = d.hold := rfl
@[simp] theorem Domain.updTile_probeMiss (d : Domain) (lt : Nat) (f : Tile → Tile) : (d.updTile lt f).probeMiss = d.probeMiss := rfl
@[simp] theorem Domain.updTile_hist (d : Domain) (lt : Nat) (f : Tile → Tile) : (d.updTile lt f).hist = d.hist := rfl
@[simp] theorem Domain.updTile_froze (d : Domain) (lt : Nat) (f : Tile → Tile) : (d.updTile lt f).froze = d.froze := rfl
@[simp] theorem Domain.updTile_released (d : Domain) (lt : Nat) (f : Tile → Tile) : (d.updTile lt f).released = d.released := rfl
@[simp] theorem Domain.updTile_wasHeld (d : Domain) (lt : Nat) (f : Tile → Tile) : (d.updTile lt f).wasHeld = d.wasHeld := rfl
@[simp] theorem Domain.updTile_begun (d : Domain) (lt : Nat) (f : Tile → Tile) : (d.updTile lt f).begun = d.begun := rfl
@[simp] theorem Domain.updTile_gops (d : Domain) (lt : Nat) (f : Tile → Tile) : (d.updTile lt f).gops = d.gops := rfl
@[simp] theorem Domain.updTile_evs (d : Domain) (lt : Nat) (f : Tile → Tile) : (d.updTile lt f).evs = d.evs := rfl
@[simp] theorem Domain.updTile_nextId (d : Domain) (lt : Nat) (f : Tile → Tile) : (d.updTile lt f).nextId = d.nextId := rfl
@[simp] theorem Domain.updTile_ballots (d : Domain) (lt : Nat) (f : Tile → Tile) : (d.updTile lt f).ballots = d.ballots := rfl
@[simp] theorem Domain.updTile_choices (d : Domain) (lt : Nat) (f : Tile → Tile) : (d.updTile lt f).choices = d.choices := rfl
@[simp] theorem Domain.updTile_attaches (d : Domain) (lt : Nat) (f : Tile → Tile) : (d.updTile lt f).attaches = d.attaches := rfl
@[simp] theorem Domain.updTile_deferred (d : Domain) (lt : Nat) (f : Tile → Tile) : (d.updTile lt f).deferred = d.deferred := rfl
@[simp] theorem Domain.updTile_causes (d : Domain) (lt : Nat) (f : Tile → Tile) : (d.updTile lt f).causes = d.causes := rfl
@[simp] theorem Domain.updTile_chief (d : Domain) (lt : Nat) (f : Tile → Tile) : (d.updTile lt f).chief = d.chief := rfl
@[simp] theorem Domain.updTile_haltAt (d : Domain) (lt : Nat) (f : Tile → Tile) : (d.updTile lt f).haltAt = d.haltAt := rfl
@[simp] theorem Domain.updTile_fatal (d : Domain) (lt : Nat) (f : Tile → Tile) : (d.updTile lt f).fatal = d.fatal := rfl
@[simp] theorem Domain.updTile_endCode (d : Domain) (lt : Nat) (f : Tile → Tile) : (d.updTile lt f).endCode = d.endCode := rfl
@[simp] theorem Domain.updTile_resume (d : Domain) (lt : Nat) (f : Tile → Tile) : (d.updTile lt f).resume = d.resume := rfl
@[simp] theorem Domain.updTile_parked (d : Domain) (lt : Nat) (f : Tile → Tile) : (d.updTile lt f).parked = d.parked := rfl
@[simp] theorem Domain.updTile_collDone (d : Domain) (lt : Nat) (f : Tile → Tile) : (d.updTile lt f).collDone = d.collDone := rfl
@[simp] theorem Domain.updTile_lostFlits (d : Domain) (lt : Nat) (f : Tile → Tile) : (d.updTile lt f).lostFlits = d.lostFlits := rfl

end Sys2Proof.Machine
end

