-- ==== Sys2Proof/Laws/Memory.lean ====
section
/-!
SUPPORT. The laws of the byte storage: a read after a write, and that every operation on it keeps the canonical form.
-/

namespace Sys2Proof.Machine

/-! ## The canonical form -/

/-- Addresses strictly rising, and no entry equal to an unlisted byte. -/
theorem memory_wf_iff (m : List Host.Cell) :
    Memory.wf m = true ↔ m.Pairwise (fun x y => x.1 < y.1) ∧ ∀ x ∈ m, x.2 ≠ unlisted := by
  induction m with
  | nil => simp [Memory.wf]
  | cons x r ih =>
    obtain ⟨k, b⟩ := x
    cases r with
    | nil => simp [Memory.wf]
    | cons y q =>
      obtain ⟨j, c⟩ := y
      have step : Memory.wf ((k, b) :: (j, c) :: q) = true ↔ b ≠ unlisted ∧ k < j ∧ Memory.wf ((j, c) :: q) = true := by
        simp [Memory.wf, and_assoc]
      rw [step, ih]
      constructor
      · rintro ⟨hb, hk, hp, hn⟩
        refine ⟨List.pairwise_cons.2 ⟨?_, hp⟩, ?_⟩
        · intro z hz
          rcases List.mem_cons.1 hz with rfl | hz
          · exact hk
          · exact lt_trans hk ((List.pairwise_cons.1 hp).1 z hz)
        · intro z hz
          rcases List.mem_cons.1 hz with rfl | hz
          · exact hb
          · exact hn z hz
      · rintro ⟨hp, hn⟩
        exact ⟨hn (k, b) (by simp), (List.pairwise_cons.1 hp).1 (j, c) (by simp), (List.pairwise_cons.1 hp).2,
          fun z hz => hn z (List.mem_cons_of_mem _ hz)⟩

theorem memory_wf_nil : Memory.wf [] = true := rfl

theorem memory_wf_filter {m : List Host.Cell} (p : Host.Cell → Bool) (h : Memory.wf m = true) :
    Memory.wf (m.filter p) = true := by
  rw [memory_wf_iff] at *
  exact ⟨h.1.filter _, fun x hx => h.2 x (List.mem_of_mem_filter hx)⟩

theorem writeCells_key {m : List Host.Cell} {a : Nat} {b : Byte} {x : Host.Cell} (h : x ∈ writeCells m a b) :
    x = (a, b) ∨ x ∈ m := by
  induction m with
  | nil =>
    unfold writeCells at h
    split at h <;> simp_all
  | cons y r ih =>
    obtain ⟨k, c⟩ := y
    unfold writeCells at h
    split at h
    · split at h
      · exact .inr h
      · simpa using h
    · split at h
      · split at h
        · exact .inr (List.mem_cons_of_mem _ h)
        · rcases List.mem_cons.1 h with h | h
          · exact .inl h
          · exact .inr (List.mem_cons_of_mem _ h)
      · rcases List.mem_cons.1 h with h | h
        · exact .inr (by simp [h])
        · rcases ih h with h | h
          · exact .inl h
          · exact .inr (List.mem_cons_of_mem _ h)

theorem memory_wf_writeCells {m : List Host.Cell} (a : Nat) (b : Byte) (h : Memory.wf m = true) :
    Memory.wf (writeCells m a b) = true := by
  rw [memory_wf_iff] at *
  obtain ⟨hp, hn⟩ := h
  induction m with
  | nil =>
    unfold writeCells
    split <;> simp_all
  | cons y r ih =>
    obtain ⟨k, c⟩ := y
    have hp' := List.pairwise_cons.1 hp
    have hr := ih hp'.2 (fun x hx => hn x (List.mem_cons_of_mem _ hx))
    unfold writeCells
    split
    · rename_i hak
      split
      · exact ⟨hp, hn⟩
      · rename_i hb
        refine ⟨List.pairwise_cons.2 ⟨?_, hp⟩, ?_⟩
        · intro z hz
          rcases List.mem_cons.1 hz with rfl | hz
          · exact hak
          · exact lt_trans hak (hp'.1 z hz)
        · intro z hz
          rcases List.mem_cons.1 hz with rfl | hz
          · exact hb
          · exact hn z hz
    · rename_i hak
      split
      · rename_i hka
        subst hka
        split
        · exact ⟨hp'.2, fun x hx => hn x (List.mem_cons_of_mem _ hx)⟩
        · rename_i hb
          refine ⟨List.pairwise_cons.2 ⟨hp'.1, hp'.2⟩, ?_⟩
          intro z hz
          rcases List.mem_cons.1 hz with rfl | hz
          · exact hb
          · exact hn z (List.mem_cons_of_mem _ hz)
      · rename_i hne
        refine ⟨List.pairwise_cons.2 ⟨?_, hr.1⟩, ?_⟩
        · intro z hz
          rcases writeCells_key hz with rfl | hz
          · show k < a
            omega
          · exact hp'.1 z hz
        · intro z hz
          rcases List.mem_cons.1 hz with rfl | hz
          · exact hn (k, c) (by simp)
          · exact hr.2 z hz

theorem memory_wf_writeCellList (bs : List Byte) : ∀ (m : List Host.Cell) (a : Nat), Memory.wf m = true →
    Memory.wf (writeCellList m a bs) = true := by
  induction bs with
  | nil => exact fun _ _ h => h
  | cons b bs ih => exact fun m a h => ih _ _ (memory_wf_writeCells a b h)

/-! ## A read after a write -/

theorem readCells_of_above {m : List Host.Cell} {a : Nat} (h : ∀ x ∈ m, a < x.1) : readCells m a = unlisted := by
  induction m with
  | nil => rfl
  | cons y r ih =>
    obtain ⟨k, c⟩ := y
    have : a < k := h (k, c) (by simp)
    unfold readCells
    rw [if_neg (by omega)]
    exact ih (fun x hx => h x (List.mem_cons_of_mem _ hx))

theorem readCells_writeCells_same {m : List Host.Cell} (a : Nat) (b : Byte) (h : Memory.wf m = true) :
    readCells (writeCells m a b) a = b := by
  rw [memory_wf_iff] at h
  obtain ⟨hp, -⟩ := h
  induction m with
  | nil =>
    unfold writeCells
    split
    · rename_i hb; simp [readCells, hb]
    · simp [readCells]
  | cons y r ih =>
    obtain ⟨k, c⟩ := y
    have hp' := List.pairwise_cons.1 hp
    unfold writeCells
    split
    · rename_i hak
      split
      · rename_i hb
        rw [hb]
        exact readCells_of_above (by
          intro x hx
          rcases List.mem_cons.1 hx with rfl | hx
          · exact hak
          · exact lt_trans hak (hp'.1 x hx))
      · simp [readCells]
    · split
      · rename_i hka
        subst hka
        split
        · rename_i hb
          rw [hb]
          exact readCells_of_above hp'.1
        · simp [readCells]
      · rename_i hne
        unfold readCells
        rw [if_neg (by omega)]
        exact ih hp'.2

theorem readCells_writeCells_other {m : List Host.Cell} {a c : Nat} (b : Byte) (h : c ≠ a) :
    readCells (writeCells m a b) c = readCells m c := by
  induction m with
  | nil =>
    unfold writeCells
    split
    · rfl
    · simp [readCells, Ne.symm h]
  | cons y r ih =>
    obtain ⟨k, d⟩ := y
    unfold writeCells
    split
    · split
      · rfl
      · simp [readCells, Ne.symm h]
    · split
      · rename_i hka
        subst hka
        split
        · simp [readCells, Ne.symm h]
        · simp [readCells, Ne.symm h]
      · unfold readCells
        split
        · rfl
        · exact ih

theorem readCells_writeCellList_other {c : Nat} (bs : List Byte) : ∀ (m : List Host.Cell) (a : Nat),
    (c < a ∨ a + bs.length ≤ c) → readCells (writeCellList m a bs) c = readCells m c := by
  induction bs with
  | nil => exact fun _ _ _ => rfl
  | cons b bs ih =>
    intro m a h
    simp only [List.length_cons] at h
    show readCells (writeCellList (writeCells m a b) (a + 1) bs) c = _
    rw [ih _ _ (by omega), readCells_writeCells_other b (by omega)]

theorem readCells_writeCellList_in {c : Nat} (bs : List Byte) : ∀ (m : List Host.Cell) (a : Nat),
    Memory.wf m = true → a ≤ c → c < a + bs.length → readCells (writeCellList m a bs) c = bs.getD (c - a) 0 := by
  induction bs with
  | nil => intro m a _ h1 h2; simp only [List.length_nil] at h2; omega
  | cons b bs ih =>
    intro m a hm h1 h2
    simp only [List.length_cons] at h2
    show readCells (writeCellList (writeCells m a b) (a + 1) bs) c = _
    by_cases hc : c = a
    · subst hc
      rw [readCells_writeCellList_other _ _ _ (by omega), readCells_writeCells_same _ _ hm]
      simp
    · rw [ih _ _ (memory_wf_writeCells a b hm) (by omega) (by omega), show c - a = (c - (a + 1)) + 1 by omega]
      simp

/-! ## The state's operations -/

@[simp] theorem State.memOk_writeByte {s : State} (a : Nat) (b : Byte) (h : Memory.wf s.mem = true) :
    Memory.wf (s.writeByte a b).mem = true := memory_wf_writeCells a b h

@[simp] theorem State.memOk_writeBytes {s : State} (a : Nat) (bs : List Byte) (h : Memory.wf s.mem = true) :
    Memory.wf (writeCellList s.mem a bs) = true := memory_wf_writeCellList bs _ a h

theorem State.readByte_writeBytes_other (s : State) {a c : Nat} (bs : List Byte) (h : c < a ∨ a + bs.length ≤ c) :
    (s.writeBytes a bs).readByte c = s.readByte c := readCells_writeCellList_other bs _ a h

theorem State.readByte_writeBytes_in {s : State} {a c : Nat} (bs : List Byte) (hm : Memory.wf s.mem = true) (h1 : a ≤ c)
    (h2 : c < a + bs.length) : (s.writeBytes a bs).readByte c = bs.getD (c - a) 0 :=
  readCells_writeCellList_in bs _ a hm h1 h2

theorem State.memOk_clearRange {s : State} (a n : Nat) (h : Memory.wf s.mem = true) :
    Memory.wf (s.clearRange a n).mem = true := memory_wf_filter _ h

theorem State.memOk_reset : Memory.wf State.reset.mem = true := rfl

end Sys2Proof.Machine
end

