-- ==== Sys2Proof/Laws/Kept.lean ====
section
/-!
SUPPORT. The canonical form of storage is kept by every named operation that writes it, and by those that write none.
-/

namespace Sys2Proof.Machine

/-- A state with the same storage. -/
theorem memOk_of_mem {s t : State} (h : s.memOk) (e : t.mem = s.mem) : t.memOk := by
  unfold State.memOk; rw [e]; exact h

theorem memOk_foldl {α : Type} (f : State → α → State) (hf : ∀ s a, s.memOk → (f s a).memOk) :
    ∀ (l : List α) (s : State), s.memOk → (l.foldl f s).memOk
  | [], _, h => h
  | a :: l, s, h => memOk_foldl f hf l (f s a) (hf s a h)

theorem memOk_ite {c : Prop} [Decidable c] {a b : State} (ha : a.memOk) (hb : b.memOk) :
    (if c then a else b).memOk := by
  split
  · exact ha
  · exact hb

/-! ## Operations that write no byte -/

theorem memOk_updDom {s : State} (h : s.memOk) (k : Nat) (f : Domain → Domain) : (s.updDom k f).memOk := h
theorem memOk_updTile {s : State} (h : s.memOk) (k lt : Nat) (f : Tile → Tile) : (s.updTile k lt f).memOk := h
theorem memOk_put {s : State} (h : s.memOk) (t : Tile) : (s.put t).memOk := h
theorem memOk_raise {s : State} (h : s.memOk) (src code detail : Nat) (a : W64) : (s.raise src code detail a).memOk := h
theorem memOk_tickFresh {s : State} (h : s.memOk) : s.tickFresh.memOk := h
theorem memOk_updCluster {s : State} (h : s.memOk) (c : Nat) (f : Cluster → Cluster) : (s.updCluster c f).memOk := h
theorem memOk_updDie {s : State} (h : s.memOk) (n : Nat) (f : Die → Die) : (s.updDie n f).memOk := h
theorem memOk_updPart {s : State} (h : s.memOk) (p : Nat) (f : Partition → Partition) : (s.updPart p f).memOk := h
theorem memOk_setLease {s : State} (h : s.memOk) (l : Lease) : (s.setLease l).memOk := h
theorem memOk_postNotices {s : State} (h : s.memOk) (d : Domain) : (s.postNotices d).memOk := h

theorem memOk_strike {s : State} (h : s.memOk) : s.strike.memOk := by
  unfold State.strike
  dsimp only
  split
  · exact memOk_ite (memOk_of_mem h (by rfl)) (memOk_of_mem h (by rfl))
  · exact memOk_ite (memOk_of_mem h (by rfl)) (memOk_of_mem h (by rfl))

theorem memOk_countFlaws {s : State} (h : s.memOk) (rs : List (Nat × Nat)) : (s.countFlaws rs).memOk := by
  unfold State.countFlaws
  exact memOk_of_mem h (by rfl)

theorem memOk_countWalk {s : State} (h : s.memOk) (va : W64) (w : Walk) : (s.countWalk va w).memOk := by
  unfold State.countWalk
  split
  · exact memOk_countFlaws h _
  · exact h
  · exact h

theorem memOk_countRecords {s : State} (h : s.memOk) (k : Nat) : (s.countRecords k).memOk := by
  unfold State.countRecords
  split
  · exact h
  · exact memOk_ite h (memOk_updDom (memOk_foldl _ (fun _ _ hs => memOk_updCluster hs _ _) _ _ h) _ _)

theorem memOk_dropRecords {s : State} (h : s.memOk) (k : Nat) : (s.dropRecords k).memOk := by
  unfold State.dropRecords
  split
  · exact h
  · exact memOk_ite h (memOk_updDom (memOk_foldl _ (fun _ _ hs => memOk_updCluster hs _ _) _ _ h) _ _)

theorem memOk_select {s : State} (h : s.memOk) : s.select.memOk := by
  unfold State.select
  split <;> exact h

theorem memOk_takeTileCut {s : State} (h : s.memOk) (k tick lt : Nat) (c : Cut) : (s.takeTileCut k tick lt c).memOk := by
  unfold State.takeTileCut
  split
  · exact h
  · split
    · exact h
    · dsimp only
      split
      · exact h
      · split <;> exact h

theorem memOk_takeWideCut {s : State} (h : s.memOk) (d : Domain) (tick : Nat) : (s.takeWideCut d tick).memOk := by
  unfold State.takeWideCut
  dsimp only
  split
  · exact h
  · split
    · exact h
    · split
      · exact h
      · refine memOk_foldl _ ?_ _ _ h
        intro t c ht
        split <;> exact ht

theorem memOk_takeCuts {s : State} (h : s.memOk) (k tick : Nat) : (s.takeCuts k tick).memOk := by
  unfold State.takeCuts
  dsimp only
  have h := memOk_dropRecords (memOk_countRecords h k) k
  split
  · exact h
  · split
    · exact h
    · refine memOk_countRecords (memOk_updDom (memOk_foldl _ ?_ _ _ (memOk_takeWideCut h _ _)) _ _) _
      intro t u ht
      exact memOk_foldl _ (fun s c hs => memOk_takeTileCut hs _ _ _ _) _ _ ht

theorem memOk_endTick {s : State} (h : s.memOk) (k : Nat) : (s.endTick k).memOk := by
  unfold State.endTick
  split
  · exact h
  · exact memOk_takeCuts (memOk_updDom h _ _) _ _

theorem memOk_park {s : State} (h : s.memOk) (k lt : Nat) : (s.park k lt).memOk := by
  unfold State.park
  split
  · exact h
  · split <;> exact h

theorem memOk_parkDomain {s : State} (h : s.memOk) (d : Domain) : (s.parkDomain d).memOk :=
  memOk_foldl _ (fun _ _ hs => memOk_updCluster (memOk_park hs _ _) _ _) _ _ h

/-! ## Operations that write bytes -/

theorem memOk_writeBytes {s : State} (h : s.memOk) (a : Nat) (bs : List Byte) : (s.writeBytes a bs).memOk :=
  State.memOk_writeBytes a bs h
theorem memOk_writeByte {s : State} (h : s.memOk) (a : Nat) (b : Byte) : (s.writeByte a b).memOk :=
  State.memOk_writeByte a b h
theorem memOk_writeLE {s : State} (h : s.memOk) (a n x : Nat) : (s.writeLE a n x).memOk := memOk_writeBytes h _ _
theorem memOk_clearRange {s : State} (h : s.memOk) (a n : Nat) : (s.clearRange a n).memOk := State.memOk_clearRange a n h
theorem memOk_storeEngine {s : State} (h : s.memOk) (cl a : Nat) (bs : List Byte) : (s.storeEngine cl a bs).memOk :=
  memOk_updCluster (memOk_writeBytes h a bs) _ _
theorem memOk_storeLocal {s : State} (h : s.memOk) (cl a : Nat) (bs : List Byte) : (s.storeLocal cl a bs).memOk :=
  memOk_updCluster (memOk_storeEngine h cl a bs) _ _
theorem memOk_storeAll {s : State} (h : s.memOk) (cl : Nat) (ws : List (Nat × List Byte)) : (s.storeAll cl ws).memOk :=
  memOk_of_mem (memOk_foldl _ (fun _ _ hs => memOk_storeEngine hs _ _ _) ws s h) rfl

/-- A step that writes a tile's storage keeps the form, whether it writes or ends in its fault. -/
theorem memOk_storeStep {s : State} (h : s.memOk) (t : Tile) (ws : List (Nat × List Byte)) (fl : Flg) :
    (storeStep t ws fl s).1.memOk := by
  unfold storeStep
  dsimp only
  split
  · exact memOk_storeAll h _ _
  · exact memOk_countFlaws h _

theorem memOk_clearBank {s : State} (h : s.memOk) (cl b : Nat) : (s.clearBank cl b).memOk :=
  memOk_updCluster (memOk_clearRange h _ _) _ _
theorem memOk_zeroBank {s : State} (h : s.memOk) (cl b : Nat) : (s.zeroBank cl b).memOk :=
  memOk_clearRange (memOk_clearBank h cl b) _ _
theorem memOk_setSealState {s : State} (h : s.memOk) (cl tile : Nat) (slot : Bool) (buf x : Nat) :
    (s.setSealState cl tile slot buf x).memOk := memOk_writeLE h _ _ _

/-- Moving the flaws of a copied range changes no byte. -/
theorem memOk_moveFlaws {s : State} (h : s.memOk) (src dst n : Nat) : (s.moveFlaws src dst n).memOk := by
  unfold State.moveFlaws
  dsimp only
  split
  · exact h
  · exact memOk_of_mem (memOk_countFlaws h [(src, n)]) rfl

theorem memOk_copyOver {s : State} (h : s.memOk) (src dst n : Nat) : (s.copyOver src dst n).memOk :=
  memOk_moveFlaws (memOk_writeBytes h _ _) _ _ _
theorem memOk_copyHome {s : State} (h : s.memOk) (cl plane loc n : Nat) : (s.copyHome cl plane loc n).memOk :=
  memOk_copyOver (memOk_clearRange h _ _) _ _ _
theorem memOk_respond {s : State} (h : s.memOk) (r : List Byte) (bad : Bool) : (s.respond r bad).memOk :=
  memOk_of_mem (memOk_writeBytes h (locMail mailResponse) (r.take 256)) rfl

theorem memOk_touchLeaf {s : State} (h : s.memOk) (p : Place) (wr : Bool) : (s.touchLeaf p wr).memOk := by
  unfold State.touchLeaf
  split
  · exact h
  · exact memOk_writeByte h _ _

/-- The read of a page sets at most the A bit of its leaf. -/
theorem memOk_useRead {s : State} (h : s.memOk) (d : Domain) (va : W64) : (s.useRead d va).memOk := by
  unfold State.useRead
  split
  · exact h
  · split
    · split
      · exact memOk_of_mem (memOk_writeByte h _ _) (by unfold State.install; split <;> rfl)
      · exact h
    · exact h

/-- The probes of WAITG words use their pages and write nothing else. -/
theorem memOk_pollWaits {s : State} (h : s.memOk) (k : Nat) : (s.pollWaits k).memOk := by
  unfold State.pollWaits
  split
  · exact h
  · exact memOk_foldl _ (fun _ _ hs => memOk_useRead hs _ _) _ _ h

theorem memOk_reloadBank {s : State} (h : s.memOk) (cl b : Nat) : (s.reloadBank cl b).memOk := by
  have hc := memOk_clearRange h (locBank cl b 0) (2 ^ 19)
  unfold State.reloadBank
  exact memOk_ite (memOk_copyOver hc _ _ _) (memOk_of_mem (memOk_writeBytes hc _ _) (by rfl))

theorem memOk_loadStore {s : State} (h : s.memOk) (t : Tile) (d : Desc) : (s.loadStore t d).memOk :=
  memOk_foldl _ (fun _ _ hs => memOk_writeLE hs _ _ _) _ _
    (memOk_foldl _ (fun _ _ hs => memOk_writeLE hs _ _ _) _ _ (memOk_clearRange h _ _))

theorem memOk_losePower {s : State} (h : s.memOk) (cls : List Nat) : (s.losePower cls).memOk := memory_wf_filter _ h

theorem memOk_commitPart {s : State} (h : s.memOk) (cl : Nat) (e : Epoch) (p : EpochPart) (j : Nat) (rs : List Byte) :
    (s.commitPart cl e p j rs).memOk :=
  memOk_updCluster (memOk_writeBytes (memOk_writeBytes h _ _) _ _) _ _

theorem memOk_replay (cl : Nat) : ∀ (n : Nat) (s : State) (j : Nat), s.memOk → (s.replay cl n j).memOk
  | 0, _, _, h => h
  | n + 1, s, j, h => by
    unfold State.replay
    exact memOk_replay cl n _ _ (memOk_copyOver h _ _ _)

theorem memOk_writeGlobal : ∀ (n : Nat) {s : State}, s.memOk → ∀ (part m : Nat) (va : W64) (bs : List Byte),
    (s.writeGlobal part m n va bs).memOk
  | 0, _, h, _, _, _, _ => h
  | n + 1, s, h, part, m, va, bs => by
    unfold State.writeGlobal
    split
    · exact h
    · refine memOk_writeGlobal n ?_ _ _ _ _
      split
      · split
        · exact memOk_updPart h _ _
        · exact memOk_ite h (memOk_ite (memOk_countFlaws h _) (memOk_writeBytes h _ _))
      · exact memOk_countWalk h _ _

theorem memOk_ringWrite {s : State} (h : s.memOk) (part : Nat) (r : List Byte) : (s.ringWrite part r).memOk := by
  unfold State.ringWrite
  dsimp only
  split
  · split
    · exact memOk_updPart h _ _
    · exact memOk_ite (memOk_updPart h _ _) (memOk_ite (memOk_updPart (memOk_countFlaws h _) _ _)
        (memOk_updPart (memOk_writeBytes h _ _) _ _))
  · exact memOk_updPart (memOk_countWalk h _ _) _ _

theorem memOk_ringRecord {s : State} (h : s.memOk) (part : Nat) (r : List Byte) : (s.ringRecord part r).memOk := by
  unfold State.ringRecord
  dsimp only
  split
  · exact memOk_updPart h _ _
  · split
    · exact memOk_updPart h _ _
    · exact memOk_ringWrite h _ _

theorem memOk_openRecord {s : State} (h : s.memOk) (d : Domain) (t : Tile) (kind : Nat) (wr : Bool) (va : W64) (n : Nat)
    (w : Walk) : (s.openRecord d t kind wr va n w).memOk := by
  unfold State.openRecord
  split
  · exact memOk_ringRecord (memOk_countWalk h _ _) _ _
  · exact h

theorem memOk_buildFault {s : State} (h : s.memOk) (l : Lease) (r : List Byte) : (s.buildFault l r).memOk := by
  unfold State.buildFault
  dsimp only
  split
  · exact memOk_ringWrite (memOk_setLease h _) _ _
  · split
    · exact memOk_updPart (memOk_setLease h _) _ _
    · exact memOk_setLease h _

theorem memOk_writeCompletion {s : State} (h : s.memOk) (pkt : List Byte) (part die seq st code tick hold : Nat)
    (dig : List Byte) : (s.writeCompletion pkt part die seq st code tick hold dig).memOk := memOk_writeGlobal _ h _ _ _ _

theorem memOk_sample {s : State} (h : s.memOk) (d : Domain) (t : Tile) (w : Bool) (tag : Nat) :
    (s.sample d t w tag).memOk := by
  unfold State.sample
  dsimp only
  split
  · exact h
  · exact memOk_updTile (memOk_updPart (memOk_writeGlobal _ h _ _ _ _) _ _) _ _ _

theorem memOk_refuseWaiting {s : State} (h : s.memOk) (x : Nat) : (s.refuseWaiting x).memOk := by
  unfold State.refuseWaiting
  exact memOk_of_mem (memOk_foldl _ (fun _ _ hs => memOk_writeCompletion hs _ _ _ _ _ _ _ _ _)
    (s.queues.filter (fun k => field k.pkt 3 1 == 0 && k.handle == x)) s h) rfl

theorem memOk_apertureWrite : ∀ (n : Nat) {s : State}, s.memOk → ∀ (m part : Nat) (va : W64) (bs : List Byte),
    (s.apertureWrite m part n va bs).2.memOk
  | 0, _, h, _, _, _, _ => h
  | n + 1, s, h, m, part, va, bs => by
    unfold State.apertureWrite
    split
    · exact h
    · dsimp only
      split
      · unfold State.apertureFault
        split
        · exact memOk_ringRecord (memOk_countWalk h _ _) _ _
        · exact h
      · split
        · exact memOk_countFlaws h _
        · refine memOk_apertureWrite n ?_ _ _ _ _
          split
          · exact memOk_updPart h _ _
          · exact memOk_writeBytes h _ _

/-- The fault of a spill share writes at most a fault record. -/
theorem memOk_shareFault {s : State} (h : s.memOk) (d : Domain) (t : Tile) (wr : Bool) (va : W64) (w : Walk) :
    (s.shareFault d t wr va w).memOk := by
  cases w with
  | ok => exact memOk_updDom h _ _
  | bad c lv e l =>
    unfold State.shareFault
    dsimp only
    split
    · exact memOk_updDom (memOk_countFlaws h _) _ _
    · split
      · exact memOk_updDom (memOk_openRecord h _ _ _ _ _ _ _) _ _
      · exact memOk_updDom (memOk_countWalk h _ _) _ _

/-- Spilled words that waited for a link are written, or end in their fault. -/
theorem memOk_spillOut {s : State} (h : s.memOk) (k lt : Nat) : (s.spillOut k lt).memOk := by
  unfold State.spillOut
  split
  · exact h
  · split
    · exact h
    · refine memOk_foldl _ ?_ _ _ (memOk_updTile h _ _ _)
      intro s x hs
      exact memOk_ite (memOk_writeLE hs _ _ _) (memOk_shareFault hs _ _ _ _ _)

/-- A multicast granule lands in whole granules. -/
theorem memOk_deliverFlit {s : State} (h : s.memOk) (die node : Nat) (f : BitVec 128) (b : List Byte) :
    (s.deliverFlit die node f b).memOk := by
  unfold State.deliverFlit
  exact memOk_of_mem (memOk_foldl _ (fun _ _ hs => memOk_ite (memOk_storeEngine hs _ _ _) hs) (s.landings die node f) s h) rfl

end Sys2Proof.Machine
end

