-- ==== Sys2Proof/Laws/Walks.lean ====
section
/-!
SUPPORT. The causes by which an address has no translation: none is the one by which a share's flawed granule is told.
-/

namespace Sys2Proof.Machine

/-- A walk that fails has a cause of 03 R80. -/
theorem walkFrom_cause (s : State) (die key va : Nat) (mode : WalkMode) (fuel level pa : Nat) {c l : Nat} {e : W64} {p : Nat}
    (h : walkFrom s die key va mode fuel level pa = .bad c l e p) : c ≤ 11 := by
  induction fuel generalizing level pa with
  | zero => simp only [walkFrom, Walk.bad.injEq] at h; omega
  | succ n ih =>
    simp only [walkFrom] at h
    repeat' split at h
    all_goals first
      | exact ih _ _ h
      | (simp only [Walk.bad.injEq] at h; omega)
      | exact absurd h (by simp)

/-- An address that leads nowhere has a cause of 03 R80, not the share's own. -/
theorem resolve_cause (s : State) (key master : Nat) (mode : WalkMode) (wr : Bool) (va : W64) {w : Walk}
    (h : resolve s key master mode wr va = .error w) : ∃ c l e p, w = .bad c l e p ∧ c ≤ 11 ∧ c ≠ flawCause := by
  suffices ∃ c l e p, w = .bad c l e p ∧ c ≤ 11 by
    obtain ⟨c, l, e, p, hw, hc⟩ := this
    exact ⟨c, l, e, p, hw, hc, by unfold flawCause; omega⟩
  simp only [resolve] at h
  repeat' split at h
  all_goals first
    | (cases h; done)
    | (cases h
       rename_i hw
       exact ⟨_, _, _, _, rfl, walkFrom_cause _ _ _ _ _ _ _ _ hw⟩)
    | (cases h; exact ⟨_, _, _, _, rfl, by omega⟩)

/-- So has one that a domain's access meets. -/
theorem resolveFor_cause (s : State) (d : Domain) (t : Tile) (wr : Bool) (va : W64) {w : Walk}
    (h : resolveFor s d t wr va = .error w) : ∃ c l e p, w = .bad c l e p ∧ c ≤ 11 ∧ c ≠ flawCause :=
  resolve_cause s _ _ _ wr va h

end Sys2Proof.Machine
end

