-- ==== Sys2Proof/Laws/Words.lean ====
section
/-!
SUPPORT. What the shared word forms do at a place that stands: each answers a next state.
-/

namespace Sys2Proof.Laws

open Sys2Proof.Machine

variable {s : State} {d : Domain} {t : Tile}

theorem onTile_at (h : s.At d t) (f : Domain → Tile → Tile) : onTile s f = .next (s.put (f d t)) := by
  simp [onTile, h.1, h.2, State.put]

theorem onDom_at (h : s.At d t) (f : Domain → Tile → State) : onDom s f = .next (f d t) := by
  simp [onDom, h.1, h.2]

theorem sqResult_at (h : s.At d t) (lat : Nat) (dst : Dst) (f : Domain → Tile → W64) :
    sqResult s lat dst f = .next (s.put (t.send (scalarFlight t d.dtick lat .sq (dstDest dst) (f d t)))) :=
  onTile_at h _

theorem sa1_at (h : s.At d t) (dst : Dst) (a : SSpec) (f : W64 → W64) :
    sa1 s dst a f = .next (s.put (t.send (scalarFlight t d.dtick latAlu .sq (dstDest dst) (f (t.sval a))))) :=
  onTile_at h _

theorem sa2_at (h : s.At d t) (lat : Nat) (dst : Dst) (a b : SSpec) (f : W64 → W64 → W64) :
    sa2 s lat dst a b f =
      .next (s.put (t.send (scalarFlight t d.dtick lat .sq (dstDest dst) (f (t.sval a) (t.sval b))))) :=
  onTile_at h _

theorem shortScalar_at (h : s.At d t) (n : BitVec 5) (f : Tile → W64) :
    shortScalar s n f = .next (s.put (t.send (scalarFlight t d.dtick 1 .sq (.sreg n) (f t)))) :=
  onTile_at h _

theorem slotWord_at (h : s.At d t) (p : BitVec 3) (f : Tile → Bool) :
    slotWord s p f = .next (s.put (t.send (scalarFlight t d.dtick 1 .sq (.slot p (f t)) 0))) :=
  onTile_at h _

theorem trapWord_at (h : s.At d t) (src code detail : Nat) (addr : W64) :
    trapWord s src code detail addr = .next (s.raise src code detail addr) :=
  onDom_at h _

/-- Only a place that does not stand stops a word that changes its tile. -/
theorem onTile_next {f : Domain → Tile → Tile} {s' : State} (e : onTile s f = .next s') :
    ∃ d t, s.At d t ∧ s' = s.put (f d t) := by
  unfold onTile at e
  split at e
  · cases e
  · rename_i d hd
    split at e
    · cases e
    · rename_i t ht
      cases e
      exact ⟨d, t, ⟨hd, ht⟩, rfl⟩

theorem onDom_next {f : Domain → Tile → State} {s' : State} (e : onDom s f = .next s') :
    ∃ d t, s.At d t ∧ s' = f d t := by
  unfold onDom at e
  split at e
  · cases e
  · rename_i d hd
    split at e
    · cases e
    · rename_i t ht
      cases e
      exact ⟨d, t, ⟨hd, ht⟩, rfl⟩

/-! ## A place after an update -/

theorem upd_getElem? {α : Type} (l : List α) (i : Nat) (f : α → α) (j : Nat) :
    (upd l i f)[j]? = if i = j then (l[j]?).map f else l[j]? := by
  induction l generalizing i j with
  | nil => simp [upd]
  | cons x xs ih =>
    cases i with
    | zero => cases j <;> simp [upd]
    | succ i => cases j with
      | zero => simp [upd]
      | succ j => simp [upd, ih]

theorem tile?_updTile (d : Domain) (lt : Nat) (f : Tile → Tile) (k : Nat) :
    (d.updTile lt f).tile? k = if lt = k then (d.tile? k).map f else d.tile? k := by
  simp [Domain.updTile, Domain.tile?, upd_getElem?]

theorem dom?_seq {k : Nat} (h : s.dom? k = some d) : d.seq = k := by
  have := List.find?_some h
  simpa using this

theorem dom?_updDom {k : Nat} {f : Domain → Domain} (h : s.dom? k = some d) (hf : ∀ e, (f e).seq = e.seq) :
    (s.updDom k f).dom? k = some (f d) := by
  unfold State.dom? State.updDom at *
  generalize s.domains = l at *
  induction l with
  | nil => simp at h
  | cons x xs ih =>
    simp only [List.map_cons, List.find?_cons] at *
    by_cases hx : x.seq = k
    · simp only [hx, beq_self_eq_true, Option.some.injEq] at h
      subst h
      simp [hx, hf]
    · have e : (x.seq == k) = false := by simpa using hx
      simp only [e] at h
      simp only [hx, if_false, e]
      exact ih h

theorem At.seq (h : s.At d t) : d.seq = s.cur.dom := dom?_seq h.1

theorem at_updDom {f : Domain → Domain} (h : s.At d t) (hf : ∀ e, (f e).seq = e.seq) {u : Tile}
    (hu : (f d).tile? s.cur.lt = some u) : (s.updDom s.cur.dom f).At (f d) u :=
  ⟨dom?_updDom h.1 hf, hu⟩

theorem at_put (h : s.At d t) (u : Tile) : (s.put u).At (d.updTile s.cur.lt (fun _ => u)) u := by
  refine at_updDom (f := fun e => e.updTile s.cur.lt (fun _ => u)) h (fun e => rfl) ?_
  rw [tile?_updTile, if_pos rfl, h.2]
  rfl

end Sys2Proof.Laws
end

