-- ==== Sys2Proof/Tests/Slice0.lean ====
section
/-!
SUPPORT. Tests of the model: ill-formed words that each check refuses, words written out from the encoding tables, one
step of instructions with results taken from the specification's tables and examples, and for every statement a state and
operands that meet its hypotheses, clause by clause, at values where its clauses meet.
-/

namespace Sys2Proof.Tests

-- One test after the other: side by side they would need more threads than the memory limit admits.
set_option Elab.async false

open Sys2Proof Sys2Proof.Machine

/-! ## A small state: one user domain of four tiles, tile 0 about to issue -/

def start : State := { (State.reset.withFetchWord 32 0x8101421C) with cur := ⟨1, 0, .sq, .me, 0, 0, 0⟩ }
def dom0 : Domain := start.domains.head (by decide)
def tile0 : Tile := dom0.tiles.head (by decide)

/-- The domain with its tile 0 changed. -/
def domW (g : Tile → Tile) (f : Domain → Domain := id) : Domain := f { dom0 with tiles := g tile0 :: dom0.tiles.tail }
/-- The state with its tile 0, its domain and itself changed. -/
def stW (g : Tile → Tile) (f : Domain → Domain := id) (h : State → State := id) : State := h { start with domains := [domW g f] }

/-- A page table of key 0 on die 0: addresses below 4 GiB stand at themselves, writable and executable (03 R66-R68). -/
def pageBytes : List Host.Cell := [(0, 0x01), (1, 0x06), (2, 0x10), (0x1000, 0x07), (0x1001, 0x05)]
def paged (s : State) : State := { s with mem := pageBytes }


/-! ## Decoding: words of the specification's listings and worked encodings, and words written from the tables -/

/-- The word, high half first, decodes in its column to the instruction and nothing is left. -/
def reads (c : Column) (w : BitVec 32) (i : Instr) : Bool :=
  match decodeWord c [w.extractLsb' 16 16, w.extractLsb' 0 16] with
  | .ok (j, []) => decide (j = i)
  | _ => false
/-- A halfword does. -/
def readsShort (c : Column) (w : Half) (i : Instr) : Bool :=
  match decodeWord c [w] with
  | .ok (j, []) => decide (j = i)
  | _ => false
/-- A word is refused. -/
def refusedWord (c : Column) (w : BitVec 32) : Bool :=
  match decodeWord c [w.extractLsb' 16 16, w.extractLsb' 0 16] with
  | .ok _ => false
  | .error _ => true

/-- 19, 21, 22, 23: scalar words. -/
theorem test_decode_scalar : reads .sq 0x83824FFF (.ldcp 0 (.reg 9) 4095) ∧ reads .sq 0x83720100 (.movi 0 (.reg 8) 256) ∧
    reads .sq 0x810145E4 (.add 0 (.reg 5) (.s 5) (.c 9)) ∧ reads .sq 0x83423113 (.shli 0 (.reg 8) (.c 1) 19) ∧
    reads .sq 0x8B10C113 (.andi 1 (.reg 3) (.s 1) 19) ∧ reads .sq 0x81080A00 (.add 0 .queue (.s 10) (.s 0)) ∧
    reads .sq 0x8B182030 (.andi 1 .queue (.k 0) 48) ∧ reads .sq 0x83480306 (.shli 0 .queue (.s 3) 6) ∧
    reads .sq 0x83024804 (.addi 0 (.reg 9) (.s 8) 4) := by decide

/-- 19, 22-24: predicates, targets and decisions. -/
theorem test_decode_control : reads .sq 0xDC028099 (.cmp 11 1 false (.k 0) (.s 9) .geu) ∧
    reads .sq 0x84120C00 (.cmpi 0 1 false (.s 3) 0 .eq) ∧ reads .sq 0x8C12804B (.cmpi 1 1 false (.k 0) 4 .bitclr) ∧
    reads .sq 0x80000000 (.prep 0 0 0) ∧ reads .sq 0xD0308000 (.leap 10 0 1 false) ∧ reads .sq 0x8038C000 (.leap 0 2 1 true) ∧
    reads .sq 0x80351000 (.leapD 0 1 2 false) ∧ reads .sq 0x803D0000 (.leap 0 3 2 false) ∧ reads .sq 0x80500000 (.halt 0) ∧
    reads .sq 0x80A00085 (.skipl 0 133) := by decide

/-- 01, 04, 06, 11, 20, 22, 24: pushes, banks, fences, markers. -/
theorem test_decode_sync : reads .sq 0x84A00100 (.cq 0 1 0 false false false) ∧ reads .sq 0x84A00230 (.cq 0 2 1 true false false) ∧
    reads .sq 0x8480055C (.mq 0 5 2 true true true) ∧ reads .sq 0x84800774 (.mq 0 7 3 true false true) ∧
    reads .sq 0x8CB00000 (.hq 1 0 0 false false false) ∧ reads .sq 0x8506A500 (.give 0 3 1 2 5) ∧
    reads .sq 0x8500A400 (.give 0 0 1 2 4) ∧ reads .sq 0x85322C00 (.bfmt 0 1 .e4m3 .b32 false) ∧
    reads .sq 0x85322800 (.bfmt 0 1 .e4m3 .none false) ∧ reads .sq 0x85506420 (.cfenceLo 0 6 .domain 2) ∧
    reads .sq 0x854F4C00 (.pfence 0 15 .domain 6) ∧ reads .sq 0x80920001 (.mark 0 2 1) ∧ reads .sq 0x80820001 (.waitrv 0 2 1) := by decide

/-- 01, 23: CSRs and supervisor words. -/
theorem test_decode_csr : reads .sq 0x86004000 (.csrr 0 (.reg 1) 0) ∧ reads .sq 0x86114070 (.csrw 0 (.s 5) 0x070) ∧
    reads .sq 0x86080072 (.csrr 0 .queue 0x072) ∧ reads .sq 0x862C8071 (.csrs 0 (.c 2) 0x071) ∧
    reads .sq 0x863C4071 (.csrc 0 (.c 1) 0x071) ∧ reads .sq 0x86401000 (.seal 0 (.s 4)) := by decide

/-- 10 R240: the short words of the worked forms. -/
theorem test_decode_short : readsShort .sq 0x0083 (.inc 0 3) ∧ readsShort .vx 0x0085 (.vzero 0 5) ∧ readsShort .ls 0x003F (.skip 0 63) ∧
    readsShort .xc 0x0000 (.skip 0 0) ∧ readsShort .sq 0b0111000001011111 (.kput 7 31) ∧
    readsShort .sq 0b0000000011000000 (.dec 0 0) ∧ readsShort .vx 0b0000000001001111 (.vput 0 15) := by decide

/-- 01, 19-22, 24: vector words. -/
theorem test_decode_vector : reads .vx 0xB350A381 (.ior 6 (.l 0) (.c 0) (.reg 1)) ∧
    reads .vx 0x821007B1 (.fmul 0 .rne (.v 1) (.c 3) (.reg 1)) ∧ reads .vx 0x9E220006 (.vredf 3 (.a 0) .maxabs) ∧
    reads .vx 0xAE0A0000 (.vext 5 (.a 0) 0) ∧ reads .vx 0xAE820670 (.qnt8 5 0 false false (.a 0) (.v 12) (.c 0)) ∧
    reads .vx 0x97020000 (.dq8 2 false 0 (.a 0)) ∧ reads .vx 0x89C21CA0 (.vxSel 1 (.a 0) (.c 1) (.a 0) false) ∧
    reads .vx 0x80051DA0 (.ffma 0 .rne (.l 0) (.c 3) (.a 0) false) ∧ reads .vx 0x98021D83 (.ffma 3 .rne (.a 0) (.c 3) (.v 1) true) ∧
    reads .vx 0x9A004111 (.fadd 3 .rne (.a 0) (.a 1) (.reg 1)) ∧ reads .vx 0x8310F722 (.imul 0 (.c 5) (.b 2) (.reg 2)) ∧
    reads .vx 0x8390F725 (.icltu 0 (.c 5) (.b 2) (.reg 5)) ∧ reads .vx 0x86150200 (.vperm 0 (.l 0) (.v 4)) ∧
    reads .vx 0x83484056 (.iand 0 (.a 0) (.v 5) (.reg 6)) ∧ reads .vx 0xFE8D1CF0 (.qnt8 15 0 false true (.l 0) (.c 1) (.c 0)) := by decide

/-- 12 R318: function words. -/
theorem test_decode_function : reads .xc 0x82484000 (.logF64 0 .rup (.v 4)) ∧ reads .xc 0x81E50C40 (.divF32 0 .rtz (.a 0) (.b 1)) := by
  decide

/-- 04, 19-22, 24: accesses. -/
theorem test_decode_access : reads .ls 0x80020600 (.ldsV 0 1 (.c 0) 0) ∧ reads .ls 0x80420E01 (.stsV 0 1 (.v 1) (.c 0) 1) ∧
    reads .ls 0x81621900 (.stsW64 0 1 (.s 3) (.s 8) 0) ∧ reads .ls 0xD8622100 (.stsE 11 1 (.v 4) (.s 8) 0) ∧
    reads .ls 0x93420080 (.ldgV 2 1 (.s 4) 0) ∧ reads .ls 0x836231C1 (.stgV 0 1 (.v 6) (.s 14) 1) ∧
    reads .ls 0x8A4589E0 (.waitw 1 2 (.c 1) (.s 15) .eq) ∧ reads .ls 0xC0260120 (.ldsD 8 3 (.s 9) 0) ∧
    reads .ls 0x80454E00 (.stsV 0 2 (.l 1) (.c 0) 0) ∧ reads .ls 0x834400C2 (.ldgV 0 2 (.s 6) 2) := by decide

/-- Words written from the tables of 10 R234-R250: VOTE.MIN, PLOG.XNOR, both PMOVs, SEMSIG, SEMWAIT, BMAP, BFREE, SLOT, TRAP. -/
theorem test_decode_tables_sq : reads .sq 0b10000000010000000000010000110011 (.vote 0 0 false (.s 1) (.s 3) .min) ∧
    reads .sq 0b10000100001000100101100000000110 (.plog 0 1 1 3 .xnor) ∧
    reads .sq 0b11111100010000101000000011000000 (.pmovToRegister 15 (.reg 10) 6) ∧
    reads .sq 0b10000100010000000010010011110000 (.pmovToSlot 0 (.k 4) 7) ∧
    reads .sq 0b10000100110001110000000011111111 (.semsig 0 7 255) ∧
    reads .sq 0b10000100110111110000000100000000 (.semwait 0 15 256) ∧
    reads .sq 0b10000101000110010110100000100000 (.bmap 0 9 1 5 (.s 1)) ∧
    reads .sq 0b10000101001000001111111001000000 (.bfree 0 3 7 (.c 2)) ∧
    reads .sq 0b10000110010100000100001010000000 (.slotw 0 (.s 16) 2 true) ∧
    reads .sq 0b10000000011000000000000010000001 (.trap 0 129) := by decide

/-- R249, R250: AMOS.CAS, AMOG.FMAX32, WAITG.GEU, LDG.W64, LDS.G, STS.S, LDA of half 1, STA. -/
theorem test_decode_tables_ls : reads .ls 0b10000010000001000001000001001010 (.amos 0 2 (.s 2) (.s 2) .cas) ∧
    reads .ls 0b10000010001111100001000001001100 (.amog 0 15 (.s 2) (.s 2) .fmax32) ∧
    reads .ls 0b10000010011000010100000000100001 (.waitg 0 0 (.k 8) (.s 1) .geu) ∧
    reads .ls 0b10000011000000100000000001111111 (.ldgW64 0 1 (.s 3) 31) ∧
    reads .ls 0b10000000100000111111000000100000 (.ldsG 0 1 (.c 6) (.s 1)) ∧
    reads .ls 0b10000000101000100001000000101111 (.stsS 0 1 (.v 2) (.s 1) 15) ∧
    reads .ls 0b10000100000000100000000000100001 (.lda 0 1 (.s 1) .sum true) ∧
    reads .ls 0b10000100001000100010000000100000 (.sta 0 1 (.v 4) (.s 1) false) := by decide

/-- R239-R243, R249, R250: a nonzero unused field, a reserved OPC7, AOP, OP6, destination and a LEAP with LINK and DOM are refused. -/
theorem test_decode_refuses : refusedWord .sq 0x80500001 ∧ refusedWord .sq 0x80B00000 ∧ refusedWord .ls 0x8202104D ∧
    refusedWord .ls 0x80C00000 ∧ refusedWord .sq 0x83784004 ∧ refusedWord .sq 0x80303000 := by decide

/-! ## Ill-formed terms, one for each check of WellFormed -/

theorem test_illformed_sq : (Instr.vote 0 1 false (.s 1) (.s 2) .max).wf = false ∧ (Instr.vote 0 0 true (.s 1) (.s 2) .add).wf = false ∧
    (Instr.waitrv 0 0 1).wf = false ∧ (Instr.mark 0 0 1).wf = false ∧ (Instr.shli 0 (.reg 1) (.s 1) 64).wf = false ∧
    (Instr.shri 0 (.reg 1) (.s 1) 64).wf = false ∧ (Instr.sari 0 (.reg 1) (.s 1) 64).wf = false ∧
    (Instr.ldcp 0 (.reg 1) 4096).wf = false ∧ (Instr.plog 0 1 2 3 .not).wf = false ∧ (Instr.pclr 0 0).wf = false ∧
    (Instr.semsig 0 1 0).wf = false := by decide

theorem test_illformed_pushes : (Instr.mq 0 5 1 false false false).wf = false ∧ (Instr.gq 0 5 0 false true false).wf = false ∧
    (Instr.cq 0 5 2 false false true).wf = false ∧ (Instr.hq 0 5 7 false true false).wf = false := by decide

theorem test_illformed_fences : (Instr.pfence 0 0 .tile 1).wf = false ∧ (Instr.pfence 0 1 .cluster 1).wf = false ∧
    (Instr.cfenceLo 0 0 .tile 1).wf = false ∧ (Instr.cfenceLo 0 1 .tile 0).wf = false ∧ (Instr.cfenceHi 0 0 .tile 1).wf = false ∧
    (Instr.cfenceHi 0 1 .tile 0).wf = false := by decide

theorem test_illformed_csrs : (Instr.csrr 0 (.reg 1) 0x05E).wf = false ∧ (Instr.csrw 0 (.s 1) 0x00F).wf = false ∧
    (Instr.csrs 0 (.s 1) 0x033).wf = false ∧ (Instr.csrc 0 (.s 1) 0x07B).wf = false := by decide

theorem test_illformed_vectors : (Instr.ffma 0 .rne (.v 1) (.v 2) (.a 0) true).wf = false ∧
    (Instr.ffms 0 .rne (.v 1) (.v 2) (.x 0) true).wf = false ∧ (Instr.fnfma 0 .rne (.v 1) (.v 2) (.l 0) true).wf = false ∧
    (Instr.fnfms 0 .rne (.v 1) (.v 2) (.b 0) true).wf = false ∧ (Instr.dfma 0 .rne (.v 1) (.v 2) (.c 0) true).wf = false ∧
    (Instr.dfms 0 .rne (.v 1) (.v 2) (.a 0) true).wf = false ∧ (Instr.imad 0 (.v 1) (.v 2) (.a 0) true).wf = false ∧
    (Instr.vxSel 0 (.v 1) (.v 2) (.a 0) true).wf = false ∧ (Instr.vext 0 (.v 1) 32).wf = false ∧
    (Instr.vextW64 0 (.v 1) 16).wf = false ∧ (Instr.vrot 0 (.v 1) 32).wf = false := by decide

/-! ## One step of an instruction; each expected result stands in the rule that the docstring names -/

/-- What holds of the domain and its tile 0 after an instruction that goes on. -/
def after {α : Type} (o : Host.Outcome State Fault Refusal) (f : Domain → Tile → α) : Option α :=
  match o with
  | .next s => (s.dom? 1).bind (fun d => d.tiles.head?.map (f d))
  | .fault _ => none
  | .refused _ => none
/-- The value and the due tick of the one result under way. -/
def result (i : Instr) (s : State := start) : Option (W64 × Nat) :=
  (after (exec i s) (fun _ t => t.flights.head?.map (fun f => (f.val, f.due)))).join
/-- Lane n, the due tick and the flags of the one vector result under way. -/
def lane (n : Nat) (i : Instr) (s : State := start) : Option (W32 × Nat × Flg) :=
  (after (exec i s) (fun _ t => t.flights.head?.map (fun f => (f.lanes.getD n 0, f.due, orFlags f.raised)))).join
/-- Tile 0 with scalar registers from s1 on. -/
def withS (l : List W64) : State := stW (fun t => { t with s := 0 :: l ++ t.s.drop (l.length + 1) })
/-- Tile 0 with v0 and v1 all of one word each. -/
def withV (x y : W32) : State := stW (fun t => { t with v := List.replicate 32 x :: List.replicate 32 y :: t.v.drop 2 })

/-- R258, R234: c10 is −1 and c2 is 2; sums and differences wrap. -/
theorem test_add_sub : result (.add 0 (.reg 5) (.c 10) (.c 2)) = some (1, 1) ∧ result (.sub 0 .queue (.s 0) (.c 1)) = some (0xFFFFFFFFFFFFFFFF, 1) := by
  decide +kernel
/-- R258: the high halves of (−1)·(−1), signed and unsigned. -/
theorem test_mulh : result (.mulh 0 (.reg 1) (.c 10) (.c 10)) = some (0, 3) ∧
    result (.mulhu 0 (.reg 1) (.c 10) (.c 10)) = some (0xFFFFFFFFFFFFFFFE, 3) ∧ result (.mul 0 (.reg 1) (.c 10) (.c 13)) = some (8, 3) := by
  decide +kernel
/-- R259. -/
theorem test_div : result (.div 0 (.reg 1) (.c 9) (.s 0)) = some (0xFFFFFFFFFFFFFFFF, 20) ∧
    result (.divu 0 (.reg 1) (.c 9) (.s 0)) = some (0xFFFFFFFFFFFFFFFF, 20) ∧
    result (.div 0 (.reg 1) (.c 15) (.c 10)) = some (0x8000000000000000, 20) ∧
    result (.div 0 (.reg 1) (.c 13) (.c 3)) = some (0xFFFFFFFFFFFFFFFE, 20) := by decide +kernel
/-- R259: remainders have the dividend's sign; by zero they give it. -/
theorem test_rem : result (.rem 0 (.reg 1) (.c 13) (.s 0)) = some (0xFFFFFFFFFFFFFFF8, 20) ∧
    result (.rem 0 (.reg 1) (.c 13) (.c 3)) = some (0xFFFFFFFFFFFFFFFE, 20) ∧ result (.rem 0 (.reg 1) (.c 15) (.c 10)) = some (0, 20) ∧
    result (.remu 0 (.reg 1) (.c 9) (.s 0)) = some (128, 20) := by decide +kernel
/-- R258: shift counts are taken modulo 64. -/
theorem test_shifts : result (.sar 0 (.reg 1) (.c 13) (.c 1)) = some (0xFFFFFFFFFFFFFFFC, 1) ∧
    result (.shl 0 (.reg 1) (.c 1) (.c 8)) = some (1, 1) ∧ result (.shr 0 (.reg 1) (.c 15) (.c 5)) = some (0x0080000000000000, 1) ∧
    result (.rol 0 (.reg 1) (.c 15) (.c 1)) = some (1, 1) := by decide +kernel
/-- R258: counts of zero bits, of one bits, and the byte order. -/
theorem test_bits : result (.clz 0 (.reg 1) (.s 0)) = some (64, 1) ∧ result (.ctz 0 (.reg 1) (.s 0)) = some (64, 1) ∧
    result (.popc 0 (.reg 1) (.c 14)) = some (63, 1) ∧ result (.bswap 0 (.reg 1) (.c 9)) = some (0x8000000000000000, 1) := by decide +kernel
/-- R258: signed and unsigned orders of −1 and 1; ADDSH shifts b by SUB + 1. -/
theorem test_minmax : result (.min 0 (.reg 1) (.c 10) (.c 1)) = some (0xFFFFFFFFFFFFFFFF, 1) ∧ result (.minu 0 (.reg 1) (.c 10) (.c 1)) = some (1, 1) ∧
    result (.max 0 (.reg 1) (.c 10) (.c 1)) = some (1, 1) ∧ result (.addsh 0 (.reg 1) (.c 1) (.c 3) 3) = some (49, 1) ∧
    result (.andn 0 (.reg 1) (.c 10) (.c 9)) = some (0xFFFFFFFFFFFFFF7F, 1) := by decide +kernel
/-- R260: 0x1C4 names the field of bits 11:4; 0xFFC the field from bit 60, cut to four bits. -/
theorem test_fields : result (.extu 0 (.reg 1) (.s 1) (.s 2)) (withS [0xABCDE, 0x1C4]) = some (0xCD, 1) ∧
    result (.exts 0 (.reg 1) (.s 1) (.s 2)) (withS [0xABCDE, 0x1C4]) = some (0xFFFFFFFFFFFFFFCD, 1) ∧
    result (.extu 0 (.reg 1) (.c 10) (.s 2)) (withS [0, 0xFFC]) = some (0xF, 1) ∧
    result (.ins 0 (.reg 3) (.s 1) (.s 2)) (withS [0x12, 0x1C4, 0xABCDE]) = some (0xAB12E, 1) ∧
    result (.ins 0 .queue (.s 1) (.s 2)) (withS [0x12, 0x1C4, 0xABCDE]) = some (0x120, 1) := by decide +kernel
/-- R261, R262: immediates are sign-extended. -/
theorem test_immediates : result (.addi 0 (.reg 1) (.c 3) 0x80) = some (0xFFFFFFFFFFFFFF83, 1) ∧
    result (.xori 0 (.reg 1) (.c 10) 0xFF) = some (0, 1) ∧ result (.sari 0 (.reg 1) (.c 15) 63) = some (0xFFFFFFFFFFFFFFFF, 1) ∧
    result (.movi 0 .queue 0x2000) = some (0xFFFFFFFFFFFFE000, 1) := by decide +kernel
/-- R258, R213: SEL reads the value and not the written bit. -/
theorem test_sel : result (.sel 0 (.reg 1) (.c 1) (.c 2) 3) (stW (fun t => { t with preds := List.replicate 8 ⟨true, false⟩ })) = some (1, 1) ∧
    result (.sel 0 (.reg 1) (.c 1) (.c 2) 3) = some (2, 1) := by decide +kernel
/-- R240: INC and DEC wrap. -/
theorem test_inc_dec : result (.inc 0 1) (withS [0xFFFFFFFFFFFFFFFF]) = some (0, 1) ∧ result (.dec 0 1) = some (0xFFFFFFFFFFFFFFFF, 1) := by
  decide +kernel
/-- R262: the constant of slot 4095 of the record store. -/
theorem test_ldcp : result (.ldcp 0 (.reg 4) 4095) { start with mem := [(locRec 0 0 false 32760, 0x78), (locRec 0 0 false 32763, 0x12)] } =
    some (0x12000078, 2) := by decide +kernel

def putSlot (i : Instr) (s : State := start) : Option Dest := (after (exec i s) (fun _ t => t.flights.head?.map (fun f => f.dest))).join
/-- R263, R264: signed and unsigned comparisons, BITSET, PW with a false slot, PLOG. -/
theorem test_predicates : putSlot (.cmp 0 1 false (.c 10) (.c 1) .lt) = some (.slot 1 true) ∧
    putSlot (.cmp 0 1 false (.c 10) (.c 1) .ltu) = some (.slot 1 false) ∧ putSlot (.cmp 0 2 true (.c 1) (.c 1) .eq) = some (.slot 2 false) ∧
    putSlot (.cmpi 0 3 false (.c 9) 7 .bitset) = some (.slot 3 true) ∧ putSlot (.cmpi 0 3 false (.c 10) 0x3F .eq) = some (.slot 3 true) ∧
    putSlot (.plog 0 4 1 2 .nor) = some (.slot 4 true) := by decide +kernel

/-- R298, R301: 1 + 0.5, 1 − 0.5, 1·0.5 − 1 and 0.5·0.5; 12 R306 gives both FSCALB results and their flags UF and NX. -/
theorem test_fp32 : lane 0 (.fadd 0 .rne (.c 1) (.c 3) .queue) = some (0x3FC00000, 4, 0) ∧
    lane 31 (.ffms 0 .rne (.c 1) (.c 3) (.c 1) false) = some (0xBF000000, 4, 0) ∧
    lane 7 (.fmul 0 .rne (.c 3) (.c 3) .queue) = some (0x3E800000, 4, 0) := by decide +kernel
theorem test_fscalb : lane 0 (.fscalb 0 .rne (.v 0) (.v 1) .queue) (withV 0x3FA00000 0xFFFFFF6B) = some (1, 4, fUF ||| fNX) ∧
    lane 0 (.fscalb 0 .rne (.v 0) (.v 1) .queue) (withV 0x3FC00000 0xFFFFFF6B) = some (2, 4, fUF ||| fNX) := by decide +kernel
/-- R305: −0.25 under RTZ gives −0; NX. R304: a NaN is unordered, and FCEQ takes +0 for −0. -/
theorem test_rint_compare : lane 0 (.frint 0 .rtz (.v 0) .queue) (withV 0xBE800000 0) = some (0x80000000, 3, fNX) ∧
    lane 0 (.fceq 0 (.v 0) (.v 1) .queue) (withV 0x80000000 0) = some (0xFFFFFFFF, 2, 0) ∧
    lane 0 (.fclt 0 (.v 0) (.v 1) .queue) (withV 0x7FC00000 0) = some (0, 2, fNV) ∧
    lane 0 (.fcun 0 (.v 0) (.v 1) .queue) (withV 0x7FC00000 0) = some (0xFFFFFFFF, 2, 0) := by decide +kernel
/-- R299: the rule's examples: 1·1 + v0, and SEL takes the word of −0 for nonzero. -/
theorem test_imad_sel : lane 5 (.imad 0 (.c 4) (.c 4) (.v 0) true) (withV 41 0) = some (42, 1, 0) ∧
    lane 5 (.vxSel 0 (.c 1) (.c 2) (.v 0) false) (withV 0x80000000 0) = some (0x3F800000, 1, 0) := by decide +kernel
/-- R307: clamped sums, the absolute value of −2^31, a right shift with sign copies, signed high product. -/
theorem test_integer : lane 0 (.iadds 0 (.v 0) (.v 1) .queue) (withV 0x7FFFFFFF 1) = some (0x7FFFFFFF, 1, 0) ∧
    lane 0 (.isubs 0 (.v 0) (.v 1) .queue) (withV 0x80000000 1) = some (0x80000000, 1, 0) ∧
    lane 0 (.iabs 0 (.v 0) .queue) (withV 0x80000000 1) = some (0x80000000, 1, 0) ∧
    lane 0 (.isar 0 (.v 0) (.v 1) .queue) (withV 0x80000000 33) = some (0xC0000000, 1, 0) ∧
    lane 0 (.imulh 0 (.v 0) (.v 1) .queue) (withV 0xFFFFFFFF 1) = some (0xFFFFFFFF, 1, 0) := by decide +kernel
/-- R308, R316: conversions of one half, of −1 and of 1.0; CVT.F32.F64 leaves lanes 16 to 31 at +0. -/
theorem test_convert : lane 3 (.cvtF32I32 0 .rne (.v 0) .queue) (withV 0xFFFFFFFF 0) = some (0xBF800000, 3, 0) ∧
    lane 3 (.cvtBf16F32 0 .rne (.v 0) (.v 1) .queue) (withV 0x3F800000 0xC0000000) = some (0xC0003F80, 3, 0) ∧
    lane 1 (.cvtF64F32 0 (.c 1) .queue) = some (0x3FF00000, 3, 0) ∧ lane 16 (.cvtF32F64 0 .rne (.c 1) .queue) = some (0, 3, 0) ∧
    lane 0 (.cvth 0 (.c 1) (.c 3)) = some (0x38003C00, 3, 0) ∧ lane 0 (.cvthu 0 (.v 0) true) (withV 0x3C000000 0) = some (0x3F800000, 3, 0) := by
  decide +kernel
/-- R312, R317, R313: VROT takes lane i + n, VPERM the lane that B names; −0 is class 5; the lane indexes sum to 496. -/
theorem test_moves : lane 31 (.vrot 0 (.c 5) 1) = some (0, 2, 0) ∧ lane 0 (.vperm 0 (.c 5) (.v 0)) (withV 0x2000003F 0) = some (31, 2, 0) ∧
    lane 9 (.vclass 0 (.v 0)) (withV 0x80000000 0) = some (32, 2, 0) ∧ lane 9 (.vredi 0 (.c 5) .add) = some (496, 6, 0) ∧
    lane 9 (.vredf 0 (.c 2) .maxabs) = some (0x3F800000, 6, 0) ∧ lane 9 (.vredi 0 (.c 5) .max) = some (31, 6, 0) := by decide +kernel
/-- R314, R315: 1.0 is 0x38 in E4M3; QNT8 puts it into the byte that n names. -/
theorem test_fp8 : lane 0 (.qnt8 0 2 false false (.c 1) (.c 1) (.v 0)) (withV 0x11223344 0) = some (0x11383344, 3, 0) ∧
    lane 0 (.dq8 0 false 2 (.v 0)) (withV 0x11383344 0) = some (0x3F800000, 3, 0) := by decide +kernel
/-- R320: 1 / 0.5 and 1 / 0, which raises DZ; the square root of 1. -/
theorem test_function : lane 0 (.divF32 0 .rne (.c 1) (.c 3)) = some (0x40000000, 12, 0) ∧
    lane 0 (.divF32 0 .rne (.c 1) (.c 0)) = some (0x7F800000, 12, fDZ) ∧ lane 0 (.sqrt 0 .rne (.c 1)) = some (0x3F800000, 10, 0) := by
  decide +kernel

/-- Tile 0 with bank 0 in window 0 and s1, s2. -/
def banked (a b : W64) : State := stW (fun t => { t with wins := .att 0 :: t.wins.tail, s := [0, a, b] ++ t.s.drop 3 })
def byteAfter (a : Nat) (i : Instr) (s : State) : Option Byte :=
  match exec i s with
  | .next t => some (t.readByte a)
  | .fault _ => none
  | .refused _ => none
/-- R328: STS.W64 at 8·31 of the base writes little-endian; R334: AMOS.ADD returns the old value. -/
theorem test_bank : byteAfter (locBank 0 0 0xF8) (.stsW64 0 1 (.s 2) (.s 1) 31) (banked 0 0x0102030405060708) = some 8 ∧
    byteAfter (locBank 0 0 0xFF) (.stsW64 0 1 (.s 2) (.s 1) 31) (banked 0 0x0102030405060708) = some 1 ∧
    byteAfter (locBank 0 0 0) (.amos 0 1 (.s 2) (.s 1) .add) { (banked 0 255) with mem := [(locBank 0 0 0, 2)] } = some 1 ∧
    result (.amos 0 1 (.s 2) (.s 1) .add) { (banked 0 255) with mem := [(locBank 0 0 0, 2)] } = some (2, 10) := by decide +kernel
def causes (i : Instr) (s : State) : Option (List (Nat × Nat × Nat)) :=
  after (exec i s) (fun d _ => d.causes.map (fun c => (c.src, c.code, c.detail)))
/-- R60, R325: the address, alignment and detached-window faults; R270, R211: the software trap, a target not ready. -/
theorem test_faults : causes (.ldsW32 0 1 (.s 1) 0) (banked 0x400000 0) = some [(3, 3, 0)] ∧
    causes (.ldsW32 0 1 (.s 1) 0) (banked 2 0) = some [(3, 4, 0)] ∧ causes (.ldsW32 0 1 (.s 1) 0) (banked 0x80000 0) = some [(3, 16, 0)] ∧
    causes (.trap 0 200) start = some [(0, 1, 200)] ∧ causes (.leap 0 1 0 true) start = some [(0, 9, 0)] := by decide +kernel
/-- R285, R286: the lead of an S1 shape; RMDYN refuses code 5 and takes 4; FTRAPEN takes the bits set. -/
theorem test_csr : result (.csrr 0 (.reg 1) 0x020) = some (24, 2) ∧ after (exec (.csrw 0 (.s 1) 0x006) (withS [5])) (fun _ t => t.rmdyn) = some 0 ∧
    after (exec (.csrw 0 (.s 1) 0x006) (withS [4])) (fun _ t => t.rmdyn) = some 4 ∧
    after (exec (.csrs 0 (.s 1) 0x005) (withS [3])) (fun _ t => t.trapen) = some 3 := by decide +kernel
/-- R396: node 7 to x = 3 is four steps either way, so east; node 2, of y = 0, to y = 7 is one step down. -/
theorem test_routes : unicastPort 0 7 0x0C00 = .e ∧ unicastPort 0 2 0xE800 = .s := by decide
/-- The step issues the word that stands next: the result is under way and the stream has gone past it. -/
theorem test_step : after (step (State.reset.withFetchWord 32 0x8101421C)) (fun _ t => (t.flights.length, (t.streams.map (fun s => s.ofs)))) =
    some (1, [2, 0, 0, 0]) := by decide +kernel
/-! ## Witnesses of the statements' hypotheses -/

/-- The one hypothesis of the result statements of scalar, vector and function words. -/
theorem witness_result_words : start.At dom0 tile0 := ⟨rfl, rfl⟩

theorem witness_ScalarAluAndFieldResults : start.At dom0 tile0 ∧ (63#8).toNat < 64 := ⟨⟨rfl, rfl⟩, by decide⟩

theorem witness_VectorIntegerAndPermuteResults : start.At dom0 tile0 ∧ (tile0.vval (.v 0)).length = 32 ∧
    (tile0.vpairs (.v 0)).length = 16 ∧ (31#6).toNat < 32 ∧ (15#6).toNat < 16 := ⟨⟨rfl, rfl⟩, by decide⟩

theorem witness_ResultsEnterTheirDestinations : tile0.s.length = 32 ∧ tile0.v.length = 16 ∧ tile0.preds.length = 8 := by
  decide

def flightOf (r : List Flg) : Flight := { scalarFlight tile0 0 0 .sq (.sq (some 5)) 7 with raised := r }

theorem witness_ColumnResultCompletes : let t : Tile := { tile0 with flights := [flightOf [1]], trapen := 2 }
    (stW (fun _ => t)).At (domW (fun _ => t)) t ∧ t.lt = (stW (fun _ => t)).cur.lt ∧
    firstDue (domW (fun _ => t)).dtick t.flights = some (flightOf [1]) ∧ t.trapen &&& orFlags (flightOf [1]).raised = 0 :=
  ⟨⟨rfl, rfl⟩, by decide⟩

theorem witness_FloatingPointTrapSuppressesTheResult : let t : Tile := { tile0 with flights := [flightOf [3]], trapen := 2 }
    (stW (fun _ => t)).At (domW (fun _ => t)) t ∧ t.lt = (stW (fun _ => t)).cur.lt ∧
    firstDue (domW (fun _ => t)).dtick t.flights = some (flightOf [3]) ∧ t.trapen &&& orFlags (flightOf [3]).raised ≠ 0 :=
  ⟨⟨rfl, rfl⟩, by decide⟩

theorem witness_TargetRegistersAreLoaded : start.At dom0 tile0 ∧ tile0.targets.length = 4 ∧
    (let x := tile0.sval (.s 0); x.toNat % 8 = 0 ∧ x.toNat / 2 ^ 61 < 6 ∧ x.toNat / 2 ^ 48 % 2 ^ 13 = 0) ∧
    tile0.stack = [] ∧ tile0.spills = 0 := ⟨⟨rfl, rfl⟩, by decide⟩

theorem witness_TargetRegistersAreLoaded_faults : let t : Tile := { tile0 with s := 0 :: 4 :: tile0.s.drop 2, stack := [8] }
    (stW (fun _ => t)).At (domW (fun _ => t)) t ∧ t.targets.length = 4 ∧ ¬(t.sval (.s 1)).toNat % 8 = 0 ∧ t.stack = 8 :: [] :=
  ⟨⟨rfl, rfl⟩, by decide⟩

/-- A tile whose target 0 is ready, whose stack holds n entries and awaits k more. -/
def leaper (n : Nat) (k : Nat := 0) (t : Tile) : Tile := { t with
  targets := ⟨0x40, 0, false, true⟩ :: t.targets.tail
  stack := List.replicate n 0x80
  spills := k
  refill := k }

theorem witness_LeapDecides : start.At dom0 tile0 ∧ ¬((tile0.preds.getD 0 ⟨false, false⟩).value ≠ false) ∧
    (tile0.preds.getD 0 ⟨false, false⟩).value ≠ true ∧ ¬(tile0.targets.getD 0 ⟨0, 0, false, false⟩).loaded = true :=
  ⟨⟨rfl, rfl⟩, by decide⟩

theorem witness_LeapDecides_ready : let t := leaper 7 0 tile0
    (stW (leaper 7)).At (domW (leaper 7)) t ∧ (t.preds.getD 0 ⟨false, false⟩).value ≠ true ∧
    (t.targets.getD 0 ⟨0, 0, false, false⟩).loaded = true ∧ (t.targets.getD 0 ⟨0, 0, false, false⟩).ready ≤ dom0.dtick ∧
    ¬8 ≤ t.stack.length + t.refill := ⟨⟨rfl, rfl⟩, by decide⟩

theorem witness_LeapDecides_full : let t := leaper 8 0 tile0
    (stW (leaper 8)).At (domW (leaper 8)) t ∧ (t.preds.getD 0 ⟨false, false⟩).value ≠ true ∧
    (t.targets.getD 0 ⟨0, 0, false, false⟩).loaded = true ∧ (t.targets.getD 0 ⟨0, 0, false, false⟩).ready ≤ dom0.dtick ∧
    8 ≤ t.stack.length + t.refill ∧ ¬t.spills - t.refill < field dom0.pkt 52 4 / (8 * dom0.tiles.length) :=
  ⟨⟨rfl, rfl⟩, by decide⟩

/-- The packet's spill area: 32 bytes at address 0x2000, one entry for each of four tiles. -/
def spilling (d : Domain) : Domain := { d with pkt := d.pkt.take 52 ++ [32, 0, 0, 0, 0, 0x20] ++ d.pkt.drop 58 }

/-- Seven entries on chip and one on its way back: the call takes that entry's place in the share. -/
theorem witness_LeapDecides_awaiting : let t := leaper 7 1 tile0
    let d := domW (leaper 7 1) spilling
    (stW (leaper 7 1) spilling).At d t ∧ (t.preds.getD 0 ⟨false, false⟩).value ≠ true ∧
    (t.targets.getD 0 ⟨0, 0, false, false⟩).loaded = true ∧ (t.targets.getD 0 ⟨0, 0, false, false⟩).ready ≤ d.dtick ∧
    8 ≤ t.stack.length + t.refill ∧ t.spills - t.refill < field d.pkt 52 4 / (8 * d.tiles.length) ∧ 0 < t.refill :=
  ⟨⟨rfl, rfl⟩, by decide⟩

theorem witness_LeaplSpillsTheOldestEntry : let t := leaper 8 0 tile0
    let d := domW (leaper 8) spilling
    let s := stW (leaper 8) spilling paged
    let q : Place := ⟨0x2000, ⟨0, 0, false⟩, true, true, false, some 0x1000⟩
    s.At d t ∧ s.memOk ∧ (t.pred 0).value ≠ true ∧ (t.target 0).loaded = true ∧ (t.target 0).ready ≤ d.dtick ∧
    t.stack.length = 8 ∧ t.refill = 0 ∧ t.spills < field d.pkt 52 4 / (8 * d.tiles.length) ∧
    resolveFor s d t true (BitVec.ofNat 64 (field d.pkt 56 8 + t.lt * 8 * (field d.pkt 52 4 / (8 * d.tiles.length)) +
      8 * t.spills)) = .ok q ∧ ∀ l, q.leafLoc = some l → l < q.loc ∨ q.loc + 8 ≤ l :=
  ⟨⟨rfl, rfl⟩, (by decide : Memory.wf pageBytes = true), by decide, by decide, by decide, by decide, by decide, by decide,
    by rfl, by intro l h; cases h; decide⟩

/-- A user-mode task, in no lease. -/
def strict (d : Domain) : Domain := { d with pkt := d.pkt.set 3 0 }
/-- The page table, its page discarded. -/
def discarding (s : State) : State := { s with mem := [(0, 0x01), (1, 0x06), (2, 0x10), (0x1000, 0x0F), (0x1001, 0x05)] }

theorem witness_LeaplSpillsTheOldestEntry_lost : let t := leaper 8 0 tile0
    let d := domW (leaper 8) spilling
    let q : Place := ⟨0x2000, ⟨0, 0, false⟩, true, true, true, some 0x1000⟩
    d.shareSlot t.lt t.spills = 0x2000 ∧ resolveFor (stW (leaper 8) spilling discarding) d t true 0x2000 = .ok q ∧
    (∃ w, resolveFor start d t true 0x2000 = .error w) ∧ d.relaxed = true ∧
    (∃ w, resolveFor start (strict d) t true 0x2000 = .error w) ∧ (strict d).relaxed = false :=
  ⟨by decide, by rfl, ⟨_, by rfl⟩, by decide, ⟨_, by rfl⟩, by decide⟩

def recOf (id : Nat) (e : Engine) (b : RecordBits) : Rec where
  id := id
  eng := e
  tick := 0
  bits := b
  lay1 := 0
  lay2 := 0
  guard := none
  resolved := some 0
  stage := .queued
  progress := 0
  flags := 0
  fault := none
  told := false
  ack := none
  reads := []
  writes := []
  coll := 0
  ev := id

theorem witness_FillersHaltAndTrap :
    let t : Tile := { tile0 with recs := [{ (recOf 0 .me 0) with guard := some (1, false), resolved := none }, recOf 1 .me 0] }
    (stW (fun _ => t)).At (domW (fun _ => t)) t ∧ t.recs.Pairwise (fun x y => x.id ≠ y.id) := ⟨⟨rfl, rfl⟩, by decide⟩

def ballotOf (lt : Nat) (g : Nat) : Ballot := ⟨lt, 0, g, .any, 1, 2, false, 0⟩

theorem witness_VotesReduceOverTheGroup : let d := { dom0 with ballots := [0, 1, 2, 3].map (fun k => ballotOf k 0) }
    let s : State := { start with domains := [d] }
    s.dom? s.cur.dom = some d ∧ d.ballots = ballotOf 0 0 :: [1, 2, 3].map (fun k => ballotOf k 0) ∧
    ∀ m ∈ d.tiles.map (fun t => t.lt), ∃ x, d.ballotOf (ballotOf 0 0) m = some x :=
  ⟨rfl, by decide, fun m h => by
    have h : m ∈ [0, 1, 2, 3] := h
    simp at h
    rcases h with rfl | rfl | rfl | rfl <;> exact ⟨_, rfl⟩⟩

theorem witness_VotesReduceOverTheGroup_missing : let d := { dom0 with ballots := [ballotOf 0 256] }
    let s : State := { start with domains := [d] }
    s.dom? s.cur.dom = some d ∧ d.ballots = ballotOf 0 256 :: [] ∧ ¬(ballotOf 0 256).group ≤ 255 ∧ d.tiles ≠ [] :=
  ⟨rfl, by decide⟩

theorem witness_AgreedDecisionsAreCompared : let d := { dom0 with choices := [0, 1, 2, 3].map (fun k => ⟨k, 0, 0x40, 0⟩) }
    let s : State := { start with domains := [d] }
    s.dom? s.cur.dom = some d ∧ d.choices = ⟨0, 0, 0x40, 0⟩ :: [1, 2, 3].map (fun k => ⟨k, 0, 0x40, 0⟩) ∧
    ∀ t ∈ d.tiles, ∃ x ∈ d.choices, x.tick = 0 ∧ x.lt = t.lt ∧ x.cont = 0x40 := ⟨rfl, by decide⟩

theorem witness_AgreedDecisionsAreCompared_divergence : let d := { dom0 with choices := [⟨0, 0, 0x40, 0⟩, ⟨1, 0, 0x48, 0⟩] }
    let s : State := { start with domains := [d] }
    s.dom? s.cur.dom = some d ∧ ¬∀ t ∈ d.tiles, ∃ x ∈ d.choices, x.tick = 0 ∧ x.lt = t.lt ∧ x.cont = 0x40 := ⟨rfl, by decide⟩

def signal (k n : Nat) (arrived applied : Bool) : SemOp := ⟨k, 0, .semsig, .add (BitVec.ofNat 16 n), arrived, applied, k⟩

theorem witness_SemaphoreSequenceAndSatisfyingPoint :
    [signal 1 2 true true, signal 3 2 true false].Pairwise (fun x y => semBefore y x = false) ∧ 0 < 3 ∧
    satPoint [signal 1 2 true true, signal 3 2 true false] 5 0 3 = some 2 := by decide

theorem witness_SemaphoreSignalsAndWaits :
    let t : Tile := { tile0 with sems := [signal 1 0xFFFF true true, signal 3 2 true false] :: tile0.sems.tail }
    (stW (fun _ => t)).At (domW (fun _ => t)) t ∧ t.lt = start.cur.lt ∧ t.sems.length = 16 ∧ start.cur.item < 16 ∧
    t.sems.getD start.cur.item [] = [signal 1 0xFFFF true true] ++ signal 3 2 true false :: [] ∧ (3#16) ≠ 0 :=
  ⟨⟨rfl, rfl⟩, by decide⟩

theorem witness_MarkersRendezvousAndFences :
    let t : Tile := { tile0 with engines := ⟨[.marker 7 0], none, none⟩ :: tile0.engines.tail }
    (stW (fun _ => t)).At (domW (fun _ => t)) t ∧ t.lt = start.cur.lt ∧ t.engines.length = 4 ∧
    (t.engines.getD (engIdx start.cur.eng) ⟨[], none, none⟩).entries = .marker 7 0 :: [] := ⟨⟨rfl, rfl⟩, by decide⟩

/-- The record store of tile 0 with a record of a kind in slot 0 whose other bytes are zero. -/
def stored (k : Byte) (s : State) : State := { s with mem := [(locRec 0 0 false 0, k)] }

theorem witness_PushesPlaceTheirRecord : let s := stored 0x12 start
    s.At dom0 tile0 ∧ tile0.lt = s.cur.lt ∧ tile0.engines.length = 4 ∧ (∀ x ∈ tile0.recs, x.id ≠ dom0.nextId) ∧
    dom0.relaxed = true ∧ (tile0.pred 1).written = false ∧
    ∃ v, checkRecord s dom0 tile0 .me (s.slotBits tile0 0) false = .ok v ∧ checkSpans s dom0 tile0 v.spans = none :=
  ⟨⟨rfl, rfl⟩, by decide, by decide, by decide, by decide, by decide, _, rfl, rfl⟩

theorem witness_PushesPlaceTheirRecord_guard :
    let t : Tile := { tile0 with preds := [⟨true, true⟩] }
    (t.pred 0).written = true ∧ (t.pred 0).value ≠ false ∧ ¬(t.pred 0).value ≠ true := by decide

/-- A user-mode tile beside an open record of the CE that writes the accumulators. -/
def busyDom (d : Domain) : Domain := strict { d with
  evs := [{ (newEv dom0 tile0 .sq (.record .ce)) with
    id := 0, writes := [(locAcc 0 0 false 0, 2 ^ 17)], pushWrites := [(locAcc 0 0 false 0, 2 ^ 17)] }]
  nextId := 9 }
def busyTile (t : Tile) : Tile := { t with recs := [recOf 0 .ce 0x31] }

theorem witness_PushesPlaceTheirRecord_quiet : let s := stored 0x12 (stW id strict)
    let d := strict dom0
    s.At d tile0 ∧ d.relaxed = false ∧ d.sharesPushed = [] ∧ ∀ x ∈ d.tiles, x.recs = [] := ⟨⟨rfl, rfl⟩, by decide⟩

theorem witness_PushesPlaceTheirRecord_races : let s := stored 0x12 (stW busyTile busyDom)
    let d := domW busyTile busyDom
    let t := busyTile tile0
    s.At d t ∧ (∀ x ∈ t.recs, x.id ≠ d.nextId) ∧
    ∃ v, checkRecord s d t .me (s.slotBits t 0) false = .ok v ∧ checkSpans s d t v.spans = none ∧
      (let rec0 := newRec s d t .me 0 false false v
       let es := recordEvs s d t .me rec0 v
       (d.withRec t.lt rec0 es).recordRaces t.lt es d.sharesPushed = true) :=
  ⟨⟨rfl, rfl⟩, by decide, _, rfl, rfl, by decide⟩

theorem witness_PushChecksRaiseInOrder : let s := stored 0x31 start
    s.At dom0 tile0 ∧ kindEngine ((s.slotBits tile0 0).toNat % 256) ≠ some Engine.me ∧
    hasPatch (((stored 0x12 start).slotBits tile0 0).toNat % 256) = false ∧
    ∃ v, checkRecord s dom0 tile0 .ce (s.slotBits tile0 0) false = .ok v ∧
      ∃ x ∈ v.spans, ∃ w, spanWindow x = some w ∧ tile0.bank? w = none :=
  ⟨⟨rfl, rfl⟩, by decide, by decide, _, rfl, _, List.Mem.head _, _, rfl, rfl⟩

/-- Tile 0 with bank 3 attached as window 2. -/
def holder (t : Tile) : Tile := { t with wins := [.empty, .empty, .att 3, .empty, .empty, .empty, .empty, .empty] }

theorem witness_GiveMovesTheWindow : let t := holder tile0
    let d := domW holder
    (stW holder).At d t ∧ t.lt = start.cur.lt ∧ t.wins.getD 2 .empty = .att 3 ∧ d.tile? (0 / 4 * 4 + 1) = d.tiles[1]? ∧
    (d.tiles[1]?).isSome = true ∧ t.wins.length = 8 ∧ (∀ u ∈ d.tiles, u.wins.length = 8) ∧ 1 ≠ t.lt ∧
    (∀ r ∈ t.recs, d.dtick < r.tick + d.lead → namesBank t.cluster 3 r = false) ∧ d.winBusy 1 0 = false :=
  ⟨⟨rfl, rfl⟩, by decide⟩

theorem witness_GiveMovesTheWindow_attach :
    let d : Domain := { dom0 with attaches := [⟨32, 0, 2, 1, 7, 3, 0, [], 0⟩] }
    let s : State := { start with domains := [d] }
    s.dom? s.cur.dom = some d ∧ d.attaches = ⟨32, 0, 2, 1, 7, 3, 0, [], 0⟩ :: [] ∧ d.tile? 1 = d.tiles[1]? ∧
    (d.tiles[1]?).isSome = true ∧ ∀ u ∈ d.tiles, 7 < u.wins.length := ⟨rfl, by decide⟩

/-- A record that reads bank 3 of cluster 0. -/
def reader : Rec := { (recOf 5 .ce 0x31) with reads := [(locBank 0 3 0, 4)] }

theorem witness_GiveChecksRaise : let t := holder tile0
    (stW holder).At (domW holder) t ∧ t.wins.getD 2 .empty = .att 3 ∧ (∀ b, t.wins.getD 0 .empty ≠ .att b) ∧
    (t.lt / 4 * 4 + 0 = t.lt ∧ (2#3) = 2#3) :=
  ⟨⟨rfl, rfl⟩, by decide, (fun _ h => nomatch (show Win.empty = .att _ from h)), by decide⟩

theorem witness_GiveChecksRaise_late : let g (t : Tile) : Tile := { (holder t) with recs := [reader] }
    let t := g tile0
    let d := domW g
    (stW g).At d t ∧ t.wins.getD 2 .empty = .att 3 ∧ ¬(t.lt / 4 * 4 + 1 = t.lt ∧ (0#3) = 2#3) ∧
    ∃ r ∈ t.recs, d.dtick < r.tick + d.lead ∧ namesBank t.cluster 3 r = true := ⟨⟨rfl, rfl⟩, by decide⟩

theorem witness_GiveChecksRaise_busy : let f (d : Domain) : Domain := { d with
      tiles := d.tiles.modify 1 (fun t => { t with wins := List.replicate 8 (.att 4) }) }
    let t := holder tile0
    let d := domW holder f
    (stW holder f).At d t ∧ t.wins.getD 2 .empty = .att 3 ∧ ¬(t.lt / 4 * 4 + 1 = t.lt ∧ (0#3) = 2#3) ∧
    (¬∃ r ∈ t.recs, d.dtick < r.tick + d.lead ∧ namesBank t.cluster 3 r = true) ∧ d.winBusy 1 0 = true := ⟨⟨rfl, rfl⟩, by decide⟩

theorem witness_BfmtSetsTheTag : let t := holder tile0
    let d := domW holder
    (stW holder).At d t ∧ t.wins.getD 2 .empty = .att 3 ∧ (∀ k, t.wins.getD 0 .empty ≠ .att k) ∧ t.recs = [] :=
  ⟨⟨rfl, rfl⟩, by decide, (fun _ h => nomatch (show Win.empty = .att _ from h)), by decide⟩

theorem witness_BfmtSetsTheTag_live : let g (t : Tile) : Tile := { (holder t) with recs := [reader] }
    let t := g tile0
    let d := domW g strict
    (stW g strict).At d t ∧ t.wins.getD 2 .empty = .att 3 ∧ d.relaxed = false ∧
    ∃ r ∈ t.recs, r.live = true ∧ namesBank t.cluster 3 r = true := ⟨⟨rfl, rfl⟩, by decide⟩

/-- A retired record that wrote the tag, not yet acknowledged. -/
theorem witness_BfmtSetsTheTag_open : let g (t : Tile) : Tile := { (holder t) with
      recs := [{ reader with writes := [bankTag 0 3], stage := .complete }] }
    let t := g tile0
    let d := domW g strict
    (stW g strict).At d t ∧ t.wins.getD 2 .empty = .att 3 ∧ ∃ r ∈ t.recs, r.live = false ∧
    openFor d.vg d.dtick true r = true ∧ rangesMeet (r.reads ++ r.writes) [bankTag t.cluster 3] = true := ⟨⟨rfl, rfl⟩, by decide⟩

/-! A supervisor domain on die 0, alone or beside a halted user domain. -/

def svDom : Domain := placedDomain true .sq []
def svTile : Tile := svDom.tiles.head (by decide)
def svStart (h : State → State := id) : State := h { start with domains := [svDom] }
/-- The user domain, halted after a floating-point trap. -/
def haltedDom (f : Domain → Domain := id) : Domain :=
  f { dom0 with seq := 2, phase := .halted, causes := [⟨0, 0, 1, 2, 0⟩] }
def svBeside (f : Domain → Domain := id) : State := { start with domains := [svDom, haltedDom f] }

/-- Register s0 names cluster 0, a cluster of the supervisor's die; s1 holds 48, one of die 1. -/
theorem witness_SupervisorBankWords : let s := svStart
    s.At svDom svTile ∧ (svTile.sval (.s 0)).toNat < 192 ∧ (svTile.sval (.s 0)).toNat / 48 = dieOf svTile.cluster ∧
    s.tileIdle 0 1 = true ∧ (s.cluster 0).banks.getD 15 .used = .free ∧ s.physWin 0 1 7 = .empty ∧
    s.contextOn 0 1 (s.activeSlot 0 1) = none := ⟨⟨rfl, rfl⟩, by decide⟩

theorem witness_SupervisorBankWords_context : let s := svBeside
    s.At svDom svTile ∧ s.tileIdle 0 1 = true ∧ (s.cluster 0).banks.getD 0 .used = .free ∧ s.physWin 0 1 0 = .empty ∧
    ∃ u, s.contextOn 0 1 (s.activeSlot 0 1) = some (haltedDom, u) ∧ s.dom? (haltedDom).seq = some haltedDom ∧
      (haltedDom).tile? u.lt = some u := ⟨⟨rfl, rfl⟩, by decide, by decide, by decide, _, rfl, rfl, rfl⟩

theorem witness_SupervisorBankWords_events :
    let s (w : Win) : State := { svStart (fun s => s.updCluster 0 (fun c => { c with loose := [(0, 0, w)] })) with
      cur := ⟨1, 0, .sq, .me, 16, 0, 0⟩ }
    (s (.pend 3)).winAt (s (.pend 3)).cur.cluster (s (.pend 3)).cur.lt (s (.pend 3)).cur.item = .pend 3 ∧
    (s (.att 3)).winAt 0 0 16 = .att 3 ∧ (s (.att 3)).physWin 0 0 0 = .att 3 := by decide

theorem witness_SupervisorFaults : let t : Tile := { svTile with s := 0 :: 48 :: svTile.s.drop 2 }
    let s : State := { start with domains := [{ svDom with tiles := [t] }] }
    s.At { svDom with tiles := [t] } t ∧ ¬((t.sval (.s 1)).toNat < 192 ∧ (t.sval (.s 1)).toNat / 48 = dieOf t.cluster) ∧
    (t.sval (.s 0)).toNat < 192 ∧ (t.sval (.s 0)).toNat / 48 = dieOf t.cluster ∧ s.tileIdle 0 0 = true ∧
    (s.cluster 0).qack = false := ⟨⟨rfl, rfl⟩, by decide⟩

theorem witness_SupervisorFaults_running : let s : State := { start with domains := [svDom, { dom0 with seq := 2 }] }
    s.At svDom svTile ∧ ¬s.tileIdle 0 0 = true := ⟨⟨rfl, rfl⟩, by decide⟩

theorem witness_SupervisorFaults_windows :
    let s := svStart (fun s => s.updCluster 0 (fun c => { c with loose := [(0, 3, .att 0)], banks := .used :: c.banks.tail }))
    s.At svDom svTile ∧ s.tileIdle 0 0 = true ∧ (s.cluster 0).banks.getD 0 .used ≠ .free ∧ s.physWin 0 0 3 ≠ .empty ∧
    ∀ k, s.physWin 0 0 1 ≠ .att k :=
  ⟨⟨rfl, rfl⟩, by decide, by decide, by decide, fun _ h => nomatch (show Win.empty = .att _ from h)⟩

/-- Cluster 8 hosts the contexts of cluster 0, which is fused off. -/
theorem witness_SupervisorFaults_hosting : let s : State := { svBeside with fused := [0] }
    s.At svDom svTile ∧ s.hosting 8 = true ∧ 8 / 48 = dieOf svTile.cluster := ⟨⟨rfl, rfl⟩, by decide⟩

theorem witness_SealAndSlotTakeEffect : let s := svStart (fun s => s.updCluster 0 (fun c => { c with qack := true }))
    s.At svDom svTile ∧ (s.cluster 0).qack = true ∧
    (∀ e ∈ s.domains, s.onCluster e 0 = true → (e.phase == .halted) = false) ∧ s.tileIdle 0 3 = true ∧ s.hosting 0 = false ∧
    (s.cluster 0).activeB.getD 3 false = false ∧ (s.cluster 0).activeB.length = 4 ∧
    s.contextOn 0 3 (s.activeSlot 0 3) = none := ⟨⟨rfl, rfl⟩, by decide⟩

theorem witness_ReturnFromException : let s := svBeside
    let e := haltedDom
    s.At svDom svTile ∧ s.frameOf (dieOf svTile.cluster) = some (e, e.tiles.head (by decide)) ∧ e.fatal = false ∧
    s.contextsHeld e = true ∧ s.quiesced e = false ∧ (¬∃ x ∈ e.tiles, ∃ f ∈ x.flights, f.owed = true) ∧
    s.dom? e.seq = some e ∧ ∀ x ∈ e.tiles, x.badBlock = false :=
  ⟨⟨rfl, rfl⟩, rfl, by decide, by decide, by decide, by decide, rfl, by decide⟩

theorem witness_ReturnFromException_faults : let fatal (d : Domain) : Domain := { d with fatal := true }
    svStart.frameOf (dieOf svTile.cluster) = none ∧ (svBeside fatal).At svDom svTile ∧
    (svBeside fatal).frameOf (dieOf svTile.cluster) = some (haltedDom fatal, (haltedDom fatal).tiles.head (by decide)) ∧
    (haltedDom fatal).fatal = true := ⟨rfl, ⟨rfl, rfl⟩, rfl, by decide⟩

theorem witness_ReturnFromException_owed :
    let owing (d : Domain) : Domain := { d with tiles := d.tiles.modify 0 (fun t => { t with
      flights := [{ (scalarFlight t 0 600 .ls (.sq none) 0) with owed := true, cause := 7 }] }) }
    let e := haltedDom owing
    (svBeside owing).At svDom svTile ∧ (svBeside owing).frameOf (dieOf svTile.cluster) = some (e, e.tiles.head (by decide)) ∧
    e.fatal = false ∧ (svBeside owing).contextsHeld e = true ∧ (svBeside owing).quiesced e = false ∧
    ∃ x ∈ e.tiles, ∃ f ∈ x.flights, f.owed = true := ⟨⟨rfl, rfl⟩, rfl, by decide⟩

theorem witness_CsrReadsAndWrites : start.At dom0 tile0 ∧ tile0.lt = start.cur.lt ∧ tile0.pace.length = 3 ∧ tile0.sems.length = 16 ∧
    csrRaces dom0 tile0 0x025 = none ∧ csrRaces dom0 tile0 0x07B = none := ⟨⟨rfl, rfl⟩, by decide⟩


theorem witness_CsrReads_race : let f (d : Domain) : Domain := strict { d with evs := [{ (newEv dom0 tile0 .sq (.mark .me 1)) with id := 0 }] }
    let d := domW id f
    (stW id f).At d tile0 ∧ csrRaces d tile0 0x025 = some 6 ∧ d.markersWaited tile0.lt = false ∧ d.relaxed = false :=
  ⟨⟨rfl, rfl⟩, by decide⟩

theorem witness_CsrReads_races : let g (t : Tile) : Tile := { (holder t) with
      recs := [{ (recOf 5 .ce (2 ^ 36 + 3 * 2 ^ 32)) with writes := [bankTag 0 3] }] }
    let t := g tile0
    let d := domW g strict
    (stW g strict).At d t ∧ d.relaxed = false ∧ csrRaces d t 0x02A = some 2 ∧ csrRaces d t 0x013 = some 6 ∧ t.bank? 2 = some 3 ∧
    ∃ r ∈ t.recs, openFor d.vg d.dtick true r = true ∧ rangesMeet r.writes [bankTag t.cluster 3] = true ∧ r.sen = true ∧ r.ssem = 3 :=
  ⟨⟨rfl, rfl⟩, by decide⟩

theorem witness_CsrReads_svhalt : let s := svStart (fun s => s.updDie 0 (fun q => { q with svhalt := [5, 6] }))
    s.At svDom svTile ∧ svTile.lt = s.cur.lt ∧ s.dies.length = 4 ∧ dieOf svTile.cluster < 4 ∧
    (s.die (dieOf svTile.cluster)).svhalt = 5 :: [6] := ⟨⟨rfl, rfl⟩, by decide⟩

theorem witness_SamplesAreCounted : let t : Tile := { tile0 with sampctl := 0x100000000 }
    (stW (fun _ => t)).At (domW (fun _ => t)) t ∧ t.lt = start.cur.lt ∧ t.sampctl.getLsbD 32 = true ∧
    tile0.sampctl.getLsbD 32 = false := ⟨⟨rfl, rfl⟩, by decide⟩

/-! ## Accesses -/

/-- Tile 0 with bank 0 attached as window 7, and registers s1 to s4 that address it and its borders. -/
def accessor (t : Tile) : Tile := { t with
  wins := List.replicate 7 .empty ++ [.att 0]
  s := [0, 0x3FFF80, 0x400000, 0x3FFF81, 0, 0x8000000000000000, 0xA000000000000000] ++ t.s.drop 7 }

/-- A tile with nothing open meets the footprint conditions of bank and global accesses. -/
theorem witness_quiet : let t := accessor tile0
    let d := domW accessor strict
    let s := stW accessor strict
    Claims.Quiet s d t [(locBank 0 0 0, 128), bankTag 0 0] ∧ Claims.GlobalQuiet s d t true 0 128 ∧
    Claims.Quiet start dom0 t [(locBank 0 0 0, 128)] ∧ Claims.GlobalQuiet start dom0 t false 0 8 :=
  ⟨by unfold Claims.Quiet; decide, by unfold Claims.GlobalQuiet Claims.Quiet; decide, by unfold Claims.Quiet; decide,
    by unfold Claims.GlobalQuiet Claims.Quiet; decide⟩

theorem witness_BankLoadsAndStores : let t := accessor tile0
    let s := stW accessor
    s.At (domW accessor) t ∧ s.memOk ∧ (t.vval (.v 0)).length = 32 ∧ Claims.bankLegal t (t.sval (.s 1) + BitVec.ofNat 64 (128 * 0)) 128 0 ∧
    Claims.bankLegal t (t.sval (.s 1) + BitVec.ofNat 64 (4 * 31)) 4 0 ∧ Claims.bankLegal t (t.sval (.s 1) + BitVec.ofNat 64 (8 * 15)) 8 0 ∧
    s.sound [(Claims.bankPlace t (t.sval (.s 1)) 0, 128)] = true ∧ s.mergeSound (Claims.bankPlace t (t.sval (.s 1)) 0, 128) = true :=
  ⟨⟨rfl, rfl⟩, (rfl : Memory.wf [] = true), by decide, by unfold Claims.bankLegal; decide, by unfold Claims.bankLegal; decide,
    by unfold Claims.bankLegal; decide, by decide, by decide⟩

theorem witness_AccessFaults_bank : let t := accessor tile0
    (stW accessor).At (domW accessor) t ∧ ¬(t.sval (.s 2)).toNat < 2 ^ 22 ∧ (t.sval (.s 3)).toNat < 2 ^ 22 ∧
    ¬(t.sval (.s 3)).toNat % 4 = 0 ∧ (t.sval (.s 0)).toNat < 2 ^ 22 ∧ (t.sval (.s 0)).toNat % 128 = 0 ∧
    ∀ k, t.wins.getD ((t.sval (.s 0)).toNat / 2 ^ 19) .empty ≠ .att k :=
  ⟨⟨rfl, rfl⟩, by decide, by decide, by decide, by decide, by decide, fun _ h => nomatch (show Win.empty = .att _ from h)⟩

theorem witness_AccessFaults_global : let t := accessor tile0
    let d := domW accessor strict
    (stW accessor strict).At d t ∧ ¬(t.sval (.s 5) + BitVec.ofNat 64 0).toNat / 2 ^ 48 % 2 ^ 13 ≠ 0 ∧ ¬(0xC000000000000000#64).toNat / 2 ^ 61 < 6 ∧
    (t.sval (.s 3)).toNat / 2 ^ 61 < 6 ∧ (t.sval (.s 3)).toNat % 8 ≠ 0 ∧ (t.sval (.s 1)).toNat % 128 = 0 ∧
    leaseOk (stW accessor strict) d true (t.sval (.s 1)) 128 = false ∧
    leaseOk (stW accessor strict) d false (t.sval (.s 1)) 8 = false := ⟨⟨rfl, rfl⟩, by decide⟩

/-- Bank 0 of cluster 0 with a tag. -/
def tagged (f : Nat) (s : State) : State := s.updCluster 0 (fun c => { c with tags := ⟨BitVec.ofNat 4 f, 0, false⟩ :: c.tags.tail })

theorem witness_TaggedAccessesConvert : let t := accessor tile0
    let s (f : Nat) := stW accessor id (tagged f)
    (s 1).At (domW accessor) t ∧ (s 1).memOk ∧ t.lt = (s 1).cur.lt ∧ Claims.Tagged (((s 1).cluster 0).tags.getD 0 ⟨0, 0, false⟩) 1 ∧
    Claims.Tagged (((s 10).cluster 0).tags.getD 0 ⟨0, 0, false⟩) 10 ∧ (t.sval (.s 1)).toNat < 2 ^ 22 ∧
    t.wins.getD ((t.sval (.s 1)).toNat / 2 ^ 19) .empty = .att 0 ∧
    (t.sval (.s 1) + BitVec.ofNat 64 (32 * 3)).toNat / 2 ^ 19 = (t.sval (.s 1)).toNat / 2 ^ 19 ∧
    (t.sval (.s 1) + BitVec.ofNat 64 (32 * 3)).toNat % 32 = 0 ∧
    ((t.vval (.v 0)).map (Claims.toElement 1)).length = 32 ∧
    t.trapen &&& orFlags (((t.vval (.v 0)).map (Claims.toElement 1)).map (fun e => e.2)) = 0 :=
  ⟨⟨rfl, rfl⟩, (rfl : Memory.wf [] = true), by decide, by unfold Claims.Tagged; decide, by unfold Claims.Tagged; decide, by decide⟩

theorem witness_GatherAndScatter : let t := accessor tile0
    let s := stW accessor
    s.At (domW accessor) t ∧ s.memOk ∧ s.flawed = [] ∧ Claims.Tagged ((s.cluster 0).tags.getD 0 ⟨0, 0, false⟩) 0 ∧
    (t.sval (.s 1)).toNat < 2 ^ 22 ∧ t.wins.getD ((t.sval (.s 1)).toNat / 2 ^ 19) .empty = .att 0 ∧
    (t.sval (.s 1)).toNat % 2 ^ 19 % 4 = 0 ∧ (t.vreg 1).length = 32 ∧ (t.vval (.v 0)).length = 32 :=
  ⟨⟨rfl, rfl⟩, (rfl : Memory.wf [] = true), by decide, by unfold Claims.Tagged; decide, by decide⟩

theorem witness_BankAtomics : let t := accessor tile0
    let s := stW accessor
    s.At (domW accessor) t ∧ s.memOk ∧ Claims.bankLegal t (t.sval (.s 1)) 8 0 ∧ Claims.bankLegal t (t.sval (.s 1)) 4 0 ∧
    s.sound [(Claims.bankPlace t (t.sval (.s 1)) 0, 8)] = true ∧ Claims.atomic .cas 0 5 0 = some 5 :=
  ⟨⟨rfl, rfl⟩, (rfl : Memory.wf [] = true), by unfold Claims.bankLegal; decide, by unfold Claims.bankLegal; decide, by decide, by decide⟩

/-! ## Global accesses -/

theorem witness_GlobalRequestsAreSent : let t := accessor tile0
    let s := stW accessor id paged
    let d := domW accessor
    let p : Place := ⟨0, ⟨0, 0, false⟩, true, true, false, some 0x1000⟩
    s.At d t ∧ t.lt = s.cur.lt ∧ Claims.globalGood s d (t.sval (.s 5) + BitVec.ofNat 64 (128 * 31)) 128 false ∧
    Claims.globalGood s d (t.sval (.s 6)) 8 true ∧ Claims.globalGood s d (t.sval (.s 0)) 8 true ∧ (t.sval (.s 0)).toNat / 2 ^ 61 ≠ 4 ∧
    resolveFor s d t false (t.sval (.s 0)) = .ok p ∧ (t.vval (.v 0)).length = 32 ∧ ¬d.sup = true :=
  ⟨⟨rfl, rfl⟩, by decide, by unfold Claims.globalGood; decide, by unfold Claims.globalGood; decide,
    by unfold Claims.globalGood; decide, by decide, rfl, by decide, by decide⟩

/-- A page of 4 GiB with the tag FP32, for LDG.D. -/
theorem witness_GlobalRequestsAreSent_tagged : let t := accessor tile0
    let s := stW accessor id (fun s => { s with mem := [(0, 0x01), (1, 0x06), (2, 0x10), (0x1000, 0x07), (0x1001, 0x0D)] })
    let d := domW accessor
    let p (n : Nat) : Place := ⟨n, ⟨1, 0, false⟩, true, true, false, some 0x1000⟩
    s.At d t ∧ Claims.globalGood s d (t.sval (.s 0)) 1 false ∧ resolveFor s d t false (t.sval (.s 0)) = .ok (p 0) ∧
    Claims.Tagged (p 0).tag 1 ∧ Claims.globalGood s d (t.sval (.s 0) + BitVec.ofNat 64 (128 * 31)) 128 false ∧
    resolveFor s d t false (t.sval (.s 0) + BitVec.ofNat 64 (128 * 31)) = .ok (p (128 * 31)) :=
  ⟨⟨rfl, rfl⟩, by unfold Claims.globalGood; decide, rfl, by unfold Claims.Tagged; decide, by unfold Claims.globalGood; decide, rfl⟩

/-- Register s1 of a supervisor tile holds the launch port of die 3, s2 its last 8 bytes. -/
theorem witness_GlobalRequestsAreSent_port :
    let t : Tile := { svTile with s := [0, 0x6000FFFFFFFFF000, 0x6000FFFFFFFFF078] ++ svTile.s.drop 3 }
    let d : Domain := { svDom with tiles := [t] }
    ({ start with domains := [d] } : State).At d t ∧ t.lt = start.cur.lt ∧ d.sup = true ∧ (t.sval (.s 1)).toNat / 2 ^ 61 < 4 ∧
    (t.sval (.s 1)).toNat / 2 ^ 48 % 2 ^ 13 = 0 ∧ (t.sval (.s 1)).toNat % 2 ^ 48 / 128 = 0x0000FFFFFFFFF000 / 128 ∧
    (t.sval (.s 1)).toNat % 128 = 0 ∧ (t.sval (.s 2)).toNat % 2 ^ 48 / 128 = 0x0000FFFFFFFFF000 / 128 ∧
    (t.sval (.s 2)).toNat % 8 = 0 ∧ (t.vval (.v 0)).length = 32 := ⟨⟨rfl, rfl⟩, by decide⟩

def request (k : GKind) (va : W64) (st : GStage) : GOp := ⟨0, k, 0, 0, va, 8, List.replicate 8 1, .add, 1, 0, st, false, 600, false⟩
def asking (g : GOp) (d : Domain) : Domain := { d with gops := [g] }

theorem witness_GlobalRequestsAreServed : let g := request .store 0x2000 .asked
    let s := stW id (asking g) paged
    let d := domW id (asking g)
    s.dom? s.cur.dom = some d ∧ d.gop? s.cur.item = some g ∧ d.tile? g.lt = some tile0 ∧ s.memOk ∧
    g.va.toNat / 2 ^ 61 < 4 ∧ tlbFind (s.die 0).tlb d.part 0x2000 = none ∧
    walk s 0 d.part 0x2000 d.walkMode = .ok 0x1000 0x507 0 (2 ^ 32) ∧ 0 < s.dies.length ∧ leafW 0x507 = true :=
  ⟨rfl, rfl, rfl, (by decide : Memory.wf pageBytes = true), by decide, by decide, by decide, by decide, by decide⟩

theorem witness_GlobalRequestsAreServed_held : let g := request .load 0x2000 .asked
    let e : TlbEntry := ⟨stationOf 0x2000, 0, 0, 2 ^ 32, 0x1000, 0x507⟩
    let s := stW id (asking g) (fun s => (paged s).updDie 0 (fun q => { q with tlb := [e] }))
    s.dom? s.cur.dom = some (domW id (asking g)) ∧ tlbFind (s.die 0).tlb 0 0x2000 = some e := ⟨rfl, by decide⟩

theorem witness_GlobalRequestsAreServed_walkFails : let g := request .load 0x2000 .walking
    let f (d : Domain) : Domain := asking g (strict d)
    let s := stW id f
    let d := domW id f
    s.dom? s.cur.dom = some d ∧ walk s 0 d.part 0x2000 d.walkMode = .bad 1 0 0 0 ∧ d.relaxed = false := ⟨rfl, by decide, by decide⟩

/-- Peer memory answers a master whose SPEGR mask names its slice (18 R431, R432). -/
theorem witness_GlobalRequestsAreServed_peer : let g := request .store 0xA000000000002000 .asked
    let s := stW id (asking g) (fun s => { s with macl := [(0x100, 0x10001)] })
    let d := domW id (asking g)
    s.dom? s.cur.dom = some d ∧ d.gop? s.cur.item = some g ∧ 4 ≤ g.va.toNat / 2 ^ 61 ∧
    resolveFor s d tile0 true g.va = .ok ⟨locPeer 0x2000, Tag.raw, true, false, false, none⟩ := ⟨rfl, rfl, by decide, rfl⟩

theorem witness_GlobalRequestsAreServed_ready : let g (k : GKind) (x : Bool) := request k 0x2000 (.ready 0x2000 x)
    let s := stW id (asking (g .store false)) paged
    s.dom? s.cur.dom = some (domW id (asking (g .store false))) ∧ s.sound [(0x2000, 8)] = true ∧
    (g .store false).data.length = (g .store false).size ∧ (g .load true).stage = .ready 0x2000 true ∧ dom0.part < s.parts.length ∧
    (g .amo false).size = 8 ∧ Claims.atomic (g .amo false).aop 0 (g .amo false).operand 0 = some 1 := ⟨rfl, by decide⟩

theorem witness_WaitsReadTheirWord : let t := accessor tile0
    let s := stW accessor id paged
    let d := domW accessor
    s.At d t ∧ t.lt = s.cur.lt ∧ s.memOk ∧ Claims.bankLegal t (t.sval (.s 1)) 4 0 ∧
    s.sound [(Claims.bankPlace t (t.sval (.s 1)) 0, 4)] = true ∧ 2 ^ 22 ≤ (t.sval (.s 2)).toNat ∧ (t.sval (.s 3)).toNat < 2 ^ 22 ∧
    (t.sval (.s 3)).toNat % 4 ≠ 0 ∧ (∀ k, t.wins.getD ((t.sval (.s 0)).toNat / 2 ^ 19) .empty ≠ .att k) ∧
    Claims.globalGood s d (t.sval (.s 0)) 8 false ∧
    resolveFor s d t false (t.sval (.s 0)) = .ok ⟨0, ⟨0, 0, false⟩, true, true, false, some 0x1000⟩ ∧ s.sound [(0, 8)] = true :=
  ⟨⟨rfl, rfl⟩, by decide, (by decide : Memory.wf pageBytes = true), by unfold Claims.bankLegal; decide, by decide, by decide, by decide,
    by decide, (fun _ h => nomatch (show Win.empty = .att _ from h)), by unfold Claims.globalGood; decide, rfl, by decide⟩

/-- A discarded page, a page table with no entry, and an address of no space. -/
theorem witness_WaitsReadTheirWord_walk : let t := accessor tile0
    let p : Place := ⟨0, ⟨0, 0, false⟩, true, true, true, some 0x1000⟩
    resolveFor (stW accessor id discarding) (domW accessor) t false (t.sval (.s 0)) = .ok p ∧
    Claims.globalGood (stW accessor) (domW accessor) (t.sval (.s 0)) 8 false ∧ (domW accessor).relaxed = true ∧
    (∃ w, resolveFor (stW accessor) (domW accessor) t false (t.sval (.s 0)) = .error w) ∧
    ¬((0xC000000000000000#64).toNat / 2 ^ 61 < 6 ∧ (0xC000000000000000#64).toNat / 2 ^ 48 % 2 ^ 13 = 0) ∧
    ¬(t.sval (.s 3)).toNat % 8 = 0 ∧ ∀ f ∈ t.flights, f.issue = 0 → f.col ≠ .ls :=
  ⟨rfl, by unfold Claims.globalGood; decide, by decide, ⟨_, rfl⟩, by decide⟩

/-- A user-mode wait in a lease that covers its word, whose page has no translation. -/
theorem witness_WaitsReadTheirWord_leaseWalk : let t := accessor tile0
    let s := stW accessor strict (fun s => { s with leases := [⟨0, 0, .resident, [⟨0, 16, 0xFF, 0xFF⟩], [true], (1, 0), [], 0, 1, none, false⟩] })
    let d := domW accessor strict
    Claims.globalGood s d (t.sval (.s 0)) 8 false ∧ (∃ w, resolveFor s d t false (t.sval (.s 0)) = .error w) ∧ d.relaxed = false :=
  ⟨by unfold Claims.globalGood; decide, ⟨_, rfl⟩, by decide⟩

theorem witness_WaitsReadTheirWord_lease : let t := accessor tile0
    let d := domW accessor strict
    (stW accessor strict).At d t ∧ (t.sval (.s 0)).toNat / 2 ^ 61 < 6 ∧ (t.sval (.s 0)).toNat % 8 = 0 ∧
    leaseOk (stW accessor strict) d false (t.sval (.s 0)) 8 = false := ⟨⟨rfl, rfl⟩, by decide⟩

theorem witness_AccumulatorWordsMove : let g (t : Tile) : Tile := { t with s := [0, 255, 256] ++ t.s.drop 3 }
    let t := g tile0
    let s := stW g
    let loc := locAcc 0 0 false (255 / 64 * 2 ^ 15 + 255 % 64 * 512 + 256)
    s.At (domW g) t ∧ t.lt = s.cur.lt ∧ s.memOk ∧ (t.sval (.s 1)).toNat < 256 ∧ s.sound [(loc, 256)] = true ∧
    s.mergeSound (loc, 256) = true ∧ (t.vval (.v 0)).length = 32 ∧ 256 ≤ (t.sval (.s 2)).toNat :=
  ⟨⟨rfl, rfl⟩, by decide, (rfl : Memory.wf [] = true), by decide⟩

/-! ## Records at their engines -/

/-- Tile 0 with banks 3 and 4 attached and a record at the head of its engine's queue. -/
def running (e : Engine) (r : Rec) (t : Tile) : Tile := { t with
  wins := [.att 3, .att 4] ++ List.replicate 6 .empty
  engines := t.engines.set (engIdx e) ⟨[.record r.id], none, none⟩
  recs := [r] }
def engSt (e : Engine) (r : Rec) (h : State → State := id) : State := { stW (running e r) id h with cur := ⟨1, 0, .sq, e, 0, 0, 0⟩ }
def atHead (e : Engine) (b : RecordBits) (h : State → State := id) (k : Nat) : Prop :=
  Claims.Heads (engSt e (recOf 9 e b) h) (domW (running e (recOf 9 e b))) (running e (recOf 9 e b) tile0) (recOf 9 e b) k

/-- A record whose kind is k stands at the head of its engine's queue, in storage that lists nothing. -/
theorem heads (e : Engine) (b : RecordBits) (h : State → State) (k : Nat) (hk : fieldAt b 0 8 = k)
    (hs : (engSt e (recOf 9 e b) h).dom? (engSt e (recOf 9 e b) h).cur.dom = some (domW (running e (recOf 9 e b))) ∧
      (domW (running e (recOf 9 e b))).tile? (engSt e (recOf 9 e b) h).cur.lt = some (running e (recOf 9 e b) tile0) ∧
      (running e (recOf 9 e b) tile0).current (engSt e (recOf 9 e b) h).cur.eng = some (recOf 9 e b))
    (hE : (recOf 9 e b).eng = (engSt e (recOf 9 e b) h).cur.eng) (hm : (engSt e (recOf 9 e b) h).mem = [] ∧ (engSt e (recOf 9 e b) h).cur.lt = 0) : atHead e b h k :=
  ⟨⟨hs.1, hs.2.1⟩, hm.2.symm, by cases e <;> rfl, hs.2.2, hE, hk, by unfold State.memOk; rw [hm.1]; rfl, by show (0 : Nat) < 256; decide⟩

/-- Bank 3 and every B-store slice of cluster 0 with a tag. -/
def tags (a b : Nat) (s : State) : State := s.updCluster 0 (fun c => { c with
  tags := c.tags.set 3 ⟨BitVec.ofNat 4 a, 0, false⟩
  slices := List.replicate 512 ⟨BitVec.ofNat 4 b, 0, false⟩ })

theorem witness_EngineRecordsRun : atHead .me 0x10 id 0x10 ∧ atHead .me 0x11 id 0x11 ∧ atHead .me 0x12 id 0x12 ∧
    atHead .me 0x13 id 0x13 ∧ atHead .me 0x14 id 0x14 ∧ atHead .gu 0x20 id 0x20 ∧ atHead .ce 0x30 id 0x30 ∧
    atHead .ce 0x31 id 0x31 ∧ atHead .ce 0x32 id 0x32 := by
  refine ⟨?_, ?_, ?_, ?_, ?_, ?_, ?_, ?_, ?_⟩ <;> exact heads _ _ _ _ (by decide +kernel) (by decide +kernel) (by decide +kernel) (by decide +kernel)

/-- MMS of one element, whose tags fit, and MMA of E4M3 by E4M3, which fits; without the tags neither does. -/
theorem witness_MatrixRecordsComputeElements :
    let s := engSt .me (recOf 9 .me 0x11) (tags 7 10)
    let t := running .me (recOf 9 .me 0x11) tile0
    let b : RecordBits := 0x10 + 5 * 2 ^ 119 + 5 * 2 ^ 123
    atHead .me 0x11 (tags 7 10) 0x11 ∧ ((s.winTag t 0).fmt = 7 ∧ (s.winTag t 0).blk = 0) ∧
    (∀ j < 1, (s.sliceTag t j).fmt = 10 ∧ (s.sliceTag t j).blk = 0) ∧
    ¬((engSt .me (recOf 9 .me 0x11)).winTag t 0).fmt = 7 ∧ atHead .me b (tags 5 5) 0x10 ∧
    mmaFits (engSt .me (recOf 9 .me b) (tags 5 5)) (running .me (recOf 9 .me b) tile0) (recOf 9 .me b) = true ∧
    mmaFits (engSt .me (recOf 9 .me b)) (running .me (recOf 9 .me b) tile0) (recOf 9 .me b) = false :=
  ⟨heads _ _ _ _ (by decide +kernel) (by decide +kernel) (by decide +kernel) (by decide +kernel), by decide, by decide, by decide,
    heads _ _ _ _ (by decide +kernel) (by decide +kernel) (by decide +kernel) (by decide +kernel), by decide +kernel, by decide +kernel⟩

/-- Of five elements of K, MMS takes four and then one; of two elements MMA takes one and one, or both as FP8. -/
theorem witness_MatrixRecordsComputeElements_steps : atHead .me (0x11 + 4 * 2 ^ 105) (tags 7 10) 0x11 ∧
    (fieldAt (0x11 + 4 * 2 ^ 105) 105 14 + 1 + 3) / 4 = 2 ∧ atHead .me (0x10 + 2 ^ 105 + 5 * 2 ^ 119 + 5 * 2 ^ 123) (tags 5 5) 0x10 ∧
    fieldAt (0x10 + 2 ^ 105 + 5 * 2 ^ 119 + 5 * 2 ^ 123) 119 4 = 5 ∧ (fieldAt (0x10 + 2 ^ 105) 105 14 + 1 + 1) / 2 = 1 ∧
    (recOf 9 .me 0x11).progress = 0 ∧ (engSt .me (recOf 9 .me 0x11)).sound (recOf 9 .me 0x11).reads = true :=
  ⟨heads _ _ _ _ (by decide +kernel) (by decide +kernel) (by decide +kernel) (by decide +kernel), by decide +kernel,
    heads _ _ _ _ (by decide +kernel) (by decide +kernel) (by decide +kernel) (by decide +kernel), by decide +kernel⟩

/-- The bounds of the copies of `witness_CopyRecordsMoveBytes`: one byte each of FILL, COPY and COPYB, one empty row of GATHER. -/
theorem witness_CopyRecordsMoveBytes_bounds : let copy : RecordBits := 0x30 + 0x80000 * 2 ^ 128
    let gather : RecordBits := 0x20 + 2 ^ 158
    let s := engSt .gu (recOf 9 .gu gather)
    fieldAt (0x31 : RecordBits) 115 2 = 0 ∧ fieldAt (0x31 : RecordBits) 64 51 = 0 ∧ fieldAt (0x31 : RecordBits) 192 19 + 1 = 1 ∧
    fieldAt copy 179 2 = 0 ∧ fieldAt copy 181 2 = 0 ∧ fieldAt copy 183 6 = 0 ∧ fieldAt copy 64 51 = 0 ∧ fieldAt copy 128 51 < 2 ^ 22 ∧
    fieldAt copy 128 51 % 2 ^ 19 = 0 ∧ fieldAt copy 116 12 + 1 = 1 ∧ 0 < (0 % 128 + 1 + 127) / 128 ∧
    fieldAt (0x32 : RecordBits) 118 6 + 1 = 1 ∧ fieldAt (0x32 : RecordBits) 142 6 = 0 ∧ fieldAt (0x32 : RecordBits) 128 14 = 0 ∧
    fieldAt (0x32 : RecordBits) 148 14 + 1 = 1 ∧ fieldAt gather 130 14 + 1 = 1 ∧ fieldAt gather 144 14 = 0 ∧ fieldAt gather 67 19 = 0 ∧
    elemSize 1 = 4 ∧ s.sound [(locBank 0 3 0, 8)] = true ∧
    Claims.number s (locBank 0 3 0 + 4 * 1) 4 = Claims.number s (locBank 0 3 0 + 4 * 0) 4 ∧ (recOf 9 .gu gather).progress = 0 := by
  decide +kernel

theorem witness_CopyRecordsMoveBytes : let t := running .ce (recOf 9 .ce 0x31) tile0
    let copy : RecordBits := 0x30 + 0x80000 * 2 ^ 128
    atHead .me (0x13 + 2 ^ 93) id 0x13 ∧ atHead .me 0x14 id 0x14 ∧ atHead .ce 0x31 id 0x31 ∧ atHead .ce copy id 0x30 ∧
    atHead .ce 0x32 id 0x32 ∧ atHead .gu (0x20 + 2 ^ 158) id 0x20 ∧ t.wins.getD 0 .empty = .att 3 ∧ t.wins.getD 1 .empty = .att 4 ∧
    t.idx < 4 ∧ ((engSt .ce (recOf 9 .ce 0x31)).cluster 0).tags.length = 16 ∧
    ((engSt .ce (recOf 9 .ce 0x31)).cluster 0).slices.length = 512 ∧ layCount 0 = 1 ∧ (layAddr 0 0).toNat + 4 ≤ 2 ^ 19 ∧
    fieldAt copy 128 51 / 2 ^ 19 = 1 ∧ fieldAt copy 115 2 = 0 ∧ fieldAt (0x20 + 2 ^ 158) 158 4 = 1 := by
  refine ⟨?_, ?_, ?_, ?_, ?_, ?_, by decide +kernel⟩ <;> exact heads _ _ _ _ (by decide +kernel) (by decide +kernel) (by decide +kernel) (by decide +kernel)

/-- Two tiles, members of group 1, each with its record of a collective joined. -/
def pairDom (a b : RecordBits) : Domain :=
  let j (x : RecordBits) : Rec := { (recOf 9 .ch x) with stage := .joined }
  { dom0 with
    groups := [(1, [0, 1])]
    tiles := [running .ch (j a) tile0, running .ch (j b) { tile0 with lt := 1, idx := 1 }] }
def pairSt (a b : RecordBits) : State := { start with domains := [pairDom a b], cur := ⟨1, 0, .sq, .ch, 0, 0, 0⟩ }

theorem witness_ChorusAndCompletion : atHead .ch 0x40 id 0x40 ∧ atHead .ch 0x41 id 0x41 ∧ atHead .ch 0x42 id 0x42 ∧
    atHead .ch 0x43 id 0x43 ∧ atHead .ch 0x44 id 0x44 ∧ atHead .ch 0x45 id 0x45 ∧ atHead .ch 0x46 id 0x46 := by
  refine ⟨?_, ?_, ?_, ?_, ?_, ?_, ?_⟩ <;> exact heads _ _ _ _ (by decide +kernel) (by decide +kernel) (by decide +kernel) (by decide +kernel)

theorem witness_ChorusAndCompletion_commit : let a : RecordBits := 0x44 + 2 ^ 64 + 4 * 2 ^ 128
    let b : RecordBits := 0x45 + 2 ^ 64 + 4 * 2 ^ 128
    let r : Rec := { (recOf 9 .ch a) with stage := .joined }
    let q : Rec := { (recOf 9 .ch b) with stage := .joined }
    let x := running .ch r tile0
    let y := running .ch q { tile0 with lt := 1, idx := 1 }
    (pairSt a b).At (pairDom a b) x ∧ (pairSt a b).memOk ∧ x.current .ch = some r ∧
    (pairDom a b).members (fieldAt r.bits 64 8) r.coll = some [(x, r), (y, q)] ∧ fieldAt r.bits 0 8 = 0x44 ∧
    fieldAt q.bits 0 8 = 0x45 ∧ x.wins.getD (fieldAt r.bits 72 3) .empty = .att 3 ∧ y.wins.getD (fieldAt q.bits 94 3) .empty = .att 3 ∧
    collectiveFault (pairSt a b) (pairDom a b) 1 [(x, r), (y, { q with bits := b + 2 ^ 128 })] = some (4, 1) :=
  ⟨by unfold State.At; decide +kernel, (rfl : Memory.wf [] = true), by decide +kernel⟩

/-- A FILL with an arrival word in window 0 and a signal of semaphore 0. -/
theorem witness_ChorusAndCompletion_completion : let b : RecordBits := 0x31 + 2 ^ 117 + 2 ^ 36 + 2 ^ 40 + 5 * 2 ^ 224
    let r := recOf 9 .ce b
    let t := running .ce r tile0
    let s := engSt .ce r
    s.At (domW (running .ce r)) t ∧ t.lt = s.cur.lt ∧ t.engines.length = 4 ∧ s.memOk ∧ t.current s.cur.eng = some r ∧
    r.aen = true ∧ t.wins.getD (fieldAt r.bits 211 3) .empty = .att 3 ∧ (recOf 9 .ce 0x31).aen = false :=
  ⟨by unfold State.At; decide +kernel, by decide, by decide, (rfl : Memory.wf [] = true), by decide +kernel⟩

/-! ## Domains and blocks -/

theorem witness_HoldsDeadlinesAndHalts : let x : Deferred := ⟨0, 0, 0, 18, 6, 0, none⟩
    let d : Domain := { dom0 with deferred := [x], causes := [⟨0, 0, 0, 63, 0⟩] }
    let s : State := { start with domains := [d] }
    s.dom? s.cur.dom = some d ∧ d.deferred = x :: [] ∧ x.tick ≤ d.dtick ∧ d.tiles ≠ [] ∧ d.parked = false ∧
    (∀ c ∈ d.causes, c.code < 64) ∧ ∀ x ∈ d.deferred, x.cause < 64 := ⟨rfl, by decide⟩

/-- A race whose pair of events the order has not ordered, and one that a wait has since ordered. -/
theorem witness_HoldsDeadlinesAndHalts_pairs :
    let a : Ev := { (newEv dom0 tile0 .sq (.record .ce)) with id := 0, lt := 1 }
    let b : Ev := { (newEv dom0 tile0 .ls .access) with id := 1 }
    let d (x : Ev) : Domain := { dom0 with evs := [a, x] }
    (d b).ev? 0 = some a ∧ (d b).ev? 1 = some b ∧ (!(d b).ordered a b) = true ∧
    (!(d { b with after := [0] }).ordered a { b with after := [0] }) = false := by decide

/-- A block that is one HALT; its header asks for one repetition of 16 ticks. -/
def halting : Block := { (placedBlock .sq [0x8050, 0]) with addr := 0x2000 }

theorem witness_BlocksAreFetchedAndEntered : let g (t : Tile) : Tile := { t with
      decision := some ⟨true, 0x2000⟩
      loader := [⟨0x2000, .got halting, .fall⟩] }
    (stW g).At (domW g) (g tile0) ∧ (g tile0).lt = start.cur.lt ∧ (g tile0).held 0x2000 = some (.got halting) := ⟨⟨rfl, rfl⟩, by decide⟩

/-- Whether an answer is one. -/
def isOk {ε α : Type} : Except ε α → Bool
  | .ok _ => true
  | .error _ => false

/-- What stands at 0x2000 is no header; at 4 GiB no page stands. -/
theorem witness_BlocksAreFetchedAndEntered_fetch : let g (t : Tile) : Tile := { t with loader := [⟨0x2000, .asked, .fall⟩, ⟨0x100000000, .asked, .fall⟩] }
    let s := stW g id paged
    s.At (domW g) (g tile0) ∧ (g tile0).loader[s.cur.item]? = some ⟨0x2000, .asked, .fall⟩ ∧
    isOk (fetchBlock s (domW g) (g tile0) 0x2000) = true ∧ isOk (fetchBlock s (domW g) (g tile0) 0x100000000) = false :=
  ⟨⟨rfl, rfl⟩, by decide, by decide +kernel⟩

theorem witness_BlocksAreFetchedAndEntered_refill : let g (t : Tile) : Tile := { t with spills := 1, refill := 1 }
    let d := domW g spilling
    (stW g spilling paged).At d (g tile0) ∧ resolveFor (stW g spilling paged) d (g tile0) false
      (BitVec.ofNat 64 (field d.pkt 56 8 + (g tile0).lt * 8 * (field d.pkt 52 4 / (8 * d.tiles.length)) + 8 * ((g tile0).spills - 1))) =
      .ok ⟨0x2000, ⟨0, 0, false⟩, true, true, false, some 0x1000⟩ ∧
    ∃ w, resolveFor start d (g tile0) false 0x2000 = .error w := ⟨⟨rfl, rfl⟩, rfl, ⟨_, rfl⟩⟩

/-- The completion record of the domain's packet stands at 0x2000. -/
theorem witness_TasksEndWithTheirRecord : let f (d : Domain) : Domain := { d with
      pkt := d.pkt.take 64 ++ [0, 0x20] ++ d.pkt.drop 66
      fatal := true }
    let d := domW id f
    let s := stW id f paged
    s.dom? s.cur.dom = some d ∧ s.memOk ∧ d.relaxed = true ∧ d.pkt.length = 128 ∧ d.part < s.parts.length ∧
    resolve s d.part (0x101 + 16 * 0) .report true (BitVec.ofNat 64 (field d.pkt 64 8)) =
      .ok ⟨0x2000, ⟨0, 0, false⟩, true, true, false, some 0x1000⟩ ∧ field d.pkt 64 8 % 4096 + 64 ≤ 4096 ∧
    ∀ t ∈ d.tiles, ∀ r ∈ t.recs, r.stage = .complete → r.told = true :=
  ⟨rfl, (by decide : Memory.wf pageBytes = true), by decide, by decide +kernel, by decide, by decide +kernel, by decide⟩

/-- The digest of a task's outputs has 32 bytes (08 R199). -/
theorem witness_TasksEndWithTheirRecord_digest : (sha256 [1, 2, 3]).length = 32 := by decide +kernel

/-! ## Translations, leases, epochs -/

def lease0 : Lease where
  handle := 0
  part := 0
  state := .building
  ranges := [⟨0x2000, 0x1000, 0xFF, 0xFF⟩]
  rw := [true]
  at_ := (0, 0)
  needW := []
  codeBase := 0x2000
  seq := 1
  record := none
  released := false

theorem witness_LeasesAndTranslations_build : let s : State := { (paged start) with leases := [lease0] }
    let r : Range := ⟨0x2000, 0x1000, 0xFF, 0xFF⟩
    s.cur.die < s.dies.length ∧ s.lease? s.cur.item = some lease0 ∧ lease0.ranges[lease0.at_.1]? = some r ∧
    (∃ base size w, checkPage s lease0 r lease0.at_.2 = .ok base size w) ∧
    (∃ c lv e p, checkPage start lease0 r lease0.at_.2 = .bad c lv e p) :=
  ⟨by decide, rfl, rfl, ⟨_, _, _, rfl⟩, ⟨_, _, _, _, rfl⟩⟩

theorem witness_LeasesAndTranslations_record : let l : Lease := { lease0 with state := .faulted, record := some (List.replicate 64 7) }
    let s : State := (paged { start with leases := [l] }).updPart 0 (fun q => { q with frbase := 0x4000, frstat := 1 })
    s.lease? s.cur.item = some l ∧ l.record = some (List.replicate 64 7) ∧ s.memOk ∧ l.part < s.parts.length ∧
    resolve s l.part 0x101 .report true ((s.part 0).frbase + BitVec.ofNat 64 (64 * ((s.part 0).frhead.toNat % (s.part 0).frsize.toNat))) =
      .ok ⟨0x4000, ⟨0, 0, false⟩, true, true, false, some 0x1000⟩ :=
  ⟨rfl, rfl, (by decide : Memory.wf pageBytes = true), by decide, rfl⟩

/-- RETRY and RELEASE of leases in each of the states that their clauses name; handle 0 is used by a strict domain. -/
theorem witness_LeasesAndTranslations_commands : let l (st : LeaseState) : Lease := { lease0 with state := st }
    let s (st : LeaseState) : State := stW id strict (fun s => { s with leases := [l st] })
    (s .faulted).lease? 0 = some (l .faulted) ∧ (l .faulted).record = none ∧ (s .ending).lease? 0 = some (l .ending) ∧
    (s .resident).lease? 0 = some (l .resident) ∧ (s .resident).leaseUsed 0 = true ∧ (s .building).lease? 0 = some (l .building) ∧
    (l .building).part = 0 ∧ (l .building).state ≠ .ending ∧ 15 < start.parts.length ∧
    ({ (l .faulted) with record := some [] }).record.isSome = true := by decide

def epoch0 : Epoch := ⟨1, false, 1, 16, [⟨0, false, 0, none, none, 16, [locBank 0 0 0], 1, 0⟩], .waiting, false⟩

theorem witness_EpochsBecomeDurable : let s := start.updCluster 0 (fun c => { c with epochs := [epoch0], frozen := [locBank 0 0 0] })
    (s.cluster s.cur.cluster).epochs = epoch0 :: [] ∧ s.memOk ∧ (∃ p, epoch0.parts = [p]) ∧ ∃ d, s.dom? s.cur.dom = some d :=
  ⟨rfl, rfl, ⟨_, rfl⟩, ⟨_, rfl⟩⟩

/-! ## Power and frames -/

theorem witness_GatingHandshake : let s (f : Cluster → Cluster) := start.updCluster 0 f
    let quiet := s (fun c => { c with qack := true })
    let off := s (fun c => { c with rail := .off, cpctl := 0x10 })
    ((quiet.cluster 0).qack = true ∧ (quiet.cluster 0).cpctl.getLsbD 1 = false) ∧
    ¬((quiet.cluster 0).rail = .off ∨ (quiet.cluster 0).switching = some .off) ∧ (quiet.cluster 0).rail ≠ .off ∧
    ¬((start.cluster 0).qack = true ∧ (start.cluster 0).cpctl.getLsbD 1 = false) ∧
    (let c := (s (fun c => { c with clkoff := true, sealed := true })).cluster 0;
      c.clkoff = true ∧ c.sealed = true ∧ c.rail ≠ .off) ∧
    ((s (fun c => { c with switching := some .off })).cluster 0).switching = some .off ∧
    (off.cluster 0).rail = .off ∧ (off.cluster 0).cpctl.getLsbD 4 = true ∧ start.cur.cluster < 256 ∧ start.memOk ∧
    ((s (fun c => { c with banks := .leaving :: c.banks.tail })).cluster 0).banks.getD 0 .free = .leaving ∧
    (start.cluster 0).wakepend = false :=
  ⟨by decide, by decide, by decide, by decide, by decide, by decide, by decide, by decide, by decide, rfl, by decide⟩

theorem witness_PowerAndFrameRegisters :
    (let set := start.updPart 0 (fun q => { q with pfloor := 3020 });
      180 + (set.parts.map (fun p => p.pfloor.toNat)).sum ≤ min start.capNow.toNat 3200) ∧
    (let set := start.updPart 0 (fun q => { q with pfloor := 3021 });
      ¬180 + (set.parts.map (fun p => p.pfloor.toNat)).sum ≤ min start.capNow.toNat 3200) ∧
    (0x1BF#64).toNat / 256 % 256 ≠ 0 ∧ (0x1BF#64).toNat % 256 < 192 ∧ 192 ≤ (0x1C0#64).toNat % 256 ∧ 3 < start.dies.length ∧
    (start.cluster 191).railNext ≠ .off ∧ readingOf [⟨191, true, 0⟩] 191 = some ⟨191, true, 0⟩ ∧
    start.frameOf 1 = none := by decide

/-- Masters of each class at the configuration window: the host with its entry and a link up, without a link, with an entry
of V alone, and a supervisor's. -/
theorem witness_ByHost : let s : State := { start with lnkst := [4, 0], macl := [(0x3F0, 0x81), (0x3F1, 1)] }
    (Claims.Heard s 0x3F0 ∧ Claims.CfgRight s 0x3F0 ∧ 0x3F0 ≤ 0x3F0 ∧ 0x3F0 ≤ 0x3FF) ∧ ¬Claims.Heard start 0x3F0 ∧
    (Claims.Heard s 0x3F1 ∧ ¬Claims.CfgRight s 0x3F1) ∧ Claims.Heard s 0x10F ∧ Claims.CfgRight s 0x10F ∧
    ¬(0x3F0 ≤ 0x10F ∧ 0x10F ≤ 0x3FF) := by unfold Claims.Heard Claims.CfgRight; decide

/-- A halted tile with one latch, owed. -/
theorem witness_PowerAndFrameRegisters_latch :
    let owing (d : Domain) : Domain := { d with tiles := d.tiles.modify 0 (fun t => { t with
      flights := [{ (scalarFlight t 0 600 .ls (.sq none) 0) with owed := true, cause := 7 }] }) }
    let d := haltedDom owing
    let t := d.tiles.head (by decide)
    (svBeside owing).frameOf 0 = some (d, t) ∧ (d.selectedLatch t).map (fun x => (x.flight, x.owed)) = some (some 0, true) :=
  ⟨rfl, by decide +kernel⟩

theorem witness_PowerAndFrameRegisters_notOwed :
    let full (d : Domain) : Domain := { d with tiles := d.tiles.modify 0 (fun t => { t with
      flights := [{ (scalarFlight t 0 600 .ls (.sq none) 0) with cause := 2 }] }) }
    let d := haltedDom full
    let t := d.tiles.head (by decide)
    (svBeside full).frameOf 0 = some (d, t) ∧ (d.selectedLatch t).map (fun x => x.owed) = some false := ⟨rfl, by decide +kernel⟩

/-! ## Launches, routers, the host -/

/-- A packet of shape S1 whose flags are b, with its hallmark and a check code; its descriptor stands at 0x2000. -/
def packet (b : Byte) (crc : List Byte) : List Byte :=
  [1, 0, 0, b, 0, 0, 0, 0, 1, 0, 0, 0, 0, 0, 0, 0, 116, 129, 158, 205, 77, 193, 150, 91] ++ List.replicate 9 0 ++ [0x40] ++
    List.replicate 7 0 ++ [0x20] ++ List.replicate 6 0 ++ [64] ++ List.replicate 75 0 ++ crc
def userPacket : List Byte := packet 1 [119, 251, 57, 1]
def supPacket : List Byte := packet 2 [247, 35, 154, 149]
/-- The page table, and a descriptor that is a header alone. -/
def described (s : State) : State := { s with mem := pageBytes ++ [(0x2000, 0x48), (0x2001, 0x43), (0x2002, 0x4E), (0x2003, 0x4C)] }

theorem witness_LaunchesFlowThroughTheStream_post :
    let s : State := { State.reset with lnkst := [4, 0], lpacl := [(0x3F0, 0x10101)] }
    (0x3F0 ≤ 0x3F0 ∧ 0x3F0 ≤ 0x3FF) ∧ State.reset.linkUp 0 = false ∧ s.linkUp 0 = true ∧ userPacket.length = 128 ∧ 128 % 128 = 0 ∧
    (s.lpaclOf 0x3F0).getLsbD 0 = true ∧ ((s.lpaclOf 0x3F0).extractLsb' 16 16).getLsbD (field userPacket 2 1) = true := by decide +kernel

/-- What is left of the stream once the packet before a task end has been taken. -/
def taken : State := described { State.reset with
  lpacl := [(0x3F0, 0x10101)]
  partmap := [(0, 0x10)]
  stream := [.taskEnd 8 1] }

theorem userPacket_crc : pktCrcOk userPacket = true := by
  have h : crcFrom 0xFFFFFFFF (userPacket.take 124) = 4274390152 := by
    have e : userPacket.take 124 = userPacket.take 48 ++ (((userPacket.drop 48).take 48) ++ ((userPacket.drop 96).take 28)) := by decide +kernel
    rw [e, crcFrom, List.foldl_append, List.foldl_append, ← crcFrom, ← crcFrom, ← crcFrom,
      (by decide +kernel : crcFrom 0xFFFFFFFF (userPacket.take 48) = 2691872663),
      (by decide +kernel : crcFrom 2691872663 ((userPacket.drop 48).take 48) = 4282752097)]
    decide +kernel
  rw [pktCrcOk, crc32c, h]
  decide +kernel
theorem supPacket_crc : pktCrcOk supPacket = true := by
  have h : crcFrom 0xFFFFFFFF (supPacket.take 124) = 1785060360 := by
    have e : supPacket.take 124 = supPacket.take 48 ++ (((supPacket.drop 48).take 48) ++ ((supPacket.drop 96).take 28)) := by decide +kernel
    rw [e, crcFrom, List.foldl_append, List.foldl_append, ← crcFrom, ← crcFrom, ← crcFrom,
      (by decide +kernel : crcFrom 0xFFFFFFFF (supPacket.take 48) = 331536964),
      (by decide +kernel : crcFrom 331536964 ((supPacket.drop 48).take 48) = 3783130835)]
    decide +kernel
  rw [pktCrcOk, crc32c, h]
  decide +kernel
theorem packets_format : pktFormatOk (taken.lpaclOf 0x3F0) 0x3F0 userPacket = true ∧
    pktFormatOk (taken.lpaclOf 0x3F1) 0x3F1 userPacket = false ∧ pktFormatOk (taken.lpaclOf 0x10F) 0x10F supPacket = true := by
  decide +kernel
/-- The descriptor that both packets name. -/
def described64 : List Byte := [0x48, 0x43, 0x4E, 0x4C] ++ List.replicate 60 0
theorem packets_desc : (taken.readDesc 0 userPacket).2 = some described64 ∧ (taken.readDesc 0 supPacket).2 = some described64 := by decide +kernel
theorem packets_parts : described64.length = 64 ∧ descFits described64 = true ∧
    parseDesc described64 false = some ⟨[], [], [], [], [], [], []⟩ ∧ parseDesc described64 true = some ⟨[], [], [], [], [], [], []⟩ := by
  decide +kernel
theorem packets_ranges : rangesOk userPacket ⟨[], [], [], [], [], [], []⟩ = true ∧ rangesOk supPacket ⟨[], [], [], [], [], [], []⟩ = true ∧
    groupsOk (field userPacket 1 1) ⟨[], [], [], [], [], [], []⟩ = true := by decide +kernel
theorem packets_hallmark : hallmarkOk userPacket ⟨[], [], [], [], [], [], []⟩ = true ∧
    hallmarkOk supPacket ⟨[], [], [], [], [], [], []⟩ = true := by decide +kernel
theorem packets_room : (taken.queues.filter (fun k => field k.pkt 2 1 == field userPacket 2 1)).length = 0 ∧
    (taken.die (field supPacket 84 1)).supWaiting.length = 0 ∧ taken.placeable (field userPacket 1 1) 0 = true := by decide +kernel
theorem packets_kind : pktSup userPacket = false ∧ pktOpen userPacket = true ∧ pktSup supPacket = true ∧ pktOpen supPacket = false := by
  decide +kernel

theorem witness_LaunchesFlowThroughTheStream_packet : (∃ r, taken.checkPacket 0x3F0 0 userPacket = .ok r) ∧
    field userPacket 3 1 / 2 % 2 = 0 ∧ ∀ l ∈ taken.leases, l.handle ≠ field userPacket 6 2 := by
  refine ⟨?_, by decide +kernel, by decide +kernel⟩
  refine ⟨(described64, ⟨[], [], [], [], [], [], []⟩), ?_⟩
  simp [State.checkPacket, userPacket_crc, packets_format, packets_desc, packets_parts, packets_ranges, packets_hallmark, packets_room, packets_kind]

theorem witness_LaunchesFlowThroughTheStream_refused : taken.checkPacket 0x3F1 0 userPacket = .error 2 := by
  simp [State.checkPacket, userPacket_crc, packets_format]

theorem witness_LaunchesFlowThroughTheStream_supervisor : (∃ r, taken.checkPacket 0x10F 0 supPacket = .ok r) ∧
    field supPacket 3 1 / 2 % 2 = 1 ∧ field supPacket 84 1 < taken.dies.length := by
  refine ⟨?_, by decide +kernel, by decide +kernel⟩
  refine ⟨(described64, ⟨[], [], [], [], [], [], []⟩), ?_⟩
  simp [State.checkPacket, supPacket_crc, packets_format, packets_desc, packets_parts, packets_ranges, packets_hallmark, packets_room, packets_kind]

theorem witness_LaunchesFlowThroughTheStream_stream :
    let s : State := { taken with stream := .packet 7 0x3F0 0 userPacket :: taken.stream }
    s.stream = .packet 7 0x3F0 0 userPacket :: [.taskEnd 8 1] ∧ ({ s with stream := [.taskEnd 8 1] } : State) = taken ∧
    taken.stream = .taskEnd 8 1 :: [] := ⟨rfl, rfl, rfl⟩

def task0 : Task := ⟨7, userPacket, [], 0, 0x3F0⟩

theorem witness_LaunchesFlowThroughTheStream_bind :
    let s : State := { taken with queues := [task0], selected := some 7, cur := ⟨7, 0, .sq, .me, 0, 0, 0⟩ }
    s.dom? s.cur.dom = none ∧ s.selected = some task0.seq ∧ s.queues.find? (fun x => x.seq == task0.seq) = some task0 ∧
    s.placeTask task0 = some [0] := ⟨rfl, rfl, rfl, by decide +kernel⟩

theorem witness_LaunchesFlowThroughTheStream_binding : let d : Domain := { dom0 with phase := .binding [0, 3] }
    let s : State := { start with domains := [d] }
    s.dom? s.cur.dom = some d ∧ d.phase = .binding [0, 3] ∧ [0, 3].filter (· != s.cur.die) ≠ [] := ⟨rfl, rfl, by decide⟩

theorem witness_LaunchesFlowThroughTheStream_back : let d : Domain := { (haltedDom) with parked := true }
    let s : State := { start with domains := [d], selected := some 2 }
    s.dom? s.cur.dom = none ∧ s.selected = some 2 ∧ s.queues.find? (fun x => x.seq == 2) = none ∧ s.dom? 2 = some d ∧
    s.slotsBack d = true ∧ ∀ t ∈ d.tiles, t.badBlock = false := ⟨rfl, rfl, rfl, rfl, by decide⟩

theorem witness_LaunchesFlowThroughTheStream_supBind :
    let s := start.updDie 0 (fun q => { q with supWaiting := [⟨7, supPacket, [], 0, 0x10F⟩] })
    (s.die s.cur.die).supWaiting = ⟨7, supPacket, [], 0, 0x10F⟩ :: [] ∧ s.cur.die < s.dies.length := ⟨rfl, by decide⟩

theorem witness_RoutersLinksAndRegisters : let s : State := { start with lnkst := [4, 0x1000] }
    (0x103#128).toNat % 4 = 3 ∧ (0x103#128).getLsbD 24 = false ∧ (0x1100#128).toNat % 4 ≠ 3 ∧ (0x1100#128).getLsbD 24 = false ∧ 63 < 64 ∧
    (0x1100#128).toNat / 2 ^ 8 % 256 % 4 = 1 ∧ (0x1100#128).toNat / 2 ^ 8 % 256 / 4 % 8 = 4 ∧ 0 < s.dies.length ∧
    s.mcidBound 0 (((s.die 0).mctidx).toNat % 256) = false ∧ 1 < s.lnkst.length ∧ s.linkUp 0 = true ∧ s.linkUp 1 = false := by decide

theorem witness_RoutersLinksAndRegisters_bound : let d : Domain := { dom0 with mcast := [(1, 0)] }
    ({ start with domains := [d] } : State).mcidBound 0 (((start.die 0).mctidx).toNat % 256) = true := by decide

/-- A flit that goes on: from port E of node 0 along the row, into a pool with three flits, and into a ring, with two. -/
def waiting (h : BitVec 128) (p : Port) : FlitAt := ⟨0, p, h, List.replicate 128 0, [.e]⟩
def pool (n : Nat) (f : FlitAt) : State := start.updDie 0 (fun q => { q with
  flits := List.replicate n ⟨1, .w, 0x400, List.replicate 128 0, [.e]⟩ ++ [f] })
theorem witness_RoutersLinksAndRegisters_pools : (pool 3 (waiting 0x400 .w)).nextFlit 0 0 .e = some (waiting 0x400 .w) ∧
    (pool 4 (waiting 0x400 .w)).nextFlit 0 0 .e = none ∧ (pool 2 (waiting 0x400 .loc)).nextFlit 0 0 .e = some (waiting 0x400 .loc) ∧
    (pool 3 (waiting 0x400 .loc)).nextFlit 0 0 .e = none := by decide +kernel

/-- A register of the supervisor, by MRSEL. -/
theorem witness_RoutersLinksAndRegisters_window : let t := start.updDie 0 (fun q => { q with mrsel := 0x40078 })
    (t.die 0).mrsel.toNat = 0x10000 * (3 + 1) + 8 * 15 := by decide

theorem witness_ApertureAndMailbox : let s : State := paged { State.reset with lnkst := [4, 0], macl := [(0x3F0, 0xE1), (0x3F1, 1)] }
    let p (n : Nat) : Place := ⟨n, ⟨0, 0, false⟩, true, true, false, some 0x1000⟩
    ((0x3F0 ≤ 0x3F0 ∧ 0x3F0 ≤ 0x3FF) → s.linkUp 0 = true ∨ s.linkUp 1 = true) ∧
    ¬((s.maclOf 0x3F1).getLsbD 0 = true ∧ (s.maclOf 0x3F1).getLsbD 5 = true) ∧ (s.maclOf 0x3F0).getLsbD 0 = true ∧
    (s.maclOf 0x3F0).getLsbD 5 = true ∧ (s.maclOf 0x3F0).getLsbD 6 = true ∧ 0xFF8 % 4096 + 8 ≤ 4096 ∧ s.memOk ∧
    resolve s 0 0x3F0 .report false 0x2FF8 = .ok (p 0x2FF8) ∧ resolve s 0 0x3F0 .report true 0x2FF8 = .ok (p 0x2FF8) ∧
    s.sound [(0x2FF8, 8)] = true :=
  ⟨by decide, by decide, by decide, by decide, by decide, by decide, (by decide : Memory.wf pageBytes = true), rfl, rfl, by decide⟩

theorem witness_ApertureAndMailbox_mailbox : let s : State := { State.reset with bootst := 9 }
    let go : State := { s with mbctl := 1 }
    s.memOk ∧ go.mbctl.getLsbD 0 = true ∧ ¬s.mbctl.getLsbD 0 = true ∧ s.bootst.toNat % 16 = 9 ∧ ¬State.reset.bootst.toNat % 16 = 9 ∧
    (List.replicate 32 (5 : Byte)).length = 32 ∧ go.readLE (locMail 0) 2 ≠ 1 := ⟨rfl, by decide⟩

theorem witness_ResetsAndRecovery_powerLoss : liveCluster (locBank 0 15 0x7FFFF) = some 0 ∧ (start.cluster 0).rail ≠ .off ∧
    (∀ d ∈ start.domains, d.phase = .running ∧ ∃ t ∈ d.tiles, t.cluster ∈ [0]) ∧ hostNode [0] 0 = some 8 ∧
    ∀ d ∈ start.domains, ∀ e ∈ start.domains, e.seq = d.seq → e = d := by decide

/-- A boot whose stages answer well but for what b names, and one whose links do not train. -/
def stages (fuse hbm test : Bool) (l : Training) : BootInputs := ⟨fuse, hbm, l, l, test⟩
def trained : Training := ⟨4, 16, 3, false⟩

theorem witness_ResetsAndRecovery_boot : let up (l : Training) : Prop :=
      ((State.reset.afterReset.train 0 l).train 1 l).linkUp 0 = true ∨ ((State.reset.afterReset.train 0 l).train 1 l).linkUp 1 = true
    (stages false true true trained).fuseOk = false ∧ (stages true false true trained).hbmOk = false ∧ up trained ∧
    ¬up ⟨3, 16, 3, false⟩ := by decide +kernel

theorem witness_ResetsAndRecovery_recovery : let s : State := { State.reset with lnkst := [4, 0], bootst := 0x68 }
    s.bootst.toNat % 16 = 8 ∧ ¬State.reset.bootst.toNat % 16 = 8 ∧ s.memOk := ⟨by decide, by decide, rfl⟩

theorem witness_ResetsAndRecovery_retry : let s : State := { State.reset with bootst := 5 }
    let s1 := (s.train 0 trained).train 1 trained
    s.linkUp 0 = false ∧ s.linkUp 1 = false ∧ s.bootst.toNat % 256 = 5 ∧ s1.linkUp 0 = true ∧
    ({ State.reset with lnkst := [4, 0] } : State).linkUp 0 = true := by decide

/-! ## The step, the encoding, the network -/

/-- One move and only one is possible, and it is the word that the column's stream decodes to. -/
theorem witness_StepRunsTheDecodedWord : let s := State.reset.withFetchWord 32 0x8101421C
    s.inputs = [] ∧ s.arrivals = [] ∧ (∃ c st, moves s = [.word (.add 0 (.reg 5) (.s 2) (.s 7)) c st]) ∧ tile0.badBlock = false ∧
    (∃ st, tile0.streams[colIdx .sq]? = some st ∧ st.rest = 0x8101 :: [0x421C] ∧
      decodeWord .sq (0x8101 :: [0x421C]) = .ok (.add 0 (.reg 5) (.s 2) (.s 7), []) ∧ st.base + 0 = tile0.btick) :=
  ⟨rfl, rfl, ⟨_, _, rfl⟩, by decide, ⟨_, rfl, rfl, by decide, rfl⟩⟩

theorem witness_StepRunsTheDecodedWord_event : let s : State := { start with
      domains := [{ dom0 with phase := .halted, causes := [⟨0, 0, 0, 16, 0⟩], fatal := true }] }
    s.inputs = [] ∧ ∃ i c, moves s = [.event i c] := ⟨rfl, _, _, rfl⟩

theorem witness_StepRunsTheDecodedWord_arrival : let s : State := { start with arrivals := [.taskEnd 0 1] }
    s.inputs = [] ∧ s.arrivals ≠ [] := by decide

theorem witness_EncodedWordsDecodeToThemselves : (Instr.cfenceLo 15 255 .module 31).wf = true ∧
    (Instr.cfenceLo 15 255 .module 31).column = some .sq ∧ (Instr.skip 7 63).wf = true := by decide

theorem witness_StepKeepsTheStorageCanonical : let s := State.reset.withFetchWord 32 0x8101421C
    s.memOk ∧ ∃ t, step s = .next t := ⟨rfl, _, rfl⟩

theorem witness_UnicastGoesAcrossThenUp : (7 < 8) ∧ (0xEC00#128).toNat / 2 ^ 8 % 4 = 0 ∧ (0xEC00#128).toNat / 2 ^ 10 % 8 = 3 ∧
    (0xEC00#128).toNat / 2 ^ 13 % 8 = 7 ∧ (3 + 8 - 7) % 8 = 4 ∧ (7 + 8 - 2) % 8 = 5 := by decide

theorem witness_TableDescriptorsChainTheWalk : let s := paged start
    let e : W64 := BitVec.ofNat 64 (s.readLE (locHbm 0 0) 8)
    s.sound [(locHbm 0 0, 8)] = true ∧ e.getLsbD 0 = true ∧ e.toNat / 2 ^ 8 % 8 = 6 ∧ e &&& ~~~0x01FFFFFFFFF00701 = 0 ∧
    e.toNat / 2 ^ 20 % 2 ^ 37 < 2 ^ 25 ∧ walk s 0 0 0x2000 .report = .ok 0x1000 0x507 0 (2 ^ 32) := by decide

theorem witness_TableDescriptorsChainTheWalk_bad : let s : State := { start with mem := [(0, 0x03), (1, 0x06)] }
    let e : W64 := BitVec.ofNat 64 (s.readLE (locHbm 0 0) 8)
    e.getLsbD 0 = true ∧ e.toNat / 2 ^ 8 % 8 = 6 ∧ e &&& ~~~0x01FFFFFFFFF00701 ≠ 0 ∧
    (BitVec.ofNat 64 ((paged start).readLE (locHbm 0 0x1000) 8)).toNat / 2 ^ 8 % 8 ≠ 6 := by decide

/-! ## Clauses of halted contexts, failed blocks and suppressed results -/

/-- A supervisor beside the halted domain, active or parked, with cluster 0 quiesced. -/
def sealing (f : Domain → Domain := id) : State := (svBeside f).updCluster 0 (fun c => { c with qack := true })
def parkOut (d : Domain) : Domain := { d with parked := true }

theorem witness_SealAndSlotTakeEffect_sealed : let e := haltedDom
    sealing.At svDom svTile ∧ (sealing.cluster 0).qack = true ∧
    sealing.domains.filter (fun x => sealing.onCluster x 0 && x.phase == .halted) = [e] ∧ sealing.dom? e.seq = some e ∧
    (∀ n ∈ sealing.sealVolumes 0 e, n ≤ 4194304) ∧ sealing.parkedOut e = false ∧ e.tiles ≠ [] := by
  refine ⟨⟨rfl, rfl⟩, ?_⟩; decide +kernel

theorem witness_SealAndSlotTakeEffect_sealedParked : let e := haltedDom parkOut
    let s : State := (sealing parkOut).updCluster 0 (fun c => { c with activeB := List.replicate 4 true })
    s.domains.filter (fun x => s.onCluster x 0 && x.phase == .halted) = [e] ∧ s.dom? e.seq = some e ∧
    (∀ n ∈ s.sealVolumes 0 e, n ≤ 4194304) ∧ s.parkedOut e = true ∧ ∃ u ∈ e.tiles, e.tile? u.lt = some u ∧ u.cluster = 0 := by
  decide +kernel

theorem witness_SealAndSlotTakeEffect_parks : let e := haltedDom
    svBeside.At svDom svTile ∧ svBeside.tileIdle 0 0 = true ∧ svBeside.hosting 0 = false ∧
    (svBeside.cluster 0).activeB.length = 4 ∧ (svBeside.cluster 0).activeB.getD 0 false ≠ true ∧
    svBeside.contextOn 0 0 (svBeside.activeSlot 0 0) = some (e, e.tiles.head (by decide)) ∧ svBeside.dom? e.seq = some e ∧
    e.tile? (e.tiles.head (by decide)).lt = some (e.tiles.head (by decide)) := by
  refine ⟨⟨rfl, rfl⟩, ?_⟩; decide +kernel

theorem witness_SupervisorFaults_slotB : let s : State := { start with domains := [svDom, { dom0 with seq := 2 }] }
    s.At svDom svTile ∧ ¬s.tileIdle 0 0 = true ∧ s.hosting 0 = false := ⟨⟨rfl, rfl⟩, by decide⟩

/-- A halted domain whose tile 0 stands in a failed block: at 0x2000, where now a header of 16 ticks stands; at 0x2008, where
none does; at 4 GiB, where no page stands. -/
def failedAt (a : W64) (d : Domain) : Domain := { d with tiles := d.tiles.modify 0 (fun t => { t with
  block := { t.block with addr := a }
  badBlock := true }) }
def headed (s : State) : State := { s with mem := pageBytes ++ [(0x2000, 16), (0x2006, 0x0C), (0x2007, 0xB1)] }
/-- How a failed block at the address stands when it is read again. -/
def again (a : W64) : Option (Bool × Option Nat) :=
  let e := haltedDom (failedAt a)
  let x := e.tiles.headD tile0
  match fetchBlock (headed (svBeside (failedAt a))) (Claims.resumed e) x a with
  | .ok b => some (decide (e.dtick ≤ x.start + b.len), (worst (validate (Claims.resumed e) x b x.start)).map (fun w => w.1))
  | .error _ => none

theorem witness_ReturnFromException_block : let e := haltedDom (failedAt 0x2000)
    (headed start).memOk ∧ e.tiles.filter (fun x => x.badBlock) = e.tiles.take 1 ∧
    (Claims.resumed e).tile? 0 = (Claims.resumed e).tiles.head? ∧ again 0x2000 = some (true, none) ∧
    again 0x2008 = some (true, some 1) ∧ again 0x100000000 = none :=
  ⟨(by decide : Memory.wf _ = true), by decide +kernel⟩

/-- A supervisor beside a halted tile, whose FTRAPEN it reads and writes. -/
theorem witness_CsrReadsAndWrites_handled : svBeside.At svDom svTile ∧ svDom.sup = true ∧
    svBeside.frameOf (dieOf svTile.cluster) = some (haltedDom, (haltedDom).tiles.head (by decide)) := ⟨⟨rfl, rfl⟩, rfl, rfl⟩

theorem witness_CsrReads_relaxedRace : let f (d : Domain) : Domain := { d with evs := [{ (newEv dom0 tile0 .sq (.mark .me 1)) with id := 0 }] }
    (domW id f).relaxed = true ∧ csrRaces (domW id f) tile0 0x025 = some 6 := by decide

/-- Bank tags with and without a form, and an access of LDS.D whose offset leaves its window. -/
theorem witness_AccessFaults_tagged : let t : Tile := { (accessor tile0) with s := [0x380000, 0x3FFF80, 0x380002] ++ tile0.s.drop 3 }
    let s := stW (fun _ => t) id (tagged 1)
    s.At (domW (fun _ => t)) t ∧ t.lt = s.cur.lt ∧ Claims.formless ⟨0, 0, false⟩ false ∧ Claims.formless ⟨10, 0, false⟩ true ∧
    ¬Claims.formless ⟨5, 3, false⟩ true ∧ Claims.Tagged ((s.cluster 0).tags.getD 0 ⟨0, 0, false⟩) 1 ∧
    t.wins.getD ((t.sval (.s 1)).toNat / 2 ^ 19) .empty = .att 0 ∧
    (t.sval (.s 1) + BitVec.ofNat 64 (128 * 1)).toNat / 2 ^ 19 ≠ (t.sval (.s 1)).toNat / 2 ^ 19 ∧
    (t.sval (.s 2)).toNat % 4 ≠ 0 ∧ (t.sval (.s 2) + BitVec.ofNat 64 (128 * 1)).toNat / 2 ^ 19 = (t.sval (.s 2)).toNat / 2 ^ 19 ∧
    (t.sval (.s 2) + BitVec.ofNat 64 (128 * 1)).toNat % 128 ≠ 0 :=
  ⟨⟨rfl, rfl⟩, by decide, by unfold Claims.formless; decide, by unfold Claims.formless; decide, by unfold Claims.formless; decide,
    by unfold Claims.Tagged; decide, by decide⟩

/-- LDG.D over a page without a form, over one of FP32 with an access on a page of another tag, and AMOG of host memory. -/
theorem witness_AccessFaults_globalTagged : let t := accessor tile0
    let s (b : Byte) := stW accessor id (fun s => { s with mem := [(0, 1), (1, 6), (2, 0x10), (0x1000, 7), (0x1001, b)] })
    let d := domW accessor
    let p (f : BitVec 4) : Place := ⟨0, ⟨f, 0, false⟩, true, true, false, some 0x1000⟩
    resolveFor (s 5) d t false 0 = .ok (p 0) ∧ Claims.formless (p 0).tag false ∧ resolveFor (s 0x0D) d t false 0 = .ok (p 1) ∧
    Claims.Tagged (p 1).tag 1 ∧ leaseOk (s 5) d false 0 1 = true ∧ leaseOk (s 5) d false 0 128 = true ∧
    (0x8000000000000000#64).toNat / 2 ^ 61 = 4 ∧ (0x3FFF81#64).toNat % 8 ≠ 0 ∧
    (let two := stW accessor id (fun s => { s with mem := [(0, 1), (1, 6), (2, 0x10), (0x1000, 7), (0x1001, 0x0D), (0x1008, 7), (0x1009, 5)] });
      resolveFor two d t false 0x3FFFFF80 = .ok ⟨0x3FFFFF80, ⟨1, 0, false⟩, true, true, false, some 0x1000⟩ ∧
      resolveFor two d t false (0x3FFFFF80 + BitVec.ofNat 64 (128 * 1)) = .ok ⟨0x40000000, ⟨0, 0, false⟩, true, true, false, some 0x1008⟩) :=
  ⟨rfl, by unfold Claims.formless; decide, rfl, by unfold Claims.Tagged; decide, by decide, by decide, by decide, by decide, rfl, rfl⟩

/-- A request whose walk fails in open mode, one decoded by its page's tag, an FP32 AMOG, and granules that fail their check. -/
theorem witness_GlobalRequestsAreServed_open : let g := request .load 0x2000 .walking
    let d := domW id (asking g)
    (stW id (asking g)).dom? start.cur.dom = some d ∧ walk (stW id (asking g)) 0 d.part 0x2000 d.walkMode = .bad 1 0 0 0 ∧
    d.relaxed = true ∧ (d.phase == .halted) = false := ⟨rfl, by decide, by decide, by decide⟩

theorem witness_GlobalRequestsAreServed_decoded : let g : GOp := { (request .load 0x2000 (.ready 0x2000 false)) with decode := true, size := 128 }
    let a : GOp := { (request .amo 0x2000 (.ready 0x2000 false)) with aop := .fadd32, size := 4 }
    let s := stW id (asking g) (fun s => { s with mem := [(0, 1), (1, 6), (2, 0x10), (0x1000, 7), (0x1001, 0x0D)] })
    let bad : State := { s with flawed := [(0x40, false)] }
    s.dom? s.cur.dom = some (domW id (asking g)) ∧ g.stage = .ready 0x2000 false ∧ s.sound [(0x2000, 128)] = true ∧
    resolveFor s (domW id (asking g)) tile0 false g.va = .ok ⟨0x2000, ⟨1, 0, false⟩, true, true, false, some 0x1000⟩ ∧
    Claims.Tagged ⟨1, 0, false⟩ 1 ∧ a.stage = .ready 0x2000 false ∧ bad.sound [(0x2000, 8)] = false ∧ bad.mergeSound (0x2000, 8) = false ∧
    (request .amo 0x2000 (.ready 0x2000 true)).stage = .ready 0x2000 true ∧ Claims.atomic .add 0 1 0 ≠ none :=
  ⟨rfl, by decide, by decide, rfl, by unfold Claims.Tagged; decide, by decide⟩

/-! ## Records between the spaces, and the bytes of collectives -/

/-- COPY of two rows of 128 bytes from G to G, FILL of G, COPYB from G, and COPY from a bank to H. -/
def copyGG : RecordBits := 0x30 + 0x4000 * 2 ^ 64 + 127 * 2 ^ 116 + 0x6000 * 2 ^ 128 + 2 ^ 179 + 2 ^ 181 + 2 ^ 183 + 2 ^ 192 + 2 * 2 ^ 201
def fillG : RecordBits := 0x31 + 0x4000 * 2 ^ 64 + 2 ^ 115 + 127 * 2 ^ 192
def copybG : RecordBits := 0x32 + 0x4000 * 2 ^ 64 + 2 ^ 115 + 127 * 2 ^ 148

theorem witness_CopyRecordsMoveBytes_global : let s (b : RecordBits) := engSt .ce (recOf 9 .ce b) paged
    let d (b : RecordBits) := domW (running .ce (recOf 9 .ce b))
    let t (b : RecordBits) := running .ce (recOf 9 .ce b) tile0
    let p (a : Nat) : Place := ⟨a, ⟨0, 0, false⟩, true, true, false, some 0x1000⟩
    (s copyGG).At (d copyGG) (t copyGG) ∧ (s copyGG).memOk ∧ (t copyGG).current .ce = some (recOf 9 .ce copyGG) ∧
    resolveFor (s copyGG) (d copyGG) (t copyGG) false 0x4000 = .ok (p 0x4000) ∧ (s copyGG).sound [(0x4000, 128)] = true ∧
    resolveFor ((s copyGG).touchLeaf (p 0x4000) false) (d copyGG) (t copyGG) true 0x6000 = .ok (p 0x6000) ∧
    (((s copyGG).touchLeaf (p 0x4000) false).touchLeaf (p 0x6000) true).mergesSound [(0x6000, 128)] = true ∧
    pageTag (s copyGG) (d copyGG) (t copyGG) 0x4000 = ⟨0, 0, false⟩ ∧
    resolveFor (s fillG) (d fillG) (t fillG) true 0x4000 = .ok (p 0x4000) ∧
    resolveFor (s copybG) (d copybG) (t copybG) false 0x4000 = .ok (p 0x4000) :=
  ⟨⟨rfl, rfl⟩, (by decide : Memory.wf pageBytes = true), by decide +kernel⟩

theorem witness_CopyRecordsMoveBytes_fields : fieldAt copyGG 64 51 = 0x4000 ∧ fieldAt copyGG 128 51 = 0x6000 ∧ fieldAt copyGG 179 2 = 1 ∧
    fieldAt copyGG 181 2 = 1 ∧ fieldAt copyGG 116 12 + 1 = 128 ∧ fieldAt copyGG 183 6 + 1 = 2 ∧
    0x6000 % 128 + (fieldAt copyGG 116 12 + 1) ≤ 128 * fieldAt copyGG 201 9 ∧ 0 < (fieldAt copyGG 183 6 + 1) * ((0x6000 % 128 + 128 + 127) / 128) ∧
    fieldAt fillG 115 2 = 1 ∧ fieldAt fillG 192 19 + 1 = 128 ∧ fieldAt copybG 115 2 = 1 ∧ fieldAt copybG 118 6 + 1 = 1 ∧
    fieldAt copybG 142 6 + (fieldAt copybG 118 6 + 1) ≤ 64 ∧ fieldAt copybG 128 14 + (fieldAt copybG 148 14 + 1) ≤ 2 ^ 14 := by decide +kernel

/-- A GATHER of one row with one entry: its pointers, its column and its value stand in bank 3. -/
def gatherOne : RecordBits := 0x20 + 16 * 2 ^ 89 + 32 * 2 ^ 111 + 2 ^ 158
theorem witness_CopyRecordsMoveBytes_entries :
    let s := engSt .gu (recOf 9 .gu gatherOne) (fun s => { s with mem := [(locBank 0 3 4, 1), (locBank 0 3 16, 5), (locBank 0 3 32, 7)] })
    let t := running .gu (recOf 9 .gu gatherOne) tile0
    s.At (domW (running .gu (recOf 9 .gu gatherOne))) t ∧ t.current .gu = some (recOf 9 .gu gatherOne) ∧ s.memOk ∧ s.flawed = [] ∧
    t.wins.getD (fieldAt gatherOne 64 3) .empty = .att 3 ∧ t.wins.getD (fieldAt gatherOne 86 3) .empty = .att 3 ∧
    t.wins.getD (fieldAt gatherOne 108 3) .empty = .att 3 ∧ fieldAt gatherOne 130 14 + 1 = 1 ∧ fieldAt gatherOne 67 19 = 0 ∧
    fieldAt gatherOne 158 4 = 1 ∧ Claims.number s (locBank 0 3 0) 4 = 0 ∧ Claims.number s (locBank 0 3 (0 + 4 * 1)) 4 = 1 ∧
    (s.readByte (locBank 0 3 (fieldAt gatherOne 89 19 + 0))).toNat = 5 ∧ fieldAt gatherOne 111 19 + (0 * 4 + 4) ≤ 2 ^ 19 ∧
    fieldAt gatherOne 144 14 + 4 ≤ 2 ^ 14 :=
  ⟨⟨rfl, rfl⟩, by decide +kernel, (by decide +kernel : Memory.wf _ = true), by decide +kernel⟩

/-- AG, RS, A2A and BCAST over four bytes a block of two members, their destinations apart: window 0 of tile 0 and window 1
of tile 1. -/
def blockOf (kind win : Nat) : RecordBits := BitVec.ofNat 256 (kind + 2 ^ 64 + win * 2 ^ 94 + 1024 * 2 ^ 97 + 2 * 2 ^ 116 + 4 * 2 ^ 128)
theorem witness_ChorusAndCompletion_delivered : ∀ kind ∈ [0x40, 0x41, 0x42, 0x46],
    let x := running .ch { (recOf 9 .ch (blockOf kind 0)) with stage := .joined } tile0
    let y := running .ch { (recOf 9 .ch (blockOf kind 1)) with stage := .joined } { tile0 with lt := 1, idx := 1 }
    let ms := [(x, { (recOf 9 .ch (blockOf kind 0)) with stage := .joined }), (y, { (recOf 9 .ch (blockOf kind 1)) with stage := .joined })]
    (pairDom (blockOf kind 0) (blockOf kind 1)).members 1 0 = some ms ∧ x.wins.getD (fieldAt (blockOf kind 0) 94 3) .empty = .att 3 ∧
    y.wins.getD (fieldAt (blockOf kind 1) 94 3) .empty = .att 4 ∧
    (∀ z ∈ ms, z.1.wins.getD (fieldAt z.2.bits 72 3) .empty = .att 3 ∧ fieldAt z.2.bits 0 8 = kind ∧ fieldAt z.2.bits 128 24 = 4) ∧
    locBank 0 3 1024 + 8 ≤ locBank 0 4 1024 ∧
    collectiveFault (pairSt (blockOf kind 0) (blockOf kind 1)) (pairDom (blockOf kind 0) (blockOf kind 1)) 1 ms = none ∧
    ∀ m < 2, (received (pairSt (blockOf kind 0) (blockOf kind 1)) ms m (ms.getD m (x, recOf 9 .ch 0)).2).length ≤ 8 := by
  decide +kernel

/-- An arrival word that would merge with a granule failing its check. -/
theorem witness_ChorusAndCompletion_unsound : let s : State := { start with flawed := [(locBank 0 3 0 / 128, false)] }
    s.mergesSound [(locBank 0 3 0, 4)] = false := by decide +kernel

/-! ## Records of the host, handshakes, flits and formats -/

/-- Granules that pass, places that a link carries to, and the host's own memory with both links down. -/
theorem witness_TasksEndWithTheirRecord_reached : let s := paged start
    s.cutOff 0x2000 = false ∧ s.mergeSound (0x2000, 64) = true ∧ s.cutOff 0x4000 = false ∧ s.mergeSound (0x4000, 64) = true ∧
    start.cutOff (locHost 0x2000) = true := by decide

/-- A domain of cluster 0 that the quiesce alone halted, and one that a trap halted as well. -/
def quiesced (d : Domain) : Domain := { d with causes := [⟨0, 0, 8, 34, 0⟩] }
theorem witness_GatingHandshake_resumes : let s (f : Domain → Domain) := (svBeside f).updCluster 0 (fun c => { c with cpctl := 1, qack := true })
    let d := haltedDom quiesced
    ((s quiesced).cluster 0).wakepend = false ∧ ((s quiesced).cluster 0).rail ≠ .off ∧ d ∈ (s quiesced).domains ∧
    (s quiesced).onCluster d 0 = true ∧ d.phase = .halted ∧ d.parked = false ∧ (s quiesced).contextsHeld d = true ∧
    (∀ x ∈ d.causes, x.code = 34) ∧ (∀ x ∈ d.tiles, ∀ f ∈ x.flights, f.owed = false) ∧
    (∀ k ∈ (s quiesced).runsOn d, k = 0 ∨ ((s quiesced).cluster k).cpctl.getLsbD 0 = false) ∧
    ¬∀ x ∈ (haltedDom).causes, x.code = 34 := by decide +kernel

theorem witness_GatingHandshake_wake : let s := start.updCluster 0 (fun c => { c with rail := .off, cpctl := 0x10, wakepend := true })
    ((s.cluster 0).rail = .off ∨ (s.cluster 0).switching = some .off ∨ (s.cluster 0).wakepend = true) ∧
    ¬((s.cluster 0).wakepend = false ∧ (s.cluster 0).rail ≠ .off) := by decide

/-- A domain of one tile that binds bank 2, and the free banks that a task's windows share out. -/
theorem witness_LaunchesFlowThroughTheStream_bound : let t : Tile := { tile0 with wins := .att 2 :: List.replicate 7 .empty }
    let d : Domain := { dom0 with phase := .binding [0], tiles := [t] }
    let s : State := { start with domains := [d] }
    s.dom? s.cur.dom = some d ∧ d.phase = .binding [0] ∧ dieOf t.cluster = s.cur.die ∧ s.memOk ∧ t.idx < 4 ∧ t.cluster < 256 ∧
    (s.cluster t.cluster).banks.length = 16 ∧ (s.cluster t.cluster).tags.length = 16 ∧ (s.cluster t.cluster).loose = [] ∧
    t.bank? 0 = some 2 ∧ (∀ w < 8, w ≠ 0 → t.bank? w = none) ∧
    (∀ i ∈ (taskDesc d.pkt d.desc).images, i.2.2.1 + i.2.2.2.length ≤ 2 ^ 19) ∧ start.freeBanks 0 = List.range 16 :=
  ⟨rfl, by decide, by decide, (by decide : Memory.wf [] = true), by decide +kernel⟩

/-- Flits of a reserved network and of a reserved type, one that ends at its node, and one that writes a member. -/
theorem witness_RoutersLinksAndRegisters_flits : (0x3#128).toNat % 4 = 3 ∧ (0x2#128).toNat % 4 = 2 ∧ (0x2#128).toNat / 2 ^ 8 % 256 % 4 = 0 ∧
    (0x2#128).toNat / 2 ^ 8 % 256 / 4 % 8 = 0 ∧ (0x2#128).toNat / 2 ^ 8 % 256 / 32 = 0 ∧ (0x1000002#128).getLsbD 24 = true ∧
    (Config.typeReserved 0 = true ∨ Config.typeReserved 0 = false) ∧ start.memOk :=
  ⟨by decide, by decide, by decide, by decide, by decide, by decide, (Bool.eq_false_or_eq_true _), rfl⟩

/-- A boot that waits at stage 5 for a link, and one link up beside one that trains. -/
theorem witness_RoutersLinksAndRegisters_training : let s : State := { start with bootst := 5 }
    s.bootst.toNat % 256 = 5 ∧ (s.train 0 trained).linkUp 0 = true ∧ s.linkUp 0 = false ∧
    ({ start with lnkst := [4, 0], bootst := 9 } : State).linkUp 0 = true := by decide

/-- Granules of an aperture request that fail their check. -/
theorem witness_ApertureAndMailbox_flawed : let s : State := { (paged start) with flawed := [(0x5F, false)] }
    s.sound [(0x2FF8, 8)] = false ∧ s.mergeSound (0x2FF8, 8) = false ∧ (s.flawsIn [(0x2FF8, 8)]).length = 1 := by decide

theorem witness_ResetsAndRecovery_waking : let s := start.updCluster 0 (fun c => { c with wakepend := true })
    ¬((s.cluster 0).rail ≠ .off ∧ (s.cluster 0).wakepend = false) ∧ liveCluster (locBank 0 15 0x7FFFF) = some 0 := by decide

/-- 1.0 and 1.5 in the formats, and a zero. -/
theorem witness_FloatResultsRoundTheExactValueOnce : Claims.finite fp32F 0x3F800000 ∧ Claims.finite fp32F 0x3FC00000 ∧
    Claims.finite fp32F 0x80000000 ∧ Claims.finite fp64F 0x3FF0000000000000 ∧ Claims.finite fp16F 0x3C00 ∧ Claims.finite bf16F 0x3F80 ∧
    Claims.negative fp32F 0x80000000 = true ∧ Claims.real fp32F 0x3F800000 = 1 ∧ Claims.real fp32F 0x3FC00000 = 3 / 2 ∧
    Claims.real fp32F 0x80000000 = 0 ∧ Claims.real fp64F 0x3FF0000000000000 = 1 ∧ Claims.real fp16F 0x3C00 = 1 ∧
    Claims.real bf16F 0x3F80 = 1 := by
  refine ⟨by unfold Claims.finite; decide, by unfold Claims.finite; decide, by unfold Claims.finite; decide,
    by unfold Claims.finite; decide, by unfold Claims.finite; decide, by unfold Claims.finite; decide, by decide, ?_, ?_, ?_, ?_, ?_, ?_⟩ <;>
  norm_num [Claims.real, Claims.negative, Claims.magnitude, FpFormat.bias, zpow_neg, fp32F, fp64F, fp16F, bf16F, Nat.testBit, Nat.shiftRight_eq_div_pow]


/-! ## Clauses of spilled entries, cuts, races and flaws -/

/-- An empty stack whose one entry stands in the share; a register whose fetch a taken LEAP has fixed, beside another's. -/
theorem witness_TargetRegistersAreLoaded_spilled : let t : Tile := { tile0 with stack := [], spills := 1 }
    let u : Tile := { tile0 with
      decision := some ⟨true, 0x40⟩
      loader := [⟨0x40, .asked, .target 0⟩, ⟨0x80, .asked, .target 1⟩] }
    t.stack = [] ∧ t.spills ≠ 0 ∧ u.loader.filter (fun f => f.owner == .target 0) = [⟨0x40, .asked, .target 0⟩] ∧
    u.decision = some ⟨true, 0x40⟩ := by decide

/-- The packet's spill area in host memory, at 0x8000000000002000. -/
def spillingOut (d : Domain) : Domain := { d with pkt := d.pkt.take 52 ++ [32, 0, 0, 0, 0, 0x20, 0, 0, 0, 0, 0, 0x80] ++ d.pkt.drop 64 }

/-- An entry for host memory while no link is up, and one that would merge with a granule failing its check. -/
theorem witness_LeaplSpillsTheOldestEntry_waits : let t := leaper 8 0 tile0
    let d := domW (leaper 8) spillingOut
    let s := stW (leaper 8) spillingOut (fun s => { s with egress := [(3, 1, 0)] })
    let p : Place := ⟨locHost 0x2000, Tag.raw, true, false, false, none⟩
    let q : Place := ⟨0x2000, ⟨0, 0, false⟩, true, true, false, some 0x1000⟩
    let bad := stW (leaper 8) spilling (fun s => { (paged s) with flawed := [(0x40, false)] })
    s.At d t ∧ t.lt = s.cur.lt ∧ resolveFor s d t true 0x8000000000002000 = .ok p ∧ p.discarded = false ∧ s.cutOff p.loc = true ∧
    d.shareSlot t.lt t.spills = 0x8000000000002000 ∧ t.spills < field d.pkt 52 4 / (8 * d.tiles.length) ∧
    resolveFor bad (domW (leaper 8) spilling) t true 0x2000 = .ok q ∧ bad.cutOff q.loc = false ∧ bad.mergeSound (q.loc, 8) = false := by
  refine ⟨⟨rfl, rfl⟩, rfl, by rfl, rfl, by decide, by decide, by decide, by rfl, by decide, by decide⟩

/-- Tiles with cuts of a PFENCE, and cluster 0 with counted lines. -/
def cutting (f : Nat → List Cut) (ls : List Nat) : State := { (start.updCluster 0 (fun c => { c with counted := ls })) with
  domains := [{ dom0 with tiles := dom0.tiles.map (fun t => { t with wins := (.att 0) :: t.wins.tail, cuts := f t.lt }) }] }
def cutOf (sc : BitVec 4) (wide : Bool) : Cut := ⟨sc, wide, 3, 0⟩
/-- Tile 0 alone, every tile alike, tile 2 otherwise. -/
def alone (k : Nat) : List Cut := if k = 0 then [cutOf 4 false] else []
def alike (_ : Nat) : List Cut := [cutOf 4 true]
def differing (k : Nat) : List Cut := [cutOf (if k = 2 then 12 else 4) true]

theorem insertBy_length {α : Type} (le : α → α → Bool) (x : α) (l : List α) : (insertBy le x l).length = l.length + 1 := by
  induction l with
  | nil => rfl
  | cons y r ih => simp only [insertBy]; split <;> simp [ih]

theorem sortBy_length {α : Type} (le : α → α → Bool) (l : List α) : (sortBy le l).length = l.length := by
  induction l with
  | nil => rfl
  | cons y r ih => simp [sortBy, insertBy_length, ih]

/-- As many lines of bank 0 as are counted there. -/
theorem lines_of_bank (f : Nat → List Cut) (ls : List Nat) (n : Nat) (k : Nat) (hk : k < 4) :
    let d := (cutting f ls).domains.headD dom0
    (d.scopeIn (d.tiles.getD k tile0) 4 (List.replicate n (locBank 0 0 0))).length = n := by
  have hb : ∀ k < 4, let d := (cutting f ls).domains.headD dom0
      d.banksOf (d.tiles.getD k tile0) = [0] ∧ (d.tiles.getD k tile0).cluster = 0 := by
    intro k hk
    rcases (by omega : k = 0 ∨ k = 1 ∨ k = 2 ∨ k = 3) with rfl | rfl | rfl | rfl <;> exact ⟨rfl, rfl⟩
  have h := hb k hk
  simp only at h
  simp only [Domain.scopeIn, h, linesIn, rising]
  simp [scA, scB, scK, scT, sortBy_length, List.filter_replicate]

theorem witness_FenceCutsTakeTheirLines (f : Nat → List Cut) (hf : f = alone ∨ f = alike ∨ f = differing) (n : Nat) :
    let s := cutting f (List.replicate n (locBank 0 0 0))
    let d := s.domains.headD dom0
    let s0 := (s.countRecords 1).dropRecords 1
    s0.dom? 1 = some d ∧ d.tiles.map (fun t => t.lt) = List.range d.tiles.length ∧ s0.cluster 0 = s.cluster 0 := by
  rcases hf with rfl | rfl | rfl <;> exact ⟨rfl, rfl, rfl⟩

/-- One line more than fits is too many for a tile, and a quarter of that for each of four. -/
theorem witness_FenceCutsTakeTheirLines_limit (f : Nat → List Cut) (n : Nat) :
    let d := (cutting f []).domains.headD dom0
    let lines (k : Nat) := (d.scopeIn (d.tiles.getD k tile0) 4 (List.replicate n (locBank 0 0 0))).length
    (n = 15420 → 272 * lines 0 ≤ 4194304) ∧ (n = 15421 → 4194304 < 272 * lines 0) ∧
    (n = 3855 → 272 * lines 0 + 272 * lines 1 + 272 * lines 2 + 272 * lines 3 ≤ 4194304) ∧
    (n = 3856 → 4194304 < 272 * lines 0 + 272 * lines 1 + 272 * lines 2 + 272 * lines 3) := by
  have h := fun k hk => lines_of_bank f [] n k hk
  simp only at h
  simp only [h 0 (by decide), h 1 (by decide), h 2 (by decide), h 3 (by decide)]
  refine ⟨?_, ?_, ?_, ?_⟩ <;> rintro rfl <;> decide

theorem witness_FenceCutsTakeTheirLines_agree :
    (∀ t ∈ ((cutting alike []).domains.headD dom0).tiles, t.cuts = [cutOf 4 true]) ∧
    (∃ t ∈ ((cutting differing []).domains.headD dom0).tiles, t.cuts = [cutOf 12 true]) ∧
    (∃ t ∈ ((cutting differing []).domains.headD dom0).tiles, t.cuts = [cutOf 4 true]) ∧
    ((cutting alone []).domains.headD dom0).tiles.filter (fun t => t.cuts.length == 1) =
      ((cutting alone []).domains.headD dom0).tiles.take 1 := by decide +kernel

/-- Tile 0 with an open record of its CE that writes bank 0, or the bytes of an address range. -/
def racer (ws : List (Nat × Nat)) (d : Domain) : Domain := { d with
  evs := [{ (newEv dom0 tile0 .sq (.record .ce)) with id := 0, writes := ws }]
  nextId := 9 }
def racing (t : Tile) : Tile := { (accessor t) with recs := [recOf 0 .ce 0x31] }

theorem witness_BankAccessRacesAndFlaws : let w := [(locBank 0 0 0x7FF80, 128)]
    let d := domW racing (racer w)
    let t := racing tile0
    (stW racing (racer w)).At d t ∧ t.lt = start.cur.lt ∧ Claims.bankLegal t (t.sval (.s 1) + BitVec.ofNat 64 (128 * 0)) 128 0 ∧
    Claims.bankPlace t (t.sval (.s 1) + BitVec.ofNat 64 (128 * 0)) 0 = locBank 0 0 0x7FF80 ∧
    Claims.Races d t (Claims.accessEvent d t 0 spK w []) ∧ Claims.Races d t (Claims.accessEvent d t 0 spK [] w) ∧
    Claims.Races d t (Claims.accessEvent d t 0 spK w w) :=
  ⟨⟨rfl, rfl⟩, rfl, by unfold Claims.bankLegal; decide, by decide,
    ⟨_, List.Mem.head _, by decide, fun _ => rfl⟩, ⟨_, List.Mem.head _, by decide, fun _ => rfl⟩,
    ⟨_, List.Mem.head _, by decide, fun _ => rfl⟩⟩

/-- The granule at the accessed bytes fails its check, without and with an uncorrectable error. -/
theorem witness_BankAccessRacesAndFlaws_flawed : let t := accessor tile0
    let s := stW accessor id (fun s => { s with flawed := [(locBank 0 0 0x7FF80 / 128, false)] })
    let rs := (t.vval (.v 0)).map (fun w => (locBank 0 0 ((0x7FF80 + 4 * w.toNat) % 2 ^ 19), 4))
    s.At (domW accessor) t ∧ s.memOk ∧ Claims.bankPlace t (t.sval (.s 1)) 0 = locBank 0 0 0x7FF80 ∧
    s.sound [(locBank 0 0 0x7FF80, 128)] = false ∧ s.sound [(locBank 0 0 0x7FF80, 4)] = false ∧
    s.sound [(locBank 0 0 0x7FF80, 8)] = false ∧ s.mergeSound (locBank 0 0 0x7FF80, 4) = false ∧
    s.mergeSound (locBank 0 0 0x7FF80, 8) = false ∧ s.mergeSound (locBank 0 0 0x7FF80, 32) = false ∧
    Claims.Quiet s (domW accessor) t [(locBank 0 0 0x7FF80, 128), bankTag 0 0] ∧
    s.sound rs = false ∧ ∃ r ∈ rs, s.mergeSound r = false :=
  ⟨⟨rfl, rfl⟩, (rfl : Memory.wf [] = true), by decide, by decide, by decide, by decide, by decide, by decide, by decide,
    by unfold Claims.Quiet; decide, by decide +kernel, by decide +kernel⟩

/-- Global accesses of tile 0 at 0: beside an open record that writes there, and less than Vg after one of another class. -/
theorem witness_GlobalAccessRaces : let w := [(0, 128)]
    let d := domW racing (racer w)
    let s := stW racing (racer w) paged
    let t := racing tile0
    let next : Domain := { d with nextId := d.nextId + 1 }
    s.At d t ∧ t.lt = s.cur.lt ∧ d.sup = false ∧ Claims.globalGood s d (t.sval (.s 0) + BitVec.ofNat 64 (128 * 0)) 128 true ∧
    globalRanges s d t true (t.sval (.s 0) + BitVec.ofNat 64 (128 * 0)) 128 = w ∧
    Claims.Races next t (Claims.accessEvent next t 0 spG [] w) ∧ Claims.Races next t (Claims.accessEvent next t 0 spG w []) :=
  ⟨⟨rfl, rfl⟩, rfl, rfl, by unfold Claims.globalGood; decide, by decide, ⟨_, List.Mem.head _, by decide, fun _ => rfl⟩,
    ⟨_, List.Mem.head _, by decide, fun _ => rfl⟩⟩

theorem witness_GlobalAccessRaces_near : let p : Ev := { (newEv dom0 tile0 .ls .access) with id := 0, cls := some 1, spaces := spG, writes := [(0, 8)] }
    let next : Domain := { dom0 with evs := [p], nextId := 10 }
    let e := Claims.accessEvent next tile0 0 spG [] [(0, 128)]
    p.isAccess = true ∧ p.lt = tile0.lt ∧ p.id ≠ 10 ∧ p.spaces &&& (spG ||| spH) ≠ 0 ∧ next.dtick < p.tick + next.vg ∧
    conflicts p e = true ∧ ∀ ids, (next.addEv { e with after := ids }).ordered p e = false :=
  ⟨by decide, by decide, by decide, by decide, by decide, by decide, fun _ => rfl⟩

/-- The spill shares of tiles 0 and 1, at 0x2000 and 0x2008. -/
theorem witness_GlobalAccessRaces_shares : let t : Tile := { tile0 with s := [0, 0x2000, 0x2008] ++ tile0.s.drop 3 }
    let d := domW (fun _ => t) spilling
    let s := stW (fun _ => t) spilling paged
    s.At d t ∧ Claims.globalGood s d (t.sval (.s 1)) 8 true ∧ Claims.globalGood s d (t.sval (.s 2)) 8 true ∧
    (∃ y ∈ shareRanges s d, y.1 = t.lt ∧ rangesMeet (globalRanges s d t true (t.sval (.s 1)) 8) [y.2] = true) ∧
    ∃ lt, lt ≠ t.lt ∧ ∃ y ∈ shareRanges s d, y.1 = lt ∧ rangesMeet (globalRanges s d t true (t.sval (.s 2)) 8) [y.2] = true :=
  ⟨⟨rfl, rfl⟩, by unfold Claims.globalGood; decide, by unfold Claims.globalGood; decide,
    ⟨(0, 0x2000, 8), by decide⟩, 1, by decide, (1, 0x2008, 8), by decide⟩

/-- STS.E of the lanes of a signalling NaN, with NV enabled. -/
theorem witness_TaggedAccessesConvert_enabled : let g (t : Tile) : Tile := { (accessor t) with
      v := t.v.take 1 ++ List.replicate 32 0x7F800001 :: t.v.drop 2
      trapen := fNV }
    let t := g tile0
    let s := stW g id (tagged 3)
    s.At (domW g) t ∧ Claims.Tagged ((s.cluster 0).tags.getD 0 ⟨0, 0, false⟩) 3 ∧
    ((t.vval (.v 1)).map (Claims.toElement 3)).length = 32 ∧
    t.trapen &&& orFlags (((t.vval (.v 1)).map (Claims.toElement 3)).map (fun e => e.2)) ≠ 0 :=
  ⟨⟨rfl, rfl⟩, by unfold Claims.Tagged; decide, by decide, by decide⟩

/-- A held translation without W, its page discarded or not, whose leaf's granule fails its check or not. -/
theorem witness_GlobalRequestsAreServed_discarded : let g := request .store 0x2000 .asked
    let e (w : W64) : TlbEntry := ⟨stationOf 0x2000, 0, 0, 2 ^ 32, 0x1000, w⟩
    let s (w : W64) : State := stW id (asking g) (fun s => (paged s).updDie 0 (fun q => { q with tlb := [e w] }))
    let bad : State := { (s 0x507) with flawed := [(0x20, false)] }
    tlbFind ((s 0x501).die 0).tlb 0 0x2000 = some (e 0x501) ∧ leafW 0x501 = false ∧ leafD 0x501 = false ∧ leafD 0x509 = true ∧
    leafW 0x509 = false ∧ (domW id (asking g)).relaxed = true ∧ leafM 0x507 = false ∧ (s 0x507).mergeSound (0x1000, 1) = true ∧
    bad.mergeSound (0x1000, 1) = false := by decide

/-- A race at the vault, unordered: its access is still pending, has been performed, or was issued in the very tick. -/
theorem witness_HoldsDeadlinesAndHalts_check :
    let a : Ev := { (newEv dom0 tile0 .ls .access) with id := 1 }
    let b : Ev := { a with id := 2, lt := 1 }
    let x : Deferred := ⟨16, 0, 3, 18, 5, 0, some [(1, 2)]⟩
    let g (st : GStage) : GOp := { (request .load 0x2000 st) with id := 0 }
    let d (n : Nat) (st : GStage) : Domain := { dom0 with evs := [a, b], dtick := n, gops := [g st], deferred := [x] }
    (d 20 .done).deferred = [] ++ x :: [] ∧ x.tick ≤ (d 20 .done).dtick ∧ (d 20 .done).checkDone 20 (d 20 .done).gops x = true ∧
    (d 20 .asked).checkDone 20 (d 20 .asked).gops x = false ∧ (d 0 .done).checkDone 0 (d 0 .done).gops x = false := by decide

/-- A spilled entry whose granule fails its check. -/
theorem witness_BlocksAreFetchedAndEntered_unsound : let g (t : Tile) : Tile := { t with spills := 1, refill := 1 }
    let d := domW g spilling
    let s := stW g spilling (fun s => { (paged s) with flawed := [(0x40, false)] })
    let p : Place := ⟨0x2000, ⟨0, 0, false⟩, true, true, false, some 0x1000⟩
    s.At d (g tile0) ∧ resolveFor s d (g tile0) false 0x2000 = .ok p ∧ d.shareSlot 0 0 = 0x2000 ∧ p.discarded = false ∧
    s.sound [(p.loc, 8)] = false := ⟨⟨rfl, rfl⟩, by rfl, by decide, by decide, by decide⟩

/-- A window that BFREE has left: of the halted context of cluster 0, and of a tile with none. -/
theorem witness_SupervisorBankWords_detached :
    let f (d : Domain) : Domain := { d with tiles := d.tiles.modify 0 (fun t => { t with wins := .att 3 :: t.wins.tail }) }
    let s : State := { (svBeside f) with cur := ⟨1, 0, .sq, .me, 0, 0, 0⟩ }
    let l : State := { (svStart (fun s => s.updCluster 0 (fun c => { c with loose := [(0, 0, .att 3)] }))) with cur := ⟨1, 0, .sq, .me, 16, 0, 0⟩ }
    s.winAt s.cur.cluster s.cur.lt s.cur.item = .att 3 ∧ s.cur.item < 16 ∧
    (∃ u, s.contextOn 0 0 false = some (haltedDom f, u) ∧ s.dom? (haltedDom f).seq = some (haltedDom f) ∧
      (haltedDom f).tile? u.lt = some u) ∧
    l.winAt l.cur.cluster l.cur.lt l.cur.item = .att 3 ∧ 16 ≤ l.cur.item ∧ s.bankFree 0 15 = true ∧
    ({ s with domains := s.domains.map (fun d => { d with phase := .lost }) } : State).bankFree 0 3 = false :=
  ⟨by decide, by decide, ⟨_, rfl, rfl, rfl⟩, by decide, by decide, by decide, by decide⟩

/-- A cut-off place of a struck host: cluster 8, which hosts the fused cluster 0. -/
theorem witness_ResetsAndRecovery_hosted : let s : State := { start with fused := [0] }
    0 ∈ s.fused ∧ hostNode s.fused 0 = some 8 ∧ 8 ∉ s.fused ∧ (s.cluster 8).rail ≠ .off ∧ (s.cluster 8).wakepend = false := by decide

/-- A durable epoch of a domain, confirmed in cluster 0, and one whose journal is applied: a line of bank 0, far from the seals. -/
theorem witness_EpochsBecomeDurable_applied : let e : Epoch := { epoch0 with domain := true, stage := .committed }
    let s (c : Nat) := (start.updCluster 0 (fun k => { k with epochs := [e] })).seatOf c
    s 0 = 0 ∧ s 0 < 208 ∧ (∀ p ∈ e.parts, p.tile < 4) ∧ (e.parts.map (fun p => p.lines.length + 68)).sum ≤ 2 ^ 20 ∧
    e.parts.map (fun p => p.recordLines) = [[some (locBank 0 0 0)]] ∧ locBank 0 0 0 + 256 ≤ 7 * 2 ^ 48 := by decide

/-- A part of a copy whose first bytes the record holds, and one that holds nothing. -/
theorem witness_CopyRecordsMoveBytes_held : let r : Rec := { (recOf 9 .ce 0x30) with held := some (0x4000, [0, 1, 2, 3, 4, 5, 6, 7]) }
    (∀ u ws, r.held = some (u, ws) → ws.length = 8) ∧ Claims.unitByte r 0x4002 0 9 = 2 ∧ Claims.unitByte r 0x4002 6 9 = 9 ∧
    Claims.unitByte r 0x4000 0 9 = 9 ∧ (recOf 9 .ce 0x30).held = none :=
  ⟨fun u ws h => by cases h; rfl, by decide, by decide, by decide, rfl⟩

/-- Matrix elements: a NaN, infinities of one sign and of both, and a sum that is zero. -/
theorem witness_MatrixElementsFollowTheirShape : let x : Fp := .num false 3 0
    (matrixElement 0 [.nan true 1] [x, .nan false 2]).1 = 0x7FC00002 ∧ matrixElement 1 [x] [.inf true, x] = (0xFF800000, 0, 0) ∧
    matrixElement 2 [x] [.inf true, .inf false] = (0x7FC00000, 0, fNV) ∧ Claims.worth x + Claims.worth (.num true 3 0) = 0 ∧
    scaleOf 0x7F = .bad ∧ scaleOf 0x80 = .bad ∧ (127 ≤ 127 ∧ ¬127 ≤ 126) := by
  refine ⟨by decide, by decide, by decide, ?_, by decide, by decide, by decide⟩
  norm_num [Claims.worth]

/-- Special operands: quiet and signalling NaNs, infinities, zeros; and an order of numbers. -/
theorem witness_FloatResultsRoundTheExactValueOnce_special :
    fp32F.infBits < 0x7F800001 % 2 ^ (8 + 23) ∧ 0x7F800001 % 2 ^ 23 < 2 ^ 22 ∧ ¬0x7FC00000 % 2 ^ 23 < 2 ^ 22 ∧
    0xFF800000 % 2 ^ 31 = fp32F.infBits ∧ Claims.negative fp32F 0xFF800000 = true ∧ 0x80000000 % 2 ^ 31 = 0 ∧
    Claims.real fp32F 0x3F800000 < Claims.real fp32F 0x3FC00000 ∧ Claims.real fp32F 0xBF800000 = -1 ∧
    Claims.real fp32F 0xBFC00000 < -1 := by
  refine ⟨by decide, by decide, by decide, by decide, by decide, by decide, ?_, ?_, ?_⟩ <;>
  norm_num [Claims.real, Claims.negative, Claims.magnitude, FpFormat.bias, zpow_neg, fp32F, Nat.testBit, Nat.shiftRight_eq_div_pow]

end Sys2Proof.Tests
end

section
/-!
REFUTATION of O36. LDA acknowledges the records that wrote its half-row by their identifier: two records of one identifier
take the acknowledgement of whichever is acknowledged last, so that a closed one can open again, and the read then races it.
-/

namespace Sys2Proof.SharedRecordId

open Sys2Proof Sys2Proof.Machine

/-- A completed ME record that wrote half-row 0 of accumulator 0, its acknowledgement set one tick ahead of tick 1. -/
def writer : Rec where
  id := 5
  eng := .me
  tick := 0
  bits := 0
  lay1 := 0
  lay2 := 0
  guard := none
  resolved := some 0
  stage := .complete
  flags := 0
  fault := none
  told := false
  ack := some 2
  reads := []
  writes := [(locAcc 0 0 false 0, 256)]
  coll := 0
  progress := 0
  ev := 0

/-- A record of the same identifier, acknowledged and told at tick 0: it is closed. -/
def closed : Rec := { writer with told := true, ack := some 0, writes := [], ev := 1 }

def tile : Tile := { placedTile 0 0 (placedBlock .ls []) 0 with recs := [writer, closed] }

/-- The closed record's event, a write of the half-row. -/
def event : Ev := { newEv (placedDomain false .ls []) tile .ls (.record .me) with
  id := 1, spaces := spA, writes := [(locAcc 0 0 false 0, 256)] }

def domain : Domain := { placedDomain false .ls [] with tiles := [tile], dtick := 1, evs := [event], nextId := 2 }

def state : State := { State.reset with domains := [domain], cur := ⟨1, 0, .ls, .me, 0, 0, 0⟩ }

/-- LDA of the sum words of half-row 0, row 0, accumulator 0. -/
def word : Instr := .lda 0 0 (.c 0) .sum false

/-- The causes that suppress the results under way in the tile of an answer. -/
def suppressing : Out → List Nat
  | .next s => (s.tile?.map (fun t => t.flights.map (fun f => f.cause))).getD []
  | .fault _ => []
  | .refused _ => []

theorem suppressing_of_at {s : State} {d : Domain} {t : Tile} (h : s.At d t) :
    suppressing (.next s) = t.flights.map (fun f => f.cause) := by
  simp [suppressing, State.tile?, h.1, h.2]

/-- Nothing open meets the half-row before the read. -/
theorem quiet : Claims.Quiet state domain tile [(locAcc 0 0 false 0, 256)] := by
  unfold Claims.Quiet
  decide

/-- The acknowledgement of `writer` opens `closed` again, and the read's result is suppressed by the footprint fault. -/
theorem word_suppressed : suppressing (exec word state) = [18] := by decide

/-- Refutes O36: in a tile with two records of one identifier, the acknowledgement that LDA makes opens the closed one
again; its event meets the half-row, and the result of the read is suppressed though nothing open met it before. -/
theorem not_accumulatorWordsMove : ¬ Obligations.AccumulatorWordsMove := by
  unfold Obligations.AccumulatorWordsMove
  intro h
  obtain ⟨hload, -, -⟩ := h state domain tile ⟨rfl, rfl⟩ rfl rfl 0 0 (.c 0) (.c 0) .sum false
  obtain ⟨s', hexec, -, d', t', x, hat, -, -, hflights, -⟩ := hload (by decide) (by decide)
  have hcauses : suppressing (exec word state) = [0] := by
    rw [word, hexec, suppressing_of_at hat, hflights quiet]
    rfl
  exact absurd (word_suppressed.symm.trans hcauses) (by decide)

end Sys2Proof.SharedRecordId
end

section
/-!
SUPPORT. What the ordering model reads of a domain, and that races and order depend on nothing else: an access may thus be
checked after its own result or store has entered the state.
-/

namespace Sys2Proof.Access

open Sys2Proof Sys2Proof.Machine Sys2Proof.Laws

/-! ## What the order of events depends on -/

/-- The part of a tile that happens-before reads. -/
def ordView (t : Tile) : Nat × List Rec × List (List SemOp) := (t.lt, t.recs, t.sems)

/-- Two domains whose events, records and semaphores are the same. -/
structure SameOrder (d x : Domain) : Prop where
  seq : x.seq = d.seq
  evs : x.evs = d.evs
  nextId : x.nextId = d.nextId
  dtick : x.dtick = d.dtick
  pkt : x.pkt = d.pkt
  tiles : x.tiles.map ordView = d.tiles.map ordView

variable {d x y : Domain}

theorem SameOrder.refl (d : Domain) : SameOrder d d := ⟨rfl, rfl, rfl, rfl, rfl, rfl⟩

theorem SameOrder.trans (h : SameOrder d x) (k : SameOrder x y) : SameOrder d y :=
  ⟨k.seq.trans h.seq, k.evs.trans h.evs, k.nextId.trans h.nextId, k.dtick.trans h.dtick, k.pkt.trans h.pkt,
    k.tiles.trans h.tiles⟩

theorem SameOrder.vg (h : SameOrder d x) : x.vg = d.vg := by
  unfold Domain.vg Domain.wide Domain.shape
  rw [h.pkt]

theorem SameOrder.addEv (h : SameOrder d x) (e : Ev) : SameOrder (d.addEv e) (x.addEv e) := by
  refine ⟨h.seq, ?_, ?_, h.dtick, h.pkt, h.tiles⟩
  · simp only [Domain.addEv, h.evs, h.nextId]
  · simp only [Domain.addEv, h.nextId]

/-- A tile's replacement shows in no view that the change leaves. -/
theorem map_upd {α β : Type} (g : α → β) (l : List α) (i : Nat) (f : α → α) (hf : ∀ a, l[i]? = some a → g (f a) = g a) :
    (upd l i f).map g = l.map g := by
  refine List.ext_getElem? (fun j => ?_)
  rw [List.getElem?_map, List.getElem?_map, upd_getElem?]
  split
  · next hij =>
    subst hij
    cases hl : l[i]? with
    | none => rfl
    | some a => simp [hf a hl]
  · rfl

theorem sameOrder_updTile (d : Domain) (lt : Nat) (f : Tile → Tile)
    (hf : ∀ t, d.tile? lt = some t → ordView (f t) = ordView t) : SameOrder d (d.updTile lt f) :=
  ⟨rfl, rfl, rfl, rfl, rfl, map_upd ordView d.tiles lt f hf⟩

theorem sameOrder_addCause (d : Domain) (c : Cause) (a : W64) : SameOrder d (d.addCause c a) := by
  have h : SameOrder d { d with causes := d.causes ++ [c] } := ⟨rfl, rfl, rfl, rfl, rfl, rfl⟩
  unfold Domain.addCause
  dsimp only
  split
  · exact h.trans (sameOrder_updTile _ _ _ (fun _ _ => rfl))
  · exact h

theorem sameOrder_raise (d : Domain) (c : Cause) (a : W64) : SameOrder d (d.raise c a) :=
  have h := sameOrder_addCause d c a
  ⟨h.seq, h.evs, h.nextId, h.dtick, h.pkt, h.tiles⟩

theorem SameOrder.tile? (h : SameOrder d x) (k : Nat) : (x.tile? k).map ordView = (d.tile? k).map ordView := by
  simp only [Domain.tile?, ← List.getElem?_map, h.tiles]

/-- The record of an event is the same in both, with a tile of the same view. -/
theorem SameOrder.recOf (h : SameOrder d x) (e : Ev) :
    (x.recOf e).map (fun p => (ordView p.1, p.2)) = (d.recOf e).map (fun p => (ordView p.1, p.2)) := by
  have ht := h.tile? e.lt
  unfold Domain.recOf
  split
  · rfl
  · cases hx : x.tile? e.lt <;> cases hd : d.tile? e.lt <;> simp only [hx, hd, Option.map_none, Option.map_some,
      Option.some.injEq, reduceCtorEq] at ht
    · rfl
    · next t u =>
      have hrecs : t.recs = u.recs := congrArg (fun p => p.2.1) ht
      simp only [Option.bind_some, hrecs, Option.map_map]
      exact congrArg (fun f => Option.map f _) (funext fun r => by simp [ht])

theorem waitedFor_of_view {t u : Tile} (h : ordView t = ordView u) (now : Nat) (r : Rec) :
    t.waitedFor now r = u.waitedFor now r := by
  obtain ⟨hlt, -, hsems⟩ : t.lt = u.lt ∧ t.recs = u.recs ∧ t.sems = u.sems := by simpa [ordView] using h
  simp only [Tile.waitedFor, Tile.sem, hlt, hsems]

theorem collIdx_of_view {t u : Tile} (h : ordView t = ordView u) (r : Rec) : t.collIdx r = u.collIdx r := by
  have hrecs : t.recs = u.recs := congrArg (fun p => p.2.1) h
  simp only [Tile.collIdx, hrecs]

/-- A record of an event in one is that record in the other, on a tile of the same view. -/
theorem SameOrder.recOf_cases (h : SameOrder d x) (e : Ev) :
    (x.recOf e = none ∧ d.recOf e = none) ∨
      ∃ t u r, x.recOf e = some (t, r) ∧ d.recOf e = some (u, r) ∧ ordView t = ordView u := by
  have hr := h.recOf e
  rcases hx : x.recOf e with _ | ⟨t, r⟩ <;> rcases hd : d.recOf e with _ | ⟨u, q⟩ <;>
    simp only [hx, hd, Option.map_none, Option.map_some, Option.some.injEq, Prod.mk.injEq, reduceCtorEq] at hr
  · exact .inl ⟨rfl, rfl⟩
  · obtain ⟨hv, rfl⟩ := hr
    exact .inr ⟨t, u, r, rfl, rfl, hv⟩

theorem SameOrder.semOrder (h : SameOrder d x) (a b : Ev) : x.semOrder a b = d.semOrder a b := by
  unfold Domain.semOrder
  obtain ⟨hx, hd⟩ | ⟨t, u, r, hx, hd, hv⟩ := h.recOf_cases b
  · simp only [hx, hd]
  · simp only [hx, hd, h.dtick, waitedFor_of_view hv]

theorem SameOrder.grpOrder (h : SameOrder d x) (a b : Ev) : x.grpOrder a b = d.grpOrder a b := by
  unfold Domain.grpOrder
  cases b.kind with
  | arrival o =>
    obtain ⟨hxa, hda⟩ | ⟨t, u, r, hxa, hda, hv⟩ := h.recOf_cases a
    · simp only [hxa, hda]
    · obtain ⟨hxb, hdb⟩ | ⟨t', u', r', hxb, hdb, hv'⟩ := h.recOf_cases b
      · simp only [hxa, hda, hxb, hdb]
      · simp only [hxa, hda, hxb, hdb, collIdx_of_view hv, collIdx_of_view hv']
  | _ => rfl

theorem SameOrder.edge (h : SameOrder d x) (lt cl : Nat) (a b : Ev) : x.edge lt cl a b = d.edge lt cl a b := by
  simp only [Domain.edge, h.evs, h.semOrder, h.grpOrder, h.vg]

theorem SameOrder.hbBack (h : SameOrder d x) (lt cl : Nat) (fuel : Nat) : ∀ seen front : List Ev,
    x.hbBack lt cl fuel seen front = d.hbBack lt cl fuel seen front := by
  induction fuel with
  | zero => exact fun _ _ => rfl
  | succ n ih =>
    intro seen front
    simp only [Domain.hbBack, h.evs, h.edge, ih]

theorem SameOrder.ordered (h : SameOrder d x) (a b : Ev) : x.ordered a b = d.ordered a b := by
  simp only [Domain.ordered, Domain.hb, h.evs, h.hbBack]

theorem SameOrder.races (h : SameOrder d x) (r : Rec) (e : Ev) : x.races r e = d.races r e := by
  simp only [Domain.races, Domain.recEvs, h.evs, h.ordered]

/-- A tile in the one domain stands in the other with the same view. -/
theorem SameOrder.exists_tile (h : SameOrder d x) {t : Tile} (ht : t ∈ x.tiles) :
    ∃ u ∈ d.tiles, u.lt = t.lt ∧ u.recs = t.recs := by
  have hm : ordView t ∈ d.tiles.map ordView := h.tiles ▸ List.mem_map_of_mem ht
  obtain ⟨u, hu, hv⟩ := List.mem_map.1 hm
  exact ⟨u, hu, congrArg Prod.fst hv, congrArg (fun p => p.2.1) hv⟩

theorem SameOrder.symm (h : SameOrder d x) : SameOrder x d :=
  ⟨h.seq.symm, h.evs.symm, h.nextId.symm, h.dtick.symm, h.pkt.symm, h.tiles.symm⟩

end Sys2Proof.Access
end

section
/-!
SUPPORT. The spill shares as an access sees them: whatever an access has stored or repaired in the same tick, a share that
it did not meet before lies in HBM, below every bank and tag.
-/

namespace Sys2Proof.Access

open Sys2Proof Sys2Proof.Machine Sys2Proof.Laws

variable {s s₁ : State} {d : Domain}

theorem pageSize_le (sz : Nat) : 0 < pageSize sz ∧ pageSize sz ≤ 2 ^ 32 := by
  unfold pageSize
  split <;> omega

/-- The page of a finished walk holds the address. -/
theorem walkFrom_page (s : State) (die key va : Nat) (mode : WalkMode) (fuel level pa : Nat) {l b n : Nat} {e : W64}
    (h : walkFrom s die key va mode fuel level pa = .ok l e b n) : ∃ sz, b = va / pageSize sz * pageSize sz := by
  induction fuel generalizing level pa with
  | zero => simp [walkFrom] at h
  | succ k ih =>
    simp only [walkFrom] at h
    split at h <;> try cases h
    split at h <;> try cases h
    split at h <;> try cases h
    split at h <;> try cases h
    split at h
    · exact ih _ _ h
    · split at h <;> try cases h
      split at h <;> cases h
      exact ⟨_, rfl⟩

/-- A physical address in a page is below 2^49 + 2^38. -/
theorem leafPa_lt (e : W64) (o : Nat) (h : o < 2 ^ 32) : leafPa e o < 2 ^ 49 + 2 ^ 38 := by
  have hp : leafPpn e < 2 ^ 37 := (e.extractLsb' 20 37).isLt
  unfold leafPa
  split
  · dsimp only
    omega
  · omega

/-- A page piece of an address that the module's own memory serves ends below the banks. -/
theorem resolve_hbm {key m : Nat} {mode : WalkMode} {wr : Bool} {va : W64} {p : Place}
    (h : resolve s key m mode wr va = .ok p) (ho : ownerOf va < 4) : p.loc + 4096 ≤ region 3 := by
  unfold resolve at h
  dsimp only at h
  split at h
  · cases h
  · split at h
    · next l e b n hw =>
      split at h
      · cases h
      · obtain ⟨sz, rfl⟩ := walkFrom_page _ _ _ _ _ _ _ _ hw
        cases h
        have hs := pageSize_le sz
        have hd := Nat.div_add_mod' (lowAddr va) (pageSize sz)
        have hm := Nat.mod_lt (lowAddr va) hs.1
        have := leafPa_lt e (lowAddr va - lowAddr va / pageSize sz * pageSize sz) (by omega)
        dsimp only [locHbm, region]
        omega
    · cases h

/-- Host and peer addresses lead where the egress windows and master rights say, whatever memory holds. -/
theorem resolve_far {va : W64} (he : s₁.egress = s.egress) (hm : s₁.macl = s.macl) (ho : ¬ownerOf va < 4)
    (key m : Nat) (mode : WalkMode) (wr : Bool) : resolve s₁ key m mode wr va = resolve s key m mode wr va := by
  unfold resolve spegr
  rw [he, hm]
  simp only [if_neg ho]

theorem locRanges_kept (he : s₁.egress = s.egress) (hm : s₁.macl = s.macl) (d : Domain) (t : Tile) (wr : Bool) (fuel : Nat) :
    ∀ (va : W64) (len : Nat), ∀ r ∈ locRanges s₁ d t wr fuel va len,
      r ∈ locRanges s d t wr fuel va len ∨ r.1 + r.2 ≤ region 3 := by
  induction fuel with
  | zero => intro va len r hr; cases hr
  | succ k ih =>
    intro va len r hr
    simp only [locRanges] at hr ⊢
    split at hr
    · cases hr
    · next hlen =>
      rw [if_neg hlen]
      rcases List.mem_append.1 hr with hr | hr
      · by_cases ho : ownerOf va < 4
        · split at hr
          · next p hp =>
            have := resolve_hbm hp ho
            rw [List.mem_singleton.1 hr]
            exact .inr (by dsimp only; omega)
          · cases hr
        · rw [resolveFor, resolve_far he hm ho] at hr
          exact .inl (List.mem_append_left _ hr)
      · exact (ih _ _ r hr).imp (List.mem_append_right _) id

/-- A spill share after a change of memory was one before, or lies below the banks. -/
theorem shareRanges_kept (he : s₁.egress = s.egress) (hm : s₁.macl = s.macl) (d : Domain) :
    ∀ y ∈ shareRanges s₁ d, y ∈ shareRanges s d ∨ y.2.1 + y.2.2 ≤ region 3 := by
  intro y hy
  unfold shareRanges at hy ⊢
  split at hy
  · cases hy
  · next hn =>
    rw [if_neg hn]
    obtain ⟨t, ht, hy⟩ := List.mem_flatMap.1 hy
    obtain ⟨r, hr, rfl⟩ := List.mem_map.1 hy
    exact (locRanges_kept he hm d t true _ _ _ r hr).imp
      (fun h => List.mem_flatMap.2 ⟨t, ht, List.mem_map_of_mem h⟩) id

/-! ## Ranges that meet -/

theorem rangesMeet_iff {a b : List (Nat × Nat)} : rangesMeet a b = true ↔ ∃ x ∈ a, ∃ y ∈ b, rangeMeets x y = true := by
  simp [rangesMeet]

/-- Part of ranges that meet nothing meets nothing. -/
theorem rangesMeet_mono {a a' b b' : List (Nat × Nat)} (ha : ∀ x ∈ a', x ∈ a) (hb : ∀ y ∈ b', y ∈ b)
    (h : rangesMeet a b = false) : rangesMeet a' b' = false := by
  rw [Bool.eq_false_iff] at h ⊢
  intro hm
  obtain ⟨x, hx, y, hy, hxy⟩ := rangesMeet_iff.1 hm
  exact h (rangesMeet_iff.2 ⟨x, ha x hx, y, hb y hy, hxy⟩)

/-- Ranges from the banks up meet no range below them. -/
theorem rangesMeet_below {a : List (Nat × Nat)} {r : Nat × Nat} (ha : ∀ x ∈ a, region 3 ≤ x.1) (hr : r.1 + r.2 ≤ region 3) :
    rangesMeet a [r] = false := by
  rw [Bool.eq_false_iff]
  intro hm
  obtain ⟨x, hx, y, hy, hxy⟩ := rangesMeet_iff.1 hm
  have := ha x hx
  rw [List.mem_singleton.1 hy] at hxy
  simp only [rangeMeets, Bool.and_eq_true, decide_eq_true_eq] at hxy
  omega

theorem region_le_locBank (cl b ofs : Nat) : region 3 ≤ locBank cl b ofs := by
  unfold locBank; omega

theorem region_le_bankTag (cl b : Nat) : region 3 ≤ (bankTag cl b).1 := by
  unfold bankTag locTag region; omega

/-- Events that meet no byte of an event conflict with it in none. -/
theorem conflicts_of_apart {p e : Ev} {rs : List (Nat × Nat)} (he : ∀ r ∈ e.reads ++ e.writes, r ∈ rs)
    (h : rangesMeet (p.reads ++ p.writes) rs = false) : conflicts p e = false := by
  have hw : ∀ r ∈ raceWrites p e, r ∈ p.reads ++ p.writes := by
    intro r hr
    unfold raceWrites at hr
    split at hr
    · exact List.mem_append_right _ (List.mem_of_mem_filter hr)
    · exact List.mem_append_right _ hr
  have hv : ∀ r ∈ raceWrites e p, r ∈ rs := by
    intro r hr
    unfold raceWrites at hr
    split at hr
    · exact he r (List.mem_append_right _ (List.mem_of_mem_filter hr))
    · exact he r (List.mem_append_right _ hr)
  simp only [conflicts, rangesMeet_mono hw hv h, rangesMeet_mono (fun r hr => List.mem_append_right _ hr)
    (fun r hr => he r (List.mem_append_left _ hr)) h, rangesMeet_mono (fun r hr => List.mem_append_left _ hr)
    (fun r hr => he r (List.mem_append_right _ hr)) h, Bool.or_self]

end Sys2Proof.Access
end

section
/-!
SUPPORT. What the check of a column access comes to (06 R157): with nothing open that it meets, its event is recorded and
nothing else happens; with a record that it races, the footprint fault is recorded and the word's result suppressed.
-/

namespace Sys2Proof.Access

open Sys2Proof Sys2Proof.Machine Sys2Proof.Laws

variable {s s₁ : State} {d d₁ : Domain} {t t₁ u : Tile}

/-! ## A cause at its tile -/

/-- The tile of a cause once it is recorded: its first address stands (15 R386). -/
def marked (d : Domain) (c : Cause) (a : W64) (t : Tile) : Tile :=
  if addressCause c.code && !d.causes.any (fun o => o.lt == c.lt && addressCause o.code) then { t with faddr := a } else t

theorem tile?_raise (d : Domain) (c : Cause) (a : W64) (h : d.tile? c.lt = some t) :
    (d.raise c a).tile? c.lt = some (marked d c a t) := by
  show (d.addCause c a).tile? c.lt = _
  unfold Domain.addCause marked
  dsimp only
  split
  · rw [tile?_updTile, if_pos rfl]
    exact congrArg _ h
  · exact h

theorem marked_restored (d : Domain) (c : Cause) (a : W64) (t : Tile) : { marked d c a t with faddr := t.faddr } = t := by
  unfold marked
  split <;> rfl

theorem marked_first {c : Cause} (hd : d.causes = []) (hc : addressCause c.code = true) (a : W64) (t : Tile) :
    (marked d c a t).faddr = a := by
  simp [marked, hd, hc]

theorem marked_other {c : Cause} (hc : addressCause c.code = false) (a : W64) (t : Tile) : marked d c a t = t := by
  simp [marked, hc]

theorem raise_causes (d : Domain) (c : Cause) (a : W64) : (d.raise c a).causes = d.causes ++ [c] := by
  show (d.addCause c a).causes = _
  unfold Domain.addCause
  dsimp only
  split <;> rfl

/-! ## A footprint fault at its issue -/

/-- The tile with the results that its LS word of the tick has sent suppressed (15 R381). -/
def suppressed (t : Tile) (now : Nat) : Tile := { t with flights := t.flights.map (fun f =>
  if f.issue = now ∧ f.col = .ls ∧ f.cause = 0 then { f with cause := cFootprint } else f) }

theorem suppressed_cause (t : Tile) (now : Nat) : ∀ f ∈ (suppressed t now).flights, f.issue = now → f.col = .ls → f.cause ≠ 0 := by
  intro f hf hi hc
  obtain ⟨g, -, rfl⟩ := List.mem_map.1 hf
  by_cases hg : g.issue = now ∧ g.col = .ls ∧ g.cause = 0
  · rw [if_pos hg]
    exact (by decide : cFootprint ≠ 0)
  · rw [if_neg hg] at hi hc ⊢
    exact fun h0 => hg ⟨hi, hc, h0⟩

theorem raceFault_tile? (d : Domain) (e : Ev) (k : Nat) (h : d.tile? e.lt = some t) :
    (d.raceFault e k).tile? e.lt = some (suppressed t d.dtick) := by
  have hs : (d.suppress e.lt .ls cFootprint).tile? e.lt = some (suppressed t d.dtick) := by
    rw [Domain.suppress, tile?_updTile, if_pos rfl, h]
    rfl
  unfold Domain.raceFault
  exact (tile?_raise _ ⟨e.tick, e.lt, 3, cFootprint, k⟩ 0 hs).trans (congrArg some (marked_other rfl _ _))

theorem raceFault_causes (d : Domain) (e : Ev) (k : Nat) :
    (d.raceFault e k).causes = d.causes ++ [⟨e.tick, e.lt, 3, 18, k⟩] := raise_causes _ _ _

theorem raceFault_fatal (d : Domain) (e : Ev) (k : Nat) : (d.raceFault e k).fatal = true := by
  show (_ || fatalCode cFootprint) = true
  rw [show fatalCode cFootprint = true from rfl, Bool.or_true]

theorem raceFault_order (d : Domain) (e : Ev) (k : Nat) : SameOrder d (d.raceFault e k) :=
  have h : SameOrder d (d.suppress e.lt .ls cFootprint) := sameOrder_updTile d e.lt _ (fun _ _ => rfl)
  h.trans (sameOrder_raise _ _ _)

/-! ## The check of a column access -/

/-- An open record of its own tile races the access. -/
def ownRace (d : Domain) (e : Ev) : Bool :=
  d.tiles.any (fun t => t.lt == e.lt && t.recs.any (fun r => openFor d.vg e.tick true r && d.races r e))

/-- The access meets the spill share of its own tile. -/
def ownShare (e : Ev) (shares : List (Nat × (Nat × Nat))) : Bool :=
  shares.any (fun p => p.1 == e.lt && rangesMeet (e.reads ++ e.writes) [p.2])

/-- A global access of the last Vg ticks, of the same tile, that conflicts with e and is not ordered with it. -/
def nearRace (d : Domain) (e : Ev) : Bool :=
  (if e.spaces &&& (spG ||| spH) != 0 then d.evs.filter (fun o => o.isAccess && o.id != e.id &&
    o.spaces &&& (spG ||| spH) != 0 && decide (e.tick < o.tick + d.vg) && conflicts o e) else []).any
    (fun o => o.lt == e.lt && !d.ordered o e)

/-- The domain with the first of the two faults that an access takes at its issue, and with both. -/
def raceChecked (d : Domain) (e : Ev) (shares : List (Nat × (Nat × Nat))) : Domain :=
  if ownRace d e || ownShare e shares then d.raceFault e 2 else d
def issueChecked (d : Domain) (e : Ev) (shares : List (Nat × (Nat × Nat))) : Domain :=
  if nearRace d e then (raceChecked d e shares).raceFault e 4 else raceChecked d e shares

theorem deferRace_eq (d : Domain) (e : Ev) (a b : Nat) (l : List (Nat × Nat)) :
    ∃ more, d.deferRace e a b l = { d with deferred := d.deferred ++ more } := by
  unfold Domain.deferRace
  split
  · exact ⟨[], by rw [List.append_nil]⟩
  · exact ⟨_, rfl⟩

/-- What the check defers is added behind the faults of the tick, that of another tile's spill share among it. -/
theorem deferred_after (d : Domain) (e : Ev) (x : Deferred) (other : Bool) (l k : List (Nat × Nat)) :
    ∃ more, ((if other then { d with deferred := d.deferred ++ [x] } else d : Domain).deferRace e 3 3 l).deferRace e 3 5 k =
      { d with deferred := more } ∧ (other = true → x ∈ more) := by
  obtain ⟨m, hm⟩ := deferRace_eq (if other then { d with deferred := d.deferred ++ [x] } else d : Domain) e 3 3 l
  obtain ⟨n, hn⟩ := deferRace_eq { (if other then { d with deferred := d.deferred ++ [x] } else d : Domain) with
    deferred := (if other then { d with deferred := d.deferred ++ [x] } else d : Domain).deferred ++ m } e 3 5 k
  rw [hm, hn]
  cases other with
  | true => exact ⟨d.deferred ++ [x] ++ m ++ n, rfl, fun _ => by simp⟩
  | false => exact ⟨d.deferred ++ m ++ n, rfl, nofun⟩

/-- The check raises its faults of the tick, and defers the others. -/
theorem columnRaces_eq (d : Domain) (e : Ev) (shares : List (Nat × (Nat × Nat))) :
    ∃ l, d.columnRaces e shares = { issueChecked d e shares with deferred := l } ∧
      ((e.spaces &&& (spG ||| spH) != 0 && shares.any (fun p => p.1 != e.lt && rangesMeet (e.reads ++ e.writes) [p.2])) = true →
        ⟨e.tick + d.vg, e.lt, 3, cFootprint, 3, 0, none⟩ ∈ l) :=
  deferred_after (issueChecked d e shares) e _ _ _ _

/-- An access of a bank or an accumulator takes the fault of its own tile, or none. -/
theorem columnRaces_local (d : Domain) {e : Ev} (he : e.spaces &&& (spG ||| spH) = 0) (shares : List (Nat × (Nat × Nat))) :
    d.columnRaces e shares = raceChecked d e shares := by
  have hg : (e.spaces &&& (spG ||| spH) != 0) = false := by rw [he]; rfl
  unfold Domain.columnRaces
  rw [hg]
  rfl

/-- What the check keeps of the domain before it. -/
theorem raceChecked_order (d : Domain) (e : Ev) (shares : List (Nat × (Nat × Nat))) : SameOrder d (raceChecked d e shares) := by
  unfold raceChecked
  split
  · exact raceFault_order _ _ _
  · exact SameOrder.refl d

theorem issueChecked_order (d : Domain) (e : Ev) (shares : List (Nat × (Nat × Nat))) : SameOrder d (issueChecked d e shares) := by
  unfold issueChecked
  split
  · exact (raceChecked_order d e shares).trans (raceFault_order _ _ _)
  · exact raceChecked_order d e shares

theorem columnRaces_seq (d : Domain) (e : Ev) (shares : List (Nat × (Nat × Nat))) : (d.columnRaces e shares).seq = d.seq := by
  obtain ⟨l, hl, -⟩ := columnRaces_eq d e shares
  rw [hl]
  exact (issueChecked_order d e shares).seq

/-- The domain of a caught access: the fault stands first, the domain is fatally marked, and no result of the word stands. -/
theorem columnRaces_caught {e : Ev} {shares : List (Nat × (Nat × Nat))} (ht : d.tile? e.lt = some t)
    (hr : (ownRace d e || ownShare e shares) = true) :
    (d.columnRaces e shares).fatal = true ∧
      (∃ more, (d.columnRaces e shares).causes = d.causes ++ ⟨e.tick, e.lt, 3, 18, 2⟩ :: more) ∧
      ∃ u, (d.columnRaces e shares).tile? e.lt = some u ∧ u.trapen = t.trapen ∧
        ∀ f ∈ u.flights, f.issue = d.dtick → f.col = .ls → f.cause ≠ 0 := by
  obtain ⟨l, hl, -⟩ := columnRaces_eq d e shares
  have h1 : raceChecked d e shares = d.raceFault e 2 := if_pos hr
  rw [hl]
  unfold issueChecked
  rw [h1]
  split
  · refine ⟨raceFault_fatal _ _ _, ⟨[⟨e.tick, e.lt, 3, 18, 4⟩], ?_⟩,
      ⟨_, raceFault_tile? _ e 4 (raceFault_tile? d e 2 ht), rfl, ?_⟩⟩
    · exact (raceFault_causes _ _ _).trans (by rw [raceFault_causes, List.append_assoc]; rfl)
    · rw [(raceFault_order d e 2).dtick]
      exact suppressed_cause _ _
  · exact ⟨raceFault_fatal _ _ _, ⟨[], raceFault_causes _ _ _⟩, ⟨_, raceFault_tile? d e 2 ht, rfl, suppressed_cause _ _⟩⟩

/-! ## When there is a race, and when there is none -/

/-- A record that the access races is an open one of its tile. -/
theorem ownRace_of_races {e : Ev} (h : SameOrder d d₁) (ht : t ∈ d.tiles) (hlt : e.lt = t.lt) {r : Rec} (hr : r ∈ t.recs)
    (ho : openFor d.vg e.tick true r = true) (hrace : d.races r e = true) : ownRace d₁ e = true := by
  obtain ⟨u, hu, hul, hur⟩ := h.symm.exists_tile ht
  refine List.any_eq_true.2 ⟨u, hu, ?_⟩
  rw [hul, hlt, hur, beq_self_eq_true, Bool.true_and]
  exact List.any_eq_true.2 ⟨r, hr, by rw [h.vg, ho, h.races, hrace]; rfl⟩

/-- An event of a column is none of a record. -/
theorem recEvs_addEv (d : Domain) {e : Ev} (he : e.ofRecord = false) (r : Rec) : (d.addEv e).recEvs r = d.recEvs r := by
  have h : ({ e with id := d.nextId } : Ev).ofRecord = false := he
  simp only [Domain.recEvs, Domain.addEv, List.filter_append, List.filter_cons, h, Bool.false_and, List.filter_nil,
    Bool.false_eq_true, if_false, List.append_nil]

/-- Where nothing open of the tile meets the bytes, an access of them races nothing. -/
theorem ownRace_of_quiet {rs : List (Nat × Nat)} (hq : Claims.Quiet s d t rs) (h : SameOrder d d₁) {e e' : Ev} (hlt : e.lt = t.lt)
    (htick : e.tick = d.dtick) (he' : e'.ofRecord = false) (hrs : ∀ r ∈ e.reads ++ e.writes, r ∈ rs) :
    ownRace (d₁.addEv e') e = false := by
  rw [Bool.eq_false_iff]
  intro hrace
  obtain ⟨u, hu, hr⟩ := List.any_eq_true.1 hrace
  rw [Bool.and_eq_true, beq_iff_eq] at hr
  obtain ⟨hul, hr⟩ := hr
  obtain ⟨r, hr, hor⟩ := List.any_eq_true.1 hr
  rw [Bool.and_eq_true] at hor
  obtain ⟨ho, hx⟩ := hor
  obtain ⟨v, hv, hvl, hvr⟩ := h.exists_tile (show u ∈ d₁.tiles from hu)
  obtain ⟨p, hp, hpe⟩ := List.any_eq_true.1 hx
  rw [recEvs_addEv d₁ he', Domain.recEvs, h.evs] at hp
  rw [show (d₁.addEv e').vg = d₁.vg from rfl, h.vg, htick] at ho
  have hapart := hq.2 v hv (by rw [hvl, hul, hlt]) r (hvr ▸ hr) ho p hp
  rw [conflicts_of_apart hrs hapart] at hpe
  cases hpe

/-- Where no spill share meets the bytes, which lie in banks or tags, none does after a store or repair of the same tick. -/
theorem ownShare_of_quiet {rs : List (Nat × Nat)} (hq : Claims.Quiet s d t rs) (he : s₁.egress = s.egress) (hm : s₁.macl = s.macl)
    {e : Ev} (hrs : ∀ r ∈ e.reads ++ e.writes, r ∈ rs) (hb : ∀ r ∈ rs, region 3 ≤ r.1) :
    ownShare e (shareRanges s₁ d) = false := by
  rw [Bool.eq_false_iff]
  intro hs
  obtain ⟨y, hy, hm'⟩ := List.any_eq_true.1 hs
  rw [Bool.and_eq_true] at hm'
  have hno : rangesMeet (e.reads ++ e.writes) [y.2] = false := by
    rcases shareRanges_kept he hm d y hy with hy | hy
    · exact rangesMeet_mono hrs (fun _ h => h) (hq.1 y hy)
    · exact rangesMeet_below (fun r hr => hb r (hrs r hr)) hy
  rw [hno] at hm'
  cases hm'.2

end Sys2Proof.Access
end

section
/-!
SUPPORT. An access of a bank word, whose own effect (a result, a store, a fault) has entered the state before its check.
-/

namespace Sys2Proof.Access

open Sys2Proof Sys2Proof.Machine Sys2Proof.Laws

variable {s s₁ : State} {d d₁ : Domain} {t t₁ u : Tile}

/-! ## The state that an access checks -/

/-- A word's own effect has entered the state s: its place now holds d₁ and t₁, whose order of events is that of d. -/
structure Staged (s : State) (d : Domain) (s₁ : State) (d₁ : Domain) (t₁ : Tile) : Prop where
  cur : s₁.cur = s.cur
  egress : s₁.egress = s.egress
  macl : s₁.macl = s.macl
  place : s₁.At d₁ t₁
  order : SameOrder d d₁

theorem Staged.refl (h : s.At d t) : Staged s d s d t := ⟨rfl, rfl, rfl, h, SameOrder.refl d⟩

theorem Staged.seq (h : Staged s d s₁ d₁ t₁) : s₁.cur.dom = d.seq := (At.seq h.place).symm.trans h.order.seq

/-- The place after a change of its domain. -/
theorem Staged.updDom_at (h : Staged s d s₁ d₁ t₁) {f : Domain → Domain} (hf : ∀ e, (f e).seq = e.seq)
    (hu : (f d₁).tile? s.cur.lt = some u) : (s₁.updDom d.seq f).At (f d₁) u := by
  rw [← h.seq]
  exact at_updDom h.place hf (h.cur ▸ hu)

theorem Staged.updDom (h : Staged s d s₁ d₁ t₁) {f : Domain → Domain} (hf : ∀ e, (f e).seq = e.seq)
    (ho : SameOrder d₁ (f d₁)) (hu : (f d₁).tile? s.cur.lt = some u) : Staged s d (s₁.updDom d.seq f) (f d₁) u :=
  ⟨h.cur, h.egress, h.macl, h.updDom_at hf hu, h.order.trans ho⟩

theorem Staged.tile? (h : Staged s d s₁ d₁ t₁) : d₁.tile? s.cur.lt = some t₁ := h.cur ▸ h.place.2

theorem Staged.put (h : Staged s d s₁ d₁ t₁) (hv : ordView u = ordView t₁) :
    Staged s d (s₁.put u) (d₁.updTile s.cur.lt (fun _ => u)) u := by
  have hput : s₁.put u = s₁.updDom d.seq (fun e => e.updTile s.cur.lt (fun _ => u)) := by rw [← h.cur, ← h.seq]; rfl
  rw [hput]
  refine h.updDom (fun _ => rfl) (sameOrder_updTile _ _ _ (fun v hv' => ?_)) ?_
  · rw [h.tile?, Option.some.injEq] at hv'
    rw [hv, hv']
  · rw [tile?_updTile, if_pos rfl, h.tile?]
    rfl

/-- The cause that a word's fault of the tick records. -/
def lsCause (d : Domain) (lt code : Nat) : Cause := ⟨d.dtick, lt, 3, code, 0⟩

theorem Staged.raise (h : Staged s d s₁ d₁ t₁) (code : Nat) (a : W64) :
    Staged s d (s₁.raise 3 code 0 a) (d₁.raise (lsCause d s.cur.lt code) a) (marked d₁ (lsCause d s.cur.lt code) a t₁) := by
  have hc : d₁.raise (lsCause d s.cur.lt code) a = d₁.raise ⟨d₁.dtick, s₁.cur.lt, 3, code, 0⟩ a := by
    rw [h.order.dtick, h.cur]; rfl
  have hs : s₁.raise 3 code 0 a = s₁.updDom d.seq (fun e => e.raise ⟨e.dtick, s₁.cur.lt, 3, code, 0⟩ a) := by rw [← h.seq]; rfl
  have hu := tile?_raise d₁ (lsCause d s.cur.lt code) a h.tile?
  rw [hc] at hu ⊢
  rw [hs]
  exact h.updDom (fun e => (sameOrder_raise e ⟨e.dtick, s₁.cur.lt, 3, code, 0⟩ a).seq) (sameOrder_raise _ _ _) hu

theorem Staged.storeLocal (h : Staged s d s₁ d₁ t₁) (cl a : Nat) (bs : List Byte) : Staged s d (s₁.storeLocal cl a bs) d₁ t₁ :=
  ⟨h.cur, h.egress, h.macl, h.place, h.order⟩

theorem Staged.countFlaws (h : Staged s d s₁ d₁ t₁) (rs : List (Nat × Nat)) : Staged s d (s₁.countFlaws rs) d₁ t₁ :=
  ⟨h.cur, h.egress, h.macl, h.place, h.order⟩

/-! ## The check of an access of banks -/

@[simp] theorem access_mem (s : State) (d : Domain) (t : Tile) (c : BitVec 4) (sp : BitVec 5) (rd wr : List (Nat × Nat)) :
    (s.access d t c sp rd wr).mem = s.mem := rfl

/-- The event of an access as it is recorded: behind the arrival words that it reads. -/
def recorded (s : State) (d : Domain) (t : Tile) (c : BitVec 4) (rd wr : List (Nat × Nat)) : Ev :=
  { Claims.accessEvent d t c spK rd wr with after := d.withArrival ((d.arrivedIn s t rd).map (fun r => r.ev)) }

theorem access_eq (s : State) (d : Domain) (t : Tile) (c : BitVec 4) (rd wr : List (Nat × Nat)) :
    s.access d t c spK rd wr = s.updDom d.seq (fun x => (x.addEv (recorded s d t c rd wr)).columnRaces
      (Claims.accessEvent d t c spK rd wr) (shareRanges s d)) := rfl

/-- An access that meets nothing open is recorded, and nothing else happens. -/
theorem Staged.access_quiet (h : Staged s d s₁ d₁ t₁) {rs : List (Nat × Nat)} (hq : Claims.Quiet s d t rs) (c : BitVec 4)
    {rd wr : List (Nat × Nat)} (hrs : ∀ r ∈ rd ++ wr, r ∈ rs) (hb : ∀ r ∈ rs, region 3 ≤ r.1) :
    (s₁.access d t c spK rd wr).At (d₁.addEv (recorded s₁ d t c rd wr)) t₁ := by
  have hnone : (d₁.addEv (recorded s₁ d t c rd wr)).columnRaces (Claims.accessEvent d t c spK rd wr) (shareRanges s₁ d) =
      d₁.addEv (recorded s₁ d t c rd wr) := by
    rw [columnRaces_local _ (show spK &&& (spG ||| spH) = 0 by decide), raceChecked, ownRace_of_quiet hq h.order rfl rfl rfl hrs,
      ownShare_of_quiet hq h.egress h.macl hrs hb]
    rfl
  have hat := h.updDom_at (u := t₁) (f := fun x => (x.addEv (recorded s₁ d t c rd wr)).columnRaces
    (Claims.accessEvent d t c spK rd wr) (shareRanges s₁ d)) (fun _ => columnRaces_seq _ _ _) (by rw [hnone]; exact h.tile?)
  rwa [hnone, ← access_eq] at hat

/-- The place of a caught access: what `Claims.Caught` says of it, and that FTRAPEN stands. -/
def CaughtAt (d : Domain) (t : Tile) (d' : Domain) (t' : Tile) (trapen : BitVec 9) : Prop :=
  d'.fatal = true ∧ (∃ more, d'.causes = d.causes ++ ⟨d.dtick, t.lt, 3, 18, 2⟩ :: more) ∧ t'.trapen = trapen ∧
    ∀ f ∈ t'.flights, f.issue = d.dtick → f.col = .ls → f.cause ≠ 0

theorem CaughtAt.caught {s' : State} {d' : Domain} {t' : Tile} {e : BitVec 9} (h : CaughtAt d t d' t' e) (hat : s'.At d' t') :
    Claims.Caught s' d t := by
  obtain ⟨hfatal, ⟨more, hcauses⟩, -, hflights⟩ := h
  exact ⟨d', t', more, hat, hfatal, hcauses, hflights⟩

/-- A word whose check finds a race of its tile, or its share, is caught there. -/
theorem Staged.caught (h : Staged s d s₁ d₁ t₁) (hlt : t.lt = s.cur.lt) (hc : d₁.causes = d.causes) {f : Domain → Domain} {e : Ev}
    {shares : List (Nat × (Nat × Nat))} (hf : ∀ x, (f x).seq = x.seq) (hft : (f d₁).tiles = d₁.tiles) (hfc : (f d₁).causes = d₁.causes)
    (hfd : (f d₁).dtick = d₁.dtick) (helt : e.lt = t.lt) (het : e.tick = d.dtick)
    (hr : (ownRace (f d₁) e || ownShare e shares) = true) : ∃ t', CaughtAt d t ((f d₁).columnRaces e shares) t' t₁.trapen ∧
      (s₁.updDom d.seq (fun x => (f x).columnRaces e shares)).At ((f d₁).columnRaces e shares) t' := by
  have htile : (f d₁).tile? e.lt = some t₁ := by
    rw [Domain.tile?, hft, helt, hlt]
    exact h.tile?
  obtain ⟨hfatal, ⟨more, hcauses⟩, u, hu, htrap, hflights⟩ := columnRaces_caught htile hr
  refine ⟨u, ⟨hfatal, ⟨more, ?_⟩, htrap, ?_⟩, ?_⟩
  · rw [hcauses, hfc, hc, helt, het]
  · rwa [hfd, h.order.dtick] at hflights
  · exact h.updDom_at (f := fun x => (f x).columnRaces e shares) (fun x => (columnRaces_seq _ _ _).trans (hf x))
      (hlt ▸ helt ▸ hu)

/-- An access that races an open record of its tile is caught. -/
theorem Staged.access_caughtAt (h : Staged s d s₁ d₁ t₁) (ht : s.At d t) (hlt : t.lt = s.cur.lt) (hc : d₁.causes = d.causes)
    {c : BitVec 4} {rd wr : List (Nat × Nat)} (hr : Claims.Races d t (Claims.accessEvent d t c spK rd wr)) :
    ∃ d' t', CaughtAt d t d' t' t₁.trapen ∧ (s₁.access d t c spK rd wr).At d' t' := by
  obtain ⟨r, hrec, hopen, hrace⟩ := hr
  have hown : ownRace (d₁.addEv (recorded s₁ d t c rd wr)) (Claims.accessEvent d t c spK rd wr) = true :=
    ownRace_of_races (h.order.addEv _) (List.mem_of_getElem? ht.2) rfl hrec hopen (hrace _)
  obtain ⟨t', hcaught, hat⟩ := h.caught (f := fun x => x.addEv (recorded s₁ d t c rd wr)) (shares := shareRanges s₁ d) hlt hc
    (fun _ => rfl) rfl rfl rfl rfl rfl (by rw [hown]; rfl)
  exact ⟨_, t', hcaught, hat⟩

theorem Staged.access_caught (h : Staged s d s₁ d₁ t₁) (ht : s.At d t) (hlt : t.lt = s.cur.lt) (hc : d₁.causes = d.causes)
    {c : BitVec 4} {rd wr : List (Nat × Nat)} (hr : Claims.Races d t (Claims.accessEvent d t c spK rd wr)) :
    Claims.Caught (s₁.access d t c spK rd wr) d t := by
  obtain ⟨d', t', hcaught, hat⟩ := h.access_caughtAt ht hlt hc hr
  exact hcaught.caught hat

end Sys2Proof.Access
end

section
/-!
SUPPORT. The outcomes of a bank access: caught by a race, its result owed at the completion tick, or a fault of its own tick;
each for a word whose effect has entered the state before the check.
-/

namespace Sys2Proof.Access

open Sys2Proof Sys2Proof.Machine Sys2Proof.Laws

variable {s s₁ : State} {d d₁ : Domain} {t t₁ u : Tile} {c : BitVec 4} {rd wr rs : List (Nat × Nat)}

/-- No byte outside some ranges reads otherwise than before. -/
def KeepsOutside (s s' : State) (wr : List (Nat × Nat)) : Prop :=
  ∀ a, (∀ r ∈ wr, a < r.1 ∨ r.1 + r.2 ≤ a) → s'.readByte a = s.readByte a

/-- The word is caught by the footprint fault when it races, and keeps every byte outside those that it stores to. -/
def Racing (q : Instr) (s : State) (d : Domain) (t : Tile) (c : BitVec 4) (rd wr : List (Nat × Nat)) : Prop :=
  Claims.Races d t (Claims.accessEvent d t c spK rd wr) → Completes (exec q s) (fun s' => Claims.Caught s' d t ∧ KeepsOutside s s' wr)

/-- A fault of the tick stands at the place, whose tile is u but for the address that it kept. -/
def RaisedAt (s' : State) (d : Domain) (t u : Tile) (code : Nat) (a : W64) : Prop :=
  ∃ d' t', s'.At d' t' ∧ { t' with faddr := t.faddr } = u ∧ d'.causes = d.causes ++ [⟨d.dtick, t.lt, 3, code, 0⟩] ∧
    (d.causes = [] → t'.faddr = a)

/-! ## Faults of the tick -/

theorem Staged.raise_access (h : Staged s d s₁ d₁ u) (hc : d₁.causes = d.causes) (hlt : t.lt = s.cur.lt) (hu : u.faddr = t.faddr)
    {code : Nat} (hcode : addressCause code = true) (a : W64) (hq : Claims.Quiet s d t rs) (hrs : ∀ r ∈ rd ++ wr, r ∈ rs)
    (hb : ∀ r ∈ rs, region 3 ≤ r.1) : RaisedAt ((s₁.raise 3 code 0 a).access d t c spK rd wr) d t u code a := by
  refine ⟨_, _, (h.raise code a).access_quiet hq c hrs hb, hu ▸ marked_restored _ _ _ u, ?_, fun hd => ?_⟩
  · exact (raise_causes d₁ _ a).trans (by rw [hc, hlt]; rfl)
  · exact marked_first (hc.trans hd) hcode a u

/-! ## Faults of the completion tick -/

/-- The latch of a recoverable fault. -/
theorem lost_eq (t : Tile) (now lat : Nat) (dest : Dest) (code : Nat) : Claims.lost t now lat dest code =
    { scalarFlight t now lat .ls dest 0 with lanes := destLanes dest, cause := code, owed := !fatalCode code } := by
  cases dest <;> rfl

theorem owe_eq (s : State) (d : Domain) (t : Tile) (lat : Nat) (dest : Dest) (code : Nat) (a : W64) :
    owe s d t lat dest (code, 0, a) = (s.put (t.send (Claims.lost t d.dtick lat dest code))).raise 3 code 0 a := by
  rw [lost_eq]
  rfl

/-- The later fault that a load's completion tick raises. -/
def lateCause (d : Domain) (t : Tile) (lat code : Nat) (a : W64) : Deferred := ⟨d.dtick + lat, t.lt, 3, code, 0, a, none⟩

theorem lateFault_eq {code : Nat} (hf : fatalCode code = false) (s : State) (d : Domain) (t : Tile) (lat : Nat) (dest : Dest)
    (a : W64) : s.lateFault d t lat dest code a = (s.put (t.send (Claims.lost t d.dtick lat dest code))).updDom d.seq
      (fun x => { x with deferred := x.deferred ++ [lateCause d t lat code a] }) := by
  rw [lost_eq, hf]
  rfl

/-- The domain with a result owed at the place of the word. -/
def owing (d : Domain) (lt : Nat) (u : Tile) (f : Flight) (x : Deferred) : Domain :=
  { d.updTile lt (fun _ => u.send f) with deferred := d.deferred ++ [x] }

theorem Staged.lateFault (h : Staged s d s₁ d₁ t₁) (hv : ordView u = ordView t₁) {code : Nat} (hf : fatalCode code = false)
    (lat : Nat) (dest : Dest) (a : W64) : Staged s d (s₁.lateFault d u lat dest code a)
      (owing d₁ s.cur.lt u (Claims.lost u d.dtick lat dest code) (lateCause d u lat code a))
      (u.send (Claims.lost u d.dtick lat dest code)) := by
  have hp := h.put (u := u.send (Claims.lost u d.dtick lat dest code)) hv
  rw [lateFault_eq hf]
  exact hp.updDom (f := fun x => { x with deferred := x.deferred ++ [lateCause d u lat code a] }) (fun _ => rfl)
    ⟨rfl, rfl, rfl, rfl, rfl, rfl⟩ hp.tile?

/-! ## A load's result, or its owed latch -/

theorem deliverSound_staged (h : s.At d t) (hv : ordView u = ordView t) (lat : Nat) (dest : Dest) (val : W64) (x : Lanes)
    (fl : Flg) (rs : List (Nat × Nat)) (va : W64) : ∃ d₁ t₁, Staged s d (s.deliverSound d u lat dest val x fl rs va) d₁ t₁ ∧
      d₁.causes = d.causes ∧ (s.deliverSound d u lat dest val x fl rs va).mem = s.mem := by
  unfold State.deliverSound
  split
  · exact ⟨_, _, (Staged.refl h).put (u := u.deliver d.dtick lat dest val x fl) hv, rfl, rfl⟩
  · exact ⟨_, _, ((Staged.refl h).countFlaws rs).lateFault hv (code := cIntegrity) rfl lat dest va, rfl, rfl⟩

/-- A load that races is caught, sound or not, and writes nothing. -/
theorem load_racing (h : s.At d t) (hlt : t.lt = s.cur.lt) (hv : ordView u = ordView t) {q : Instr} {lat : Nat} {dest : Dest}
    {val : W64} {x : Lanes} {fl : Flg} {va : W64}
    (hq : exec q s = .next ((s.deliverSound d u lat dest val x fl rs va).access d t c spK rd [])) : Racing q s d t c rd [] := by
  intro hr
  obtain ⟨d₁, t₁, h₁, hc, hm⟩ := deliverSound_staged h hv lat dest val x fl rs va
  refine ⟨_, hq, h₁.access_caught h hlt hc hr, fun a _ => ?_⟩
  show readCells _ a = readCells _ a
  rw [access_mem, hm]

theorem deliverSound_flawed (hs : s.sound rs = false) (d : Domain) (u : Tile) (lat : Nat) (dest : Dest) (val : W64) (x : Lanes)
    (fl : Flg) (va : W64) :
    s.deliverSound d u lat dest val x fl rs va = (s.countFlaws rs).lateFault d u lat dest cIntegrity va := by
  rw [State.deliverSound, hs]
  rfl

/-- A word's result is owed under the data-integrity fault, which comes at the completion tick with an address of which P
holds. -/
def Owed (q : Instr) (s : State) (d : Domain) (t u : Tile) (lat : Nat) (dest : Dest) (P : W64 → Prop) : Prop :=
  Completes (exec q s) (fun s' => s'.mem = s.mem ∧ ∃ d' a, s'.At d' (u.send (Claims.lost u d.dtick lat dest 6)) ∧ d'.causes = d.causes ∧
    P a ∧ d'.deferred = d.deferred ++ [⟨d.dtick + lat, t.lt, 3, 6, 0, a, none⟩])

/-- A load of bytes that fail their check, with nothing open that it meets, owes its result. -/
theorem load_owed (h : s.At d t) (hv : ordView u = ordView t) {q : Instr} {lat : Nat} {dest : Dest} {va : W64}
    {ms : List (Nat × Nat)} {P : W64 → Prop} (hP : P va)
    (hq : exec q s = .next (((s.countFlaws ms).lateFault d u lat dest cIntegrity va).access d t c spK rd wr))
    (hquiet : Claims.Quiet s d t rs) (hrs : ∀ r ∈ rd ++ wr, r ∈ rs) (hb : ∀ r ∈ rs, region 3 ≤ r.1) :
    Owed q s d t u lat dest P := by
  have hlt : u.lt = t.lt := congrArg Prod.fst hv
  have hat := (((Staged.refl h).countFlaws ms).lateFault hv (code := cIntegrity) rfl lat dest va).access_quiet hquiet c hrs hb
  exact ⟨_, hq, rfl, _, va, hat, rfl, hP, congrArg (fun n => d.deferred ++ [⟨d.dtick + lat, n, 3, 6, 0, va, none⟩]) hlt⟩

/-! ## A store, or its refusal -/

/-- A store that would merge with a granule failing its check writes nothing there, and raises the data-integrity fault at its
own tick, with an address of which P holds. -/
def Refused (q : Instr) (s : State) (d : Domain) (t u : Tile) (wr : List (Nat × Nat)) (P : W64 → Prop) : Prop :=
  Completes (exec q s) (fun s' => KeepsOutside s s' wr ∧ ∃ d' t', s'.At d' t' ∧ { t' with faddr := t.faddr } = u ∧
    d'.causes = d.causes ++ [⟨d.dtick, t.lt, 3, 6, 0⟩] ∧ (d.causes = [] → P t'.faddr))

theorem storeSound_sound {cl : Nat} {r : Nat × Nat} (hm : s.mergeSound r = true) (bs : List Byte) (va : W64) :
    s.storeSound cl r bs va = s.storeLocal cl r.1 bs := by
  rw [State.storeSound, hm]
  rfl

theorem storeSound_flawed {cl : Nat} {r : Nat × Nat} (hm : s.mergeSound r = false) (bs : List Byte) (va : W64) :
    s.storeSound cl r bs va = (s.countFlaws [r]).raise 3 6 0 va := by
  rw [State.storeSound, hm]
  rfl

/-! ## Bytes that a store writes -/

theorem keepsOutside_storeLocal (s : State) (cl a n : Nat) {bs : List Byte} (hn : bs.length = n) :
    KeepsOutside s (s.storeLocal cl a bs) [(a, n)] := by
  intro x hx
  exact State.readByte_writeBytes_other s bs (by have := hx (a, n) List.mem_cons_self; dsimp only at this; omega)

theorem keepsOutside_of_mem {s' : State} (h : s'.mem = s.mem) (wr : List (Nat × Nat)) : KeepsOutside s s' wr := by
  intro x _
  rw [State.readByte, h]
  rfl

/-- A sound store that races is caught, its bytes written. -/
theorem store_racing (h : s.At d t) (hlt : t.lt = s.cur.lt) {q : Instr} {cl l n : Nat} {bs : List Byte} (hn : bs.length = n)
    (hq : exec q s = .next ((s.storeLocal cl l bs).access d t c spK rd [(l, n)])) : Racing q s d t c rd [(l, n)] :=
  fun hr => ⟨_, hq, ((Staged.refl h).storeLocal cl l bs).access_caught h hlt rfl hr, keepsOutside_storeLocal s cl l n hn⟩

/-- A refused store with nothing open that it meets raises the data-integrity fault alone. -/
theorem store_refused (h : s.At d t) (hlt : t.lt = s.cur.lt) {q : Instr} {ms : List (Nat × Nat)} {a : W64} {P : W64 → Prop} (hP : P a)
    (hq : exec q s = .next (((s.countFlaws ms).raise 3 6 0 a).access d t c spK rd wr)) (hquiet : Claims.Quiet s d t rs)
    (hrs : ∀ r ∈ rd ++ wr, r ∈ rs) (hb : ∀ r ∈ rs, region 3 ≤ r.1) : Refused q s d t t [] P := by
  obtain ⟨d', t', hat, htile, hcauses, haddr⟩ := ((Staged.refl h).countFlaws ms).raise_access (c := c) (code := 6) rfl hlt rfl rfl a
    hquiet hrs hb
  exact ⟨_, hq, keepsOutside_of_mem rfl _, d', t', hat, htile, hcauses, fun hd => (haddr hd).symm ▸ hP⟩

theorem length_toLE (n x : Nat) : (toLE n x).length = n := by
  induction n generalizing x with
  | zero => rfl
  | succ n ih => rw [toLE, List.length_cons, ih]

theorem length_flatMap_toLE {α : Type} (l : List α) (n : Nat) (f : α → Nat) :
    (l.flatMap (fun e => toLE n (f e))).length = l.length * n := by
  induction l with
  | nil => simp
  | cons e l ih => rw [List.flatMap_cons, List.length_append, length_toLE, ih, List.length_cons]; ring

end Sys2Proof.Access
end

section
/-!
SUPPORT. What the words of the LS column do at a place that stands: the checks of a bank access in their order, and the state
that each outcome leaves.
-/

namespace Sys2Proof.Access

open Sys2Proof Sys2Proof.Machine Sys2Proof.Laws

variable {s s₁ : State} {d d₁ : Domain} {t u : Tile} {g c i : BitVec 4} {v : VSpec} {x b : SSpec} {o : BitVec 5} {k n : Nat} {a : W64}

/-! ## Windows -/

theorem bank?_eq_some {w : Nat} (h : t.wins.getD w .empty = .att k) : t.bank? w = some k := by
  simp only [Tile.bank?, Tile.win, h]

theorem bank?_eq_none {w : Nat} (h : ∀ k, t.wins.getD w .empty ≠ .att k) : t.bank? w = none := by
  unfold Tile.bank? Tile.win
  split
  · next hk => exact absurd hk (h _)
  · rfl
  · rfl

/-! ## The checks of a plain access (02 R52, R60) -/

theorem bankAt_high (h : 2 ^ 22 ≤ a.toNat) : bankAt t a n = .error (cAddress, 0, a) := by
  simp only [bankAt, if_pos h]

theorem bankAt_misaligned (h : ¬2 ^ 22 ≤ a.toNat) (hn : a.toNat % n ≠ 0) : bankAt t a n = .error (cAlign, 0, a) := by
  simp only [bankAt, if_neg h, if_pos (bne_iff_ne.2 hn)]

theorem bankAt_detached (h : ¬2 ^ 22 ≤ a.toNat) (hn : a.toNat % n = 0)
    (hw : ∀ k, t.wins.getD (a.toNat / 2 ^ 19) .empty ≠ .att k) : bankAt t a n = .error (cDetached, 0, a) := by
  simp only [bankAt, if_neg h, hn, bne_self_eq_false, Bool.false_eq_true, if_false, bank?_eq_none hw]

theorem bankAt_legal (h : Claims.bankLegal t a n k) : bankAt t a n = .ok (k, a.toNat % 2 ^ 19) := by
  obtain ⟨hlow, halign, hwin⟩ := h
  simp only [bankAt, if_neg (Nat.not_le.2 hlow), halign, bne_self_eq_false, Bool.false_eq_true, if_false, bank?_eq_some hwin]

/-! ## The forms of a tag (13 R329) -/

theorem forms_elemSize : ∀ q ∈ Claims.forms, elemSize q.1 = q.2 ∧ q.1 ≠ 0 ∧ q.1 ≠ 2 ∧ q.1 ≠ 10 ∧ q.1 < 11 := by decide

/-- A tag with one element a lane has its form for loads, stores and gathers. -/
theorem elemForm_tagged {G : Tag} {q : Nat × Nat} (hq : q ∈ Claims.forms) (hG : Claims.Tagged G q.1) (store gather : Bool) :
    elemForm G store gather = some (q.2, 32 * q.2) := by
  obtain ⟨hf, hspl, hblk⟩ := hG
  obtain ⟨hsize, h0, h2, h10, h11⟩ := forms_elemSize q hq
  have hb : (G.spl || (G.blk != 0 && q.1 != 5 && q.1 != 6)) = false := by
    rcases hblk with hblk | hblk | hblk <;> simp [hspl, hblk]
  simp only [elemForm, hf, hb, Bool.false_eq_true, if_false, if_neg h10, if_neg h0,
    if_neg (show ¬(q.1 = 2 ∨ 11 ≤ q.1) by omega), hsize]

theorem elemForm_tern {G : Tag} (hG : Claims.Tagged G 10) : elemForm G false false = some (0, 8) := by
  obtain ⟨hf, hspl, hblk⟩ := hG
  have hblk : G.blk = 0 := by simpa using hblk
  simp [elemForm, hf, hspl, hblk]

/-- A gather takes one element a lane, RAW as 32-bit words. -/
theorem elemForm_gather {G : Tag} {q : Nat × Nat} (hq : q ∈ (0, 4) :: Claims.forms) (hG : Claims.Tagged G q.1) :
    ∃ m, elemForm G false true = some (q.2, m) := by
  rcases List.mem_cons.1 hq with rfl | hq
  · obtain ⟨hf, hspl, hblk⟩ := hG
    have hblk : G.blk = 0 := by simpa using hblk
    exact ⟨4, by simp [elemForm, hf, hspl, hblk]⟩
  · exact ⟨_, elemForm_tagged hq hG false true⟩

theorem elemForm_formless {G : Tag} {store : Bool} (h : Claims.formless G store) : elemForm G store false = none := by
  unfold Claims.formless at h
  unfold elemForm
  dsimp only
  split
  · rfl
  · next hb =>
    simp only [Bool.or_eq_true, Bool.and_eq_true, bne_iff_ne, not_or] at hb
    split
    · next h10 =>
      obtain h | h | h | h | h | ⟨hst, -⟩ := h
      · exact absurd h hb.1
      · exact absurd ⟨⟨h.1, h.2.1⟩, h.2.2⟩ hb.2
      · omega
      · omega
      · omega
      · simp [hst]
    · next h10 =>
      split
      · rfl
      · next h0 =>
        rw [if_pos]
        obtain h | h | h | h | h | ⟨-, h⟩ := h
        · exact absurd h hb.1
        · exact absurd ⟨⟨h.1, h.2.1⟩, h.2.2⟩ hb.2
        · exact absurd h h0
        · exact .inl h
        · exact .inr h
        · exact absurd h h10

theorem elemForm_gatherless {G : Tag} (h : G.fmt ≠ 0 ∧ Claims.formless G true ∨ G.spl = true ∨ G.blk ≠ 0 ∧ G.fmt = 0) :
    elemForm G false true = none := by
  obtain ⟨h0, hf⟩ | hspl | ⟨hb, h0⟩ := h
  · have h0' : ¬G.fmt.toNat = 0 := fun e => h0 (BitVec.eq_of_toNat_eq e)
    have hsame : elemForm G false true = elemForm G true false := by simp [elemForm, h0']
    rw [hsame, elemForm_formless hf]
  · simp [elemForm, hspl]
  · simp [elemForm, h0, show ¬G.blk = 0#2 from hb]

/-! ## The checks of a tagged access -/

theorem taggedAt_high {store : Bool} (h : 2 ^ 22 ≤ (t.sval b).toNat) :
    taggedAt s t b o store = .error (cAddress, 0, t.sval b) := by
  simp only [taggedAt, if_pos h]

theorem taggedAt_detached {store : Bool} (h : ¬2 ^ 22 ≤ (t.sval b).toNat)
    (hw : ∀ k, t.wins.getD ((t.sval b).toNat / 2 ^ 19) .empty ≠ .att k) :
    taggedAt s t b o store = .error (cDetached, 0, t.sval b) := by
  simp only [taggedAt, if_neg h, bank?_eq_none hw]

/-- A base in an attached window. -/
def Based (t : Tile) (b : SSpec) (k : Nat) : Prop :=
  ¬2 ^ 22 ≤ (t.sval b).toNat ∧ t.wins.getD ((t.sval b).toNat / 2 ^ 19) .empty = .att k

theorem taggedAt_formless {store : Bool} (h : Based t b k) (hf : Claims.formless (s.tagOf t.cluster k) store) :
    taggedAt s t b o store = .error (cFormat, 0, t.sval b) := by
  simp only [taggedAt, if_neg h.1, bank?_eq_some h.2, elemForm_formless hf]

variable {store : Bool} {m : Nat}

theorem taggedAt_crossing (h : Based t b k) (hf : elemForm (s.tagOf t.cluster k) store false = some (m, n))
    (hc : (lsAddr t b n o).toNat / 2 ^ 19 ≠ (t.sval b).toNat / 2 ^ 19) :
    taggedAt s t b o store = .error (cAddress, 0, lsAddr t b n o) := by
  unfold lsAddr at *
  simp only [taggedAt, if_neg h.1, bank?_eq_some h.2, hf, if_pos (bne_iff_ne.2 hc)]

theorem taggedAt_misaligned (h : Based t b k) (hf : elemForm (s.tagOf t.cluster k) store false = some (m, n))
    (hc : (lsAddr t b n o).toNat / 2 ^ 19 = (t.sval b).toNat / 2 ^ 19) (ha : (lsAddr t b n o).toNat % n ≠ 0) :
    taggedAt s t b o store = .error (cAlign, 0, lsAddr t b n o) := by
  unfold lsAddr at *
  simp only [taggedAt, if_neg h.1, bank?_eq_some h.2, hf, hc, bne_self_eq_false, Bool.false_eq_true, if_false,
    if_pos (bne_iff_ne.2 ha)]

theorem taggedAt_legal (h : Based t b k) (hf : elemForm (s.tagOf t.cluster k) store false = some (m, n))
    (hc : (lsAddr t b n o).toNat / 2 ^ 19 = (t.sval b).toNat / 2 ^ 19) (ha : (lsAddr t b n o).toNat % n = 0) :
    taggedAt s t b o store = .ok (k, (lsAddr t b n o).toNat % 2 ^ 19, s.tagOf t.cluster k, n) := by
  unfold lsAddr at *
  simp only [taggedAt, if_neg h.1, bank?_eq_some h.2, hf, hc, bne_self_eq_false, Bool.false_eq_true, if_false, ha]

/-- The address of a byte of the base's window is that of the access. -/
theorem inWindow_lsAddr (hc : (lsAddr t b n o).toNat / 2 ^ 19 = (t.sval b).toNat / 2 ^ 19) :
    inWindow (t.sval b) ((lsAddr t b n o).toNat % 2 ^ 19) = lsAddr t b n o := by
  rw [inWindow, ← hc, Nat.div_add_mod', BitVec.ofNat_toNat, BitVec.setWidth_eq]

theorem gatherAt_high (h : 2 ^ 22 ≤ (t.sval b).toNat) : gatherAt t (t.sval b) = .error (cAddress, 0, t.sval b) := by
  simp only [gatherAt, if_pos h]

theorem gatherAt_detached (h : ¬2 ^ 22 ≤ (t.sval b).toNat)
    (hw : ∀ k, t.wins.getD ((t.sval b).toNat / 2 ^ 19) .empty ≠ .att k) :
    gatherAt t (t.sval b) = .error (cDetached, 0, t.sval b) := by
  simp only [gatherAt, if_neg h, bank?_eq_none hw]

theorem gatherAt_based (h : Based t b k) : gatherAt t (t.sval b) = .ok (k, (t.sval b).toNat % 2 ^ 19) := by
  simp only [gatherAt, if_neg h.1, bank?_eq_some h.2]

/-! ## The tag that a fault rests on -/

theorem tagRead_high (h : 2 ^ 22 ≤ (t.sval b).toNat) : s.tagRead d t c b = s := by
  simp only [State.tagRead, if_pos h]

theorem tagRead_detached (hw : ∀ k, t.wins.getD ((t.sval b).toNat / 2 ^ 19) .empty ≠ .att k) : s.tagRead d t c b = s := by
  unfold State.tagRead
  rw [bank?_eq_none hw]
  exact ite_self s

theorem tagRead_based (h : Based t b k) : s.tagRead d t c b = s.access d t c spK [bankTag t.cluster k] [] := by
  simp only [State.tagRead, if_neg h.1, bank?_eq_some h.2]

end Sys2Proof.Access
end

section
/-!
The faults of bank accesses: bad and misaligned addresses, detached windows, tags without a form (02 R52, R60; 13 R327-R334).
-/

namespace Sys2Proof.Access

open Sys2Proof Sys2Proof.Machine Sys2Proof.Laws

variable {s s₁ : State} {d d₁ : Domain} {t u : Tile} {g c i : BitVec 4} {v : VSpec} {x b : SSpec} {o : BitVec 5} {k n : Nat} {a : W64}
  {q : Instr} {lat code : Nat} {dest : Dest}

/-! ## The words, at a place that stands -/

theorem loadBank_error (h : s.At d t) {bad : Bad} (he : bankAt t (lsAddr t b n o) n = .error bad) :
    loadBank s c b o n dest = .next (owe s d t 6 dest bad) := by
  rw [loadBank, onDom_at h]
  simp only [he]

theorem storeBank_error (h : s.At d t) {f : Tile → List Byte} {bad : Bad} (he : bankAt t (lsAddr t b n o) n = .error bad) :
    storeBank s c b o n f = .next (refuseStore s bad) := by
  rw [storeBank, onDom_at h]
  simp only [he]

theorem execAmos_error (h : s.At d t) {ao : Aop} {bad : Bad} (he : bankAt t (t.sval b) (aopSize ao) = .error bad) :
    execAmos c x b ao s = .next (owe s d t 10 toSq bad) := by
  rw [execAmos, onDom_at h]
  simp only [he]

theorem execLdsD_error (h : s.At d t) {bad : Bad} (he : taggedAt s t b o false = .error bad) :
    execLdsD c b o s = .next ((owe s d t 7 .ls bad).tagRead d t c b) := by
  rw [execLdsD, onDom_at h]
  simp only [he]

theorem execStsE_error (h : s.At d t) {bad : Bad} (he : taggedAt s t b o true = .error bad) :
    execStsE c v b o s = .next ((refuseStore s bad).tagRead d t c b) := by
  rw [execStsE, onDom_at h]
  simp only [he]

theorem execLdsG_error (h : s.At d t) {bad : Bad} (he : gatherAt t (t.sval b) = .error bad) :
    execLdsG c v b s = .next (owe s d t 7 .ls bad) := by
  rw [execLdsG, onDom_at h]
  simp only [he]

theorem execLdsG_formless (h : s.At d t) (hb : Based t b k) (hf : elemForm (s.tagOf t.cluster k) false true = none) :
    execLdsG c v b s = .next ((owe s d t 7 .ls (cFormat, 0, t.sval b)).tagRead d t c b) := by
  rw [execLdsG, onDom_at h]
  simp only [gatherAt_based hb, hf]

theorem execLdsG_misaligned (h : s.At d t) (hb : Based t b k) {m : Nat} (hf : elemForm (s.tagOf t.cluster k) false true = some (n, m))
    (ha : (t.sval b).toNat % 2 ^ 19 % n ≠ 0) :
    execLdsG c v b s = .next ((owe s d t 7 .ls (cAlign, 0, t.sval b)).tagRead d t c b) := by
  rw [execLdsG, onDom_at h]
  simp only [gatherAt_based hb, hf, if_pos (bne_iff_ne.2 ha)]

theorem execStsS_error (h : s.At d t) {bad : Bad} (he : gatherAt t (t.sval b) = .error bad) :
    execStsS c v b i s = .next (refuseStore s bad) := by
  rw [execStsS, onDom_at h]
  simp only [he]

theorem execStsS_misaligned (h : s.At d t) (hb : Based t b k) (ha : (t.sval b).toNat % 2 ^ 19 % 4 ≠ 0) :
    execStsS c v b i s = .next (refuseStore s (cAlign, 0, t.sval b)) := by
  rw [execStsS, onDom_at h]
  simp only [gatherAt_based hb, if_pos (bne_iff_ne.2 ha)]

theorem aopSize_eq (ao : Aop) : aopSize ao = if ao = .fadd32 ∨ ao = .fmax32 then 4 else 8 := by
  cases ao <;> rfl

/-! ## A load or store that fails a check of its address -/

/-- A load's fault: its result suppressed in its latch, and the cause raised at the tick. -/
def Loses (q : Instr) (s : State) (d : Domain) (t : Tile) (lat : Nat) (dest : Dest) (code : Nat) (a : W64) : Prop :=
  exec q s = .next ((s.put (t.send (Claims.lost t d.dtick lat dest code))).raise 3 code 0 a)

theorem loses_of_owe (h : exec q s = .next (owe s d t lat dest (code, 0, a))) : Loses q s d t lat dest code a := by
  rw [Loses, h, owe_eq]

/-- No bank is attached to the window of an address. -/
def Detached (t : Tile) (a : W64) : Prop := ∀ k, t.wins.getD (a.toNat / 2 ^ 19) .empty ≠ .att k

theorem store_faults (hq : ∀ bad, bankAt t a n = .error bad → exec q s = .next (refuseStore s bad)) :
    (2 ^ 22 ≤ a.toNat → Raises q s 3 3 0 a) ∧ (¬2 ^ 22 ≤ a.toNat → a.toNat % n ≠ 0 → Raises q s 3 4 0 a) ∧
      (¬2 ^ 22 ≤ a.toNat → a.toNat % n = 0 → Detached t a → Raises q s 3 16 0 a) :=
  ⟨fun h => hq _ (bankAt_high h), fun h hn => hq _ (bankAt_misaligned h hn), fun h hn hw => hq _ (bankAt_detached h hn hw)⟩

theorem load_faults (hq : ∀ bad, bankAt t a n = .error bad → exec q s = .next (owe s d t lat dest bad)) :
    (2 ^ 22 ≤ a.toNat → Loses q s d t lat dest 3 a) ∧ (¬2 ^ 22 ≤ a.toNat → a.toNat % n ≠ 0 → Loses q s d t lat dest 4 a) ∧
      (¬2 ^ 22 ≤ a.toNat → a.toNat % n = 0 → Detached t a → Loses q s d t lat dest 16 a) :=
  ⟨fun h => loses_of_owe (hq _ (bankAt_high h)), fun h hn => loses_of_owe (hq _ (bankAt_misaligned h hn)),
    fun h hn hw => loses_of_owe (hq _ (bankAt_detached h hn hw))⟩

/-! ## Faults that rest on a tag -/

/-- With nothing open that meets the tag, the word's fault of the tick stands beside those before it, at the tile u. -/
def Fails (q : Instr) (s : State) (d : Domain) (t : Tile) (k : Nat) (u : Tile) (code : Nat) (a : W64) : Prop :=
  t.lt = s.cur.lt → Claims.Quiet s d t [bankTag t.cluster k] → Completes (exec q s) (fun s' => s'.mem = s.mem ∧ ∃ d' t', s'.At d' t' ∧
    { t' with faddr := t.faddr } = u ∧ d'.causes = d.causes ++ [⟨d.dtick, t.lt, 3, code, 0⟩] ∧ (d.causes = [] → code < 8 → t'.faddr = a))

theorem Staged.fails (h : Staged s d s₁ d₁ u) (hm : s₁.mem = s.mem) (hc : d₁.causes = d.causes) (hu : u.faddr = t.faddr) (hb : Based t b k)
    (hcode : addressCause code = true) (hq : exec q s = .next ((s₁.raise 3 code 0 a).tagRead d t c b)) :
    Fails q s d t k u code a := by
  intro hlt hquiet
  rw [tagRead_based hb] at hq
  obtain ⟨d', t', hat, htile, hcauses, haddr⟩ := h.raise_access (c := c) (rd := [bankTag t.cluster k]) (wr := []) hc hlt hu hcode a
    hquiet (fun r hr => hr) (by simpa using region_le_bankTag t.cluster k)
  exact ⟨_, hq, hm, d', t', hat, htile, hcauses, fun hd _ => haddr hd⟩

theorem load_fails (h : s.At d t) (hb : Based t b k) (hcode : addressCause code = true)
    (hq : exec q s = .next ((owe s d t 7 .ls (code, 0, a)).tagRead d t c b)) :
    Fails q s d t k (t.send (Claims.lost t d.dtick 7 .ls code)) code a := by
  rw [owe_eq] at hq
  exact Staged.fails ((Staged.refl h).put (u := t.send (Claims.lost t d.dtick 7 .ls code)) rfl) rfl rfl rfl hb hcode hq

theorem store_fails (h : s.At d t) (hb : Based t b k) (hcode : addressCause code = true)
    (hq : exec q s = .next ((refuseStore s (code, 0, a)).tagRead d t c b)) : Fails q s d t k t code a :=
  Staged.fails (Staged.refl h) rfl rfl rfl hb hcode hq

/-! ## The statement's clauses -/

theorem plain_store_faults (h : s.At d t) : ∀ q ∈ ([(.stsV g c v b o, 128), (.stsW32 g c x b o, 4), (.stsW64 g c x b o, 8)] :
    List (Instr × Nat)), let a := lsAddr t b q.2 o
    (2 ^ 22 ≤ a.toNat → Raises q.1 s 3 3 0 a) ∧ (¬2 ^ 22 ≤ a.toNat → a.toNat % q.2 ≠ 0 → Raises q.1 s 3 4 0 a) ∧
      (¬2 ^ 22 ≤ a.toNat → a.toNat % q.2 = 0 → Detached t a → Raises q.1 s 3 16 0 a) := by
  simp only [List.forall_mem_cons, List.not_mem_nil, false_imp_iff, implies_true, and_true]
  exact ⟨store_faults (fun _ he => storeBank_error h he), store_faults (fun _ he => storeBank_error h he),
    store_faults (fun _ he => storeBank_error h he)⟩

theorem plain_load_faults (h : s.At d t) (ao : Aop) : ∀ q ∈ ([(.ldsV g c b o, 128, .ls, 6, lsAddr t b 128 o),
      (.ldsW32 g c b o, 4, .sq none, 6, lsAddr t b 4 o), (.ldsW64 g c b o, 8, .sq none, 6, lsAddr t b 8 o),
      (.amos g c x b ao, if ao = .fadd32 ∨ ao = .fmax32 then 4 else 8, .sq none, 10, t.sval b)] : List (Instr × Nat × Dest × Nat × W64)),
    let a := q.2.2.2.2
    (2 ^ 22 ≤ a.toNat → Loses q.1 s d t q.2.2.2.1 q.2.2.1 3 a) ∧
      (¬2 ^ 22 ≤ a.toNat → a.toNat % q.2.1 ≠ 0 → Loses q.1 s d t q.2.2.2.1 q.2.2.1 4 a) ∧
      (¬2 ^ 22 ≤ a.toNat → a.toNat % q.2.1 = 0 → Detached t a → Loses q.1 s d t q.2.2.2.1 q.2.2.1 16 a) := by
  simp only [List.forall_mem_cons, List.not_mem_nil, false_imp_iff, implies_true, and_true, ← aopSize_eq]
  exact ⟨load_faults (fun _ he => loadBank_error h he), load_faults (fun _ he => loadBank_error h he),
    load_faults (fun _ he => loadBank_error h he), load_faults (fun _ he => execAmos_error h he)⟩

theorem tagged_high (h : s.At d t) (hb : 2 ^ 22 ≤ (t.sval b).toNat) :
    (∀ q ∈ ([.stsE g c v b o, .stsS g c v b i] : List Instr), Raises q s 3 3 0 (t.sval b)) ∧
      ∀ q ∈ ([.ldsD g c b o, .ldsG g c v b] : List Instr), Loses q s d t 7 .ls 3 (t.sval b) := by
  simp only [List.forall_mem_cons, List.not_mem_nil, false_imp_iff, implies_true, and_true]
  refine ⟨⟨(execStsE_error h (taggedAt_high hb)).trans (by rw [tagRead_high hb]; rfl), execStsS_error h (gatherAt_high hb)⟩,
    loses_of_owe ((execLdsD_error h (taggedAt_high hb)).trans (by rw [tagRead_high hb]; rfl)),
    loses_of_owe (execLdsG_error h (gatherAt_high hb))⟩

theorem tagged_detached (h : s.At d t) (hb : ¬2 ^ 22 ≤ (t.sval b).toNat) (hw : Detached t (t.sval b)) :
    (∀ q ∈ ([.stsE g c v b o, .stsS g c v b i] : List Instr), Raises q s 3 16 0 (t.sval b)) ∧
      ∀ q ∈ ([.ldsD g c b o, .ldsG g c v b] : List Instr), Loses q s d t 7 .ls 16 (t.sval b) := by
  simp only [List.forall_mem_cons, List.not_mem_nil, false_imp_iff, implies_true, and_true]
  refine ⟨⟨(execStsE_error h (taggedAt_detached hb hw)).trans (by rw [tagRead_detached hw]; rfl),
      execStsS_error h (gatherAt_detached hb hw)⟩,
    loses_of_owe ((execLdsD_error h (taggedAt_detached hb hw)).trans (by rw [tagRead_detached hw]; rfl)),
    loses_of_owe (execLdsG_error h (gatherAt_detached hb hw))⟩

/-- An offset in a bank is aligned where its address is. -/
theorem mod_window (y : Nat) {w : Nat} (hw : w ∣ 2 ^ 19) : y % 2 ^ 19 % w = y % w := Nat.mod_mod_of_dvd y hw

theorem gather_unit {q : Nat × Nat} (hq : q ∈ (0, 4) :: Claims.forms) : q.2 ∣ 2 ^ 19 := by
  have hall : ∀ q ∈ (0, 4) :: Claims.forms, q.2 ∣ 2 ^ 19 := by decide
  exact hall q hq

theorem ldsG_misaligned_fails (h : s.At d t) (hb : Based t b k) {q : Nat × Nat} (hq : q ∈ (0, 4) :: Claims.forms)
    (hg : Claims.Tagged (s.tagOf t.cluster k) q.1) (ha : (t.sval b).toNat % q.2 ≠ 0) :
    Fails (.ldsG g c v b) s d t k (t.send (Claims.lost t d.dtick 7 .ls 4)) 4 (t.sval b) := by
  obtain ⟨m, hm⟩ := elemForm_gather hq hg
  exact load_fails h hb rfl (execLdsG_misaligned h hb hm (by rwa [mod_window _ (gather_unit hq)]))

theorem ldsD_crossing_fails (h : s.At d t) (hb : Based t b k) {m : Nat}
    (hf : elemForm (s.tagOf t.cluster k) false false = some (m, n))
    (hc : (lsAddr t b n o).toNat / 2 ^ 19 ≠ (t.sval b).toNat / 2 ^ 19) :
    Fails (.ldsD g c b o) s d t k (t.send (Claims.lost t d.dtick 7 .ls 3)) 3 (lsAddr t b n o) :=
  load_fails h hb rfl (execLdsD_error h (taggedAt_crossing hb hf hc))

theorem ldsD_misaligned_fails (h : s.At d t) (hb : Based t b k) {m : Nat}
    (hf : elemForm (s.tagOf t.cluster k) false false = some (m, n))
    (hc : (lsAddr t b n o).toNat / 2 ^ 19 = (t.sval b).toNat / 2 ^ 19) (ha : (lsAddr t b n o).toNat % n ≠ 0) :
    Fails (.ldsD g c b o) s d t k (t.send (Claims.lost t d.dtick 7 .ls 4)) 4 (lsAddr t b n o) :=
  load_fails h hb rfl (execLdsD_error h (taggedAt_misaligned hb hf hc ha))

theorem stsE_crossing_fails (h : s.At d t) (hb : Based t b k) {m : Nat}
    (hf : elemForm (s.tagOf t.cluster k) true false = some (m, n))
    (hc : (lsAddr t b n o).toNat / 2 ^ 19 ≠ (t.sval b).toNat / 2 ^ 19) :
    Fails (.stsE g c v b o) s d t k t 3 (lsAddr t b n o) :=
  store_fails h hb rfl (execStsE_error h (taggedAt_crossing hb hf hc))

theorem stsE_misaligned_fails (h : s.At d t) (hb : Based t b k) {m : Nat}
    (hf : elemForm (s.tagOf t.cluster k) true false = some (m, n))
    (hc : (lsAddr t b n o).toNat / 2 ^ 19 = (t.sval b).toNat / 2 ^ 19) (ha : (lsAddr t b n o).toNat % n ≠ 0) :
    Fails (.stsE g c v b o) s d t k t 4 (lsAddr t b n o) :=
  store_fails h hb rfl (execStsE_error h (taggedAt_misaligned hb hf hc ha))

/-- The faults of bank accesses, by their words: plain ones, tagged ones outside a window, and those that rest on a tag. -/
theorem bankAccessFaults : Claims.BankAccessFaults := by
  intro s d t h g c i v x b o ao
  refine ⟨plain_store_faults h, plain_load_faults h ao, tagged_high h, tagged_detached h, fun k hlow hwin => ?_⟩
  have hb : Based t b k := ⟨hlow, hwin⟩
  refine ⟨fun ha => ?_, fun hf => ?_, fun hf => ?_, fun hf => ?_, fun q hq hg ha => ?_, fun q hq hg => ⟨fun hc => ⟨?_, ?_⟩,
    fun hc ha => ⟨?_, ?_⟩⟩, fun hg => ⟨fun hc => ?_, fun hc ha => ?_⟩⟩
  · exact execStsS_misaligned h hb (by rwa [mod_window _ (by decide)])
  · exact load_fails h hb rfl (execLdsD_error h (taggedAt_formless hb hf))
  · exact store_fails h hb rfl (execStsE_error h (taggedAt_formless hb hf))
  · exact load_fails h hb rfl (execLdsG_formless h hb (elemForm_gatherless hf))
  · exact ldsG_misaligned_fails h hb hq hg ha
  · exact ldsD_crossing_fails h hb (elemForm_tagged hq hg false false) hc
  · exact stsE_crossing_fails h hb (elemForm_tagged hq hg true false) hc
  · exact ldsD_misaligned_fails h hb (elemForm_tagged hq hg false false) hc ha
  · exact stsE_misaligned_fails h hb (elemForm_tagged hq hg true false) hc ha
  · exact ldsD_crossing_fails h hb (elemForm_tern hg) hc
  · exact ldsD_misaligned_fails h hb (elemForm_tern hg) hc ha

end Sys2Proof.Access
end

section
/-!
The faults of global accesses: bad and misaligned addresses, missing leases, pages without a form (02 R56, 03 R76, 13 R329).
-/

namespace Sys2Proof.Access

open Sys2Proof Sys2Proof.Machine Sys2Proof.Laws

variable {s s₁ : State} {d d₁ : Domain} {t t₁ u : Tile} {g c i : BitVec 4} {v : VSpec} {x b : SSpec} {o : BitVec 5} {k n : Nat} {a : W64}
  {q : Instr} {lat code : Nat} {dest : Dest} {wr noHost : Bool}

/-! ## The fields of a global address -/

theorem ownerOf_eq (a : W64) : ownerOf a = a.toNat / 2 ^ 61 := by
  have := a.isLt
  simp only [ownerOf, BitVec.extractLsb'_toNat, Nat.shiftRight_eq_div_pow]
  omega

theorem lowAddr_eq (a : W64) : lowAddr a = a.toNat % 2 ^ 48 := by
  simp only [lowAddr, BitVec.extractLsb'_toNat, Nat.shiftRight_eq_div_pow]
  omega

/-- The owner is below 6, and bits 60:48 are zero (02 R56). -/
def GoodAddr (a : W64) : Prop := a.toNat / 2 ^ 61 < 6 ∧ a.toNat / 2 ^ 48 % 2 ^ 13 = 0

theorem reserved_eq_zero (a : W64) : a.extractLsb' 48 13 = 0 ↔ a.toNat / 2 ^ 48 % 2 ^ 13 = 0 := by
  rw [← BitVec.toNat_inj, BitVec.extractLsb'_toNat, Nat.shiftRight_eq_div_pow]
  rfl

theorem addrOk_iff (a : W64) : addrOk a = true ↔ GoodAddr a := by
  rw [addrOk, Bool.and_eq_true, decide_eq_true_iff, beq_iff_eq, reserved_eq_zero, ownerOf_eq, GoodAddr]

/-! ## The checks of a global access, in their order -/

theorem globCheck_address (h : ¬GoodAddr a ∨ noHost = true ∧ a.toNat / 2 ^ 61 = 4) :
    globCheck s d a n wr noHost = some (cAddress, 0, a) := by
  unfold globCheck
  rw [if_pos]
  rw [Bool.or_eq_true, Bool.not_eq_true', Bool.and_eq_true, beq_iff_eq, ownerOf_eq, ← Bool.not_eq_true, addrOk_iff]
  exact h

/-- The address passes, for an access that may take one of the host or not. -/
def Admitted (a : W64) (noHost : Bool) : Prop := GoodAddr a ∧ (noHost = true → a.toNat / 2 ^ 61 ≠ 4)

theorem Admitted.passes (h : Admitted a noHost) : (!addrOk a || (noHost && ownerOf a == 4)) = false := by
  obtain ⟨hg, hh⟩ := h
  rw [(addrOk_iff a).2 hg, ownerOf_eq]
  cases noHost with
  | false => rfl
  | true => simpa using hh rfl

theorem globCheck_align (h : Admitted a noHost) (hn : a.toNat % n ≠ 0) :
    globCheck s d a n wr noHost = some (cAlign, 0, a) := by
  simp only [globCheck, h.passes, Bool.false_eq_true, if_false, if_pos (bne_iff_ne.2 hn)]

theorem globCheck_lease (h : Admitted a noHost) (hn : a.toNat % n = 0) (hl : leaseOk s d wr a n = false) :
    globCheck s d a n wr noHost = some (cLease, 0, a) := by
  simp only [globCheck, h.passes, Bool.false_eq_true, if_false, hn, bne_self_eq_false, hl, Bool.not_false, if_true]

theorem globCheck_none (h : Admitted a noHost) (hn : a.toNat % n = 0) (hl : leaseOk s d wr a n = true) :
    globCheck s d a n wr noHost = none := by
  simp only [globCheck, h.passes, Bool.false_eq_true, if_false, hn, bne_self_eq_false, hl, Bool.not_true]

theorem allowed_of_good (h : GoodAddr a) : Admitted a false := ⟨h, nofun⟩

/-- Only an aligned store of a supervisor to the launch port posts a packet. -/
theorem postsPacket_iff : postsPacket d a = true ↔
    d.sup = true ∧ a.toNat / 2 ^ 61 < 4 ∧ a.toNat / 2 ^ 48 % 2 ^ 13 = 0 ∧ a.toNat % 2 ^ 48 / 128 = 0x0000FFFFFFFFF000 / 128 := by
  simp only [postsPacket, Bool.and_eq_true, decide_eq_true_iff, beq_iff_eq, reserved_eq_zero, ownerOf_eq, lowAddr_eq, portAddr,
    and_assoc]

/-! ## The words, at a place that stands -/

theorem latGlobal_eq (d : Domain) : latGlobal d = if 4 ≤ field d.pkt 1 1 then 900 else 600 := by
  unfold latGlobal Domain.wide Domain.shape
  by_cases hw : 4 ≤ field d.pkt 1 1 <;> simp [hw]

theorem latAmog_eq (d : Domain) : (if d.wide then 1200 else 900) = if latGlobal d = 900 then 1200 else 900 := by
  unfold latGlobal
  cases d.wide <;> rfl

theorem loadGlobal_error (h : s.At d t) {bad : Bad} (he : globCheck s d (lsAddr t b n o) n false false = some bad) :
    loadGlobal s c b o n dest = .next (owe s d t (latGlobal d) dest bad) := by
  rw [loadGlobal, onDom_at h]
  simp only [he]

theorem storeGlobal_error (h : s.At d t) {f : Tile → List Byte} {bad : Bad}
    (hp : ¬(postsPacket d (lsAddr t b n o) = true ∧ (lsAddr t b n o).toNat % n = 0))
    (he : globCheck s d (lsAddr t b n o) n true false = some bad) : storeGlobal s c b o n f = .next (refuseStore s bad) := by
  rw [storeGlobal, onDom_at h]
  have hpost : (postsPacket d (lsAddr t b n o) && (lsAddr t b n o).toNat % n == 0) = false := by
    rw [Bool.eq_false_iff, Ne, Bool.and_eq_true, beq_iff_eq]
    exact hp
  simp only [hpost, Bool.false_eq_true, if_false, he]

theorem execAmog_error (h : s.At d t) {ao : Aop} {bad : Bad} (he : globCheck s d (t.sval b) (aopSize ao) true true = some bad) :
    execAmog c x b ao s = .next (owe s d t (if d.wide then 1200 else 900) toSq bad) := by
  rw [execAmog, onDom_at h]
  simp only [he]

theorem execLdgD_base (h : s.At d t) {bad : Bad} (he : globCheck s d (t.sval b) 1 false false = some bad) :
    execLdgD c b o s = .next (owe s d t (latGlobal d + 1) .ls bad) := by
  rw [execLdgD, onDom_at h]
  simp only [he]

variable {p : Place}

theorem execLdgD_formless (h : s.At d t) (hg : globCheck s d (t.sval b) 1 false false = none)
    (hr : resolveFor s d t false (t.sval b) = .ok p) (hf : elemForm p.tag false false = none) :
    execLdgD c b o s = .next ((s.useRead d (t.sval b)).lateFault d t (latGlobal d + 1) .ls cFormat (t.sval b)) := by
  rw [execLdgD, onDom_at h]
  simp only [hg, hr, hf]

theorem execLdgD_error (h : s.At d t) (hg : globCheck s d (t.sval b) 1 false false = none)
    (hr : resolveFor s d t false (t.sval b) = .ok p) {m : Nat} (hf : elemForm p.tag false false = some (m, n)) {bad : Bad}
    (he : globCheck s d (lsAddr t b n o) n false false = some bad) :
    execLdgD c b o s = .next (owe s d t (latGlobal d + 1) .ls bad) := by
  rw [execLdgD, onDom_at h]
  unfold lsAddr at he
  simp only [hg, hr, hf, he]

theorem execLdgD_otherTag (h : s.At d t) (hg : globCheck s d (t.sval b) 1 false false = none)
    (hr : resolveFor s d t false (t.sval b) = .ok p) {m : Nat} (hf : elemForm p.tag false false = some (m, n))
    (hn : globCheck s d (lsAddr t b n o) n false false = none) {r : Place} (hr' : resolveFor s d t false (lsAddr t b n o) = .ok r)
    (htag : r.tag ≠ p.tag) : execLdgD c b o s =
      .next (((s.useRead d (t.sval b)).useRead d (lsAddr t b n o)).lateFault d t (latGlobal d + 1) .ls cFormat (lsAddr t b n o)) := by
  rw [execLdgD, onDom_at h]
  unfold lsAddr at hn hr' ⊢
  simp only [hg, hr, hf, hn, hr', if_pos (bne_iff_ne.2 htag)]

/-! ## Loads and stores that fail a check -/

theorem globalStore_faults (hq : ∀ bad, ¬(postsPacket d a = true ∧ a.toNat % n = 0) → globCheck s d a n true false = some bad →
      exec q s = .next (refuseStore s bad)) :
    (¬GoodAddr a → Raises q s 3 3 0 a) ∧ (GoodAddr a → a.toNat % n ≠ 0 → Raises q s 3 4 0 a) ∧
      (GoodAddr a → a.toNat % n = 0 → leaseOk s d true a n = false →
        ¬(d.sup = true ∧ a.toNat / 2 ^ 61 < 4 ∧ a.toNat % 2 ^ 48 / 128 = 0x0000FFFFFFFFF000 / 128) → Raises q s 3 17 0 a) := by
  refine ⟨fun h => hq _ (fun hp => h ?_) (globCheck_address (.inl h)), fun h hn => hq _ (fun hp => hn hp.2) (globCheck_align (allowed_of_good h) hn),
    fun h hn hl hport => hq _ (fun hp => hport ?_) (globCheck_lease (allowed_of_good h) hn hl)⟩
  · obtain ⟨-, ho, hz, -⟩ := postsPacket_iff.1 hp.1
    exact ⟨by omega, hz⟩
  · obtain ⟨hsup, ho, -, hl⟩ := postsPacket_iff.1 hp.1
    exact ⟨hsup, ho, hl⟩

theorem globalLoad_faults (hq : ∀ bad, globCheck s d a n wr noHost = some bad → exec q s = .next (owe s d t lat dest bad)) :
    ((¬GoodAddr a ∨ noHost = true ∧ a.toNat / 2 ^ 61 = 4) → Loses q s d t lat dest 3 a) ∧
      (Admitted a noHost → a.toNat % n ≠ 0 → Loses q s d t lat dest 4 a) ∧
      (Admitted a noHost → a.toNat % n = 0 → leaseOk s d wr a n = false → Loses q s d t lat dest 17 a) :=
  ⟨fun h => loses_of_owe (hq _ (globCheck_address h)), fun h hn => loses_of_owe (hq _ (globCheck_align h hn)),
    fun h hn hl => loses_of_owe (hq _ (globCheck_lease h hn hl))⟩

/-! ## LDG.D over a page of another form -/

/-- The read of a page changes memory and stations alone. -/
theorem useRead_keeps (s : State) (d : Domain) (va : W64) : (s.useRead d va).cur = s.cur ∧ (s.useRead d va).egress = s.egress ∧
    (s.useRead d va).macl = s.macl ∧ (s.useRead d va).domains = s.domains := by
  unfold State.useRead
  split
  · exact ⟨rfl, rfl, rfl, rfl⟩
  · split
    · unfold State.install
      split
      · exact ⟨rfl, rfl, rfl, rfl⟩
      · exact ⟨rfl, rfl, rfl, rfl⟩
    · exact ⟨rfl, rfl, rfl, rfl⟩

theorem Staged.useRead (h : Staged s d s₁ d₁ t₁) (e : Domain) (va : W64) : Staged s d (s₁.useRead e va) d₁ t₁ := by
  obtain ⟨hcur, hegress, hmacl, hdomains⟩ := useRead_keeps s₁ e va
  refine ⟨hcur.trans h.cur, hegress.trans h.egress, hmacl.trans h.macl, ?_, h.order⟩
  unfold State.At State.dom?
  rw [hcur, hdomains]
  exact h.place

/-- LDG.D takes the format fault at its completion tick, and sends no request. -/
def Late (q : Instr) (s : State) (d : Domain) (t : Tile) (lat : Nat) (a : W64) : Prop :=
  Completes (exec q s) (fun s' => ∃ d', s'.At d' (t.send (Claims.lost t d.dtick (lat + 1) .ls 5)) ∧ d'.causes = d.causes ∧
    d'.gops = d.gops ∧ d'.deferred = d.deferred ++ [⟨d.dtick + lat + 1, t.lt, 3, 5, 0, a, none⟩])

theorem Staged.late (h : Staged s d s₁ d t) (hq : exec q s = .next (s₁.lateFault d t (lat + 1) .ls cFormat a)) : Late q s d t lat a :=
  ⟨_, hq, _, (h.lateFault (u := t) rfl (code := cFormat) rfl (lat + 1) .ls a).place, rfl, rfl, rfl⟩

/-! ## The statement's clauses -/

theorem globalStores_fault (h : s.At d t) : ∀ q ∈ ([(.stgV g c v b o, 128), (.stgW64 g c x b o, 8)] : List (Instr × Nat)),
    let a := lsAddr t b q.2 o
    (¬GoodAddr a → Raises q.1 s 3 3 0 a) ∧ (GoodAddr a → a.toNat % q.2 ≠ 0 → Raises q.1 s 3 4 0 a) ∧
      (GoodAddr a → a.toNat % q.2 = 0 → leaseOk s d true a q.2 = false →
        ¬(d.sup = true ∧ a.toNat / 2 ^ 61 < 4 ∧ a.toNat % 2 ^ 48 / 128 = 0x0000FFFFFFFFF000 / 128) → Raises q.1 s 3 17 0 a) := by
  simp only [List.forall_mem_cons, List.not_mem_nil, false_imp_iff, implies_true, and_true]
  exact ⟨globalStore_faults (fun _ hp he => storeGlobal_error h hp he), globalStore_faults (fun _ hp he => storeGlobal_error h hp he)⟩

theorem globalLoads_fault (h : s.At d t) (hl : latGlobal d = lat) :
    ∀ q ∈ ([(.ldgV g c b o, 128, .ls, lsAddr t b 128 o), (.ldgW64 g c b o, 8, .sq none, lsAddr t b 8 o)] : List (Instr × Nat × Dest × W64)),
    let a := q.2.2.2
    (¬GoodAddr a → Loses q.1 s d t lat q.2.2.1 3 a) ∧ (GoodAddr a → a.toNat % q.2.1 ≠ 0 → Loses q.1 s d t lat q.2.2.1 4 a) ∧
      (GoodAddr a → a.toNat % q.2.1 = 0 → leaseOk s d false a q.2.1 = false → Loses q.1 s d t lat q.2.2.1 17 a) := by
  subst hl
  have checks : ∀ {q : Instr} {dest : Dest} {n : Nat} {a : W64},
      (∀ bad, globCheck s d a n false false = some bad → exec q s = .next (owe s d t (latGlobal d) dest bad)) →
      (¬GoodAddr a → Loses q s d t (latGlobal d) dest 3 a) ∧ (GoodAddr a → a.toNat % n ≠ 0 → Loses q s d t (latGlobal d) dest 4 a) ∧
      (GoodAddr a → a.toNat % n = 0 → leaseOk s d false a n = false → Loses q s d t (latGlobal d) dest 17 a) := by
    intro q dest n a hq
    obtain ⟨haddr, halign, hlease⟩ := globalLoad_faults hq
    exact ⟨fun h => haddr (.inl h), fun h => halign (allowed_of_good h), fun h => hlease (allowed_of_good h)⟩
  simp only [List.forall_mem_cons, List.not_mem_nil, false_imp_iff, implies_true, and_true]
  exact ⟨checks (fun _ he => loadGlobal_error h he), checks (fun _ he => loadGlobal_error h he)⟩

theorem amog_faults (h : s.At d t) (hl : latGlobal d = lat) (ao : Aop) :
    let l := if lat = 900 then 1200 else 900
    let size := if ao = .fadd32 ∨ ao = .fmax32 then 4 else 8
    let a := t.sval b
    ((¬GoodAddr a ∨ a.toNat / 2 ^ 61 = 4) → Loses (.amog g c x b ao) s d t l (.sq none) 3 a) ∧
      (GoodAddr a → a.toNat / 2 ^ 61 ≠ 4 → (a.toNat % size ≠ 0 → Loses (.amog g c x b ao) s d t l (.sq none) 4 a) ∧
        (a.toNat % size = 0 → leaseOk s d true a size = false → Loses (.amog g c x b ao) s d t l (.sq none) 17 a)) := by
  subst hl
  simp only [← aopSize_eq, ← latAmog_eq]
  obtain ⟨haddr, halign, hlease⟩ := globalLoad_faults (q := .amog g c x b ao) (fun _ he => execAmog_error h he)
  exact ⟨fun ha => haddr (ha.imp id (fun ho => ⟨rfl, ho⟩)), fun hg ho => ⟨halign ⟨hg, fun _ => ho⟩, hlease ⟨hg, fun _ => ho⟩⟩⟩

/-- LDG.D takes a page of one element a lane, or of TERN5. -/
theorem elemForm_page {G : Tag} {q : Nat × Nat} (hq : q ∈ (10, 8) :: Claims.forms.map (fun q => (q.1, 32 * q.2)))
    (hG : Claims.Tagged G q.1) : ∃ m, elemForm G false false = some (m, q.2) := by
  rcases List.mem_cons.1 hq with rfl | hq
  · exact ⟨0, elemForm_tern hG⟩
  · obtain ⟨f, hf, rfl⟩ := List.mem_map.1 hq
    exact ⟨f.2, elemForm_tagged hf hG false false⟩

theorem ldgD_faults (h : s.At d t) (hl : latGlobal d = lat) (hg : GoodAddr (t.sval b)) (hlease : leaseOk s d false (t.sval b) 1 = true)
    (hr : resolveFor s d t false (t.sval b) = .ok p) :
    (Claims.formless p.tag false → Late (.ldgD g c b o) s d t lat (t.sval b)) ∧
      ∀ q ∈ (10, 8) :: Claims.forms.map (fun q => (q.1, 32 * q.2)), Claims.Tagged p.tag q.1 → let a := lsAddr t b q.2 o
        (¬GoodAddr a → Loses (.ldgD g c b o) s d t (lat + 1) .ls 3 a) ∧
        (GoodAddr a → a.toNat % q.2 ≠ 0 → Loses (.ldgD g c b o) s d t (lat + 1) .ls 4 a) ∧
        (GoodAddr a → a.toNat % q.2 = 0 → leaseOk s d false a q.2 = false → Loses (.ldgD g c b o) s d t (lat + 1) .ls 17 a) ∧
        (GoodAddr a → a.toNat % q.2 = 0 → leaseOk s d false a q.2 = true → ∀ r, resolveFor s d t false a = .ok r → r.tag ≠ p.tag →
          Late (.ldgD g c b o) s d t lat a) := by
  subst hl
  have hbase : globCheck s d (t.sval b) 1 false false = none := globCheck_none (allowed_of_good hg) (Nat.mod_one _) hlease
  refine ⟨fun hf => ((Staged.refl h).useRead d _).late (execLdgD_formless h hbase hr (elemForm_formless hf)), fun q hq hG => ?_⟩
  obtain ⟨m, hm⟩ := elemForm_page hq hG
  obtain ⟨haddr, halign, hcover⟩ := globalLoad_faults (q := .ldgD g c b o) (n := q.2) (fun _ he => execLdgD_error h hbase hr hm he)
  exact ⟨fun ha => haddr (.inl ha), fun ha => halign (allowed_of_good ha), fun ha => hcover (allowed_of_good ha), fun ha hn hc r hr' htag =>
    (((Staged.refl h).useRead d _).useRead d _).late
      (execLdgD_otherTag h hbase hr hm (globCheck_none (allowed_of_good ha) hn hc) hr' htag)⟩

theorem globalAccessFaults : Claims.GlobalAccessFaults := by
  intro s d t h g c v x b o ao
  obtain ⟨hamog, hamog'⟩ := amog_faults (g := g) (c := c) (x := x) (b := b) h (latGlobal_eq d) ao
  obtain ⟨hbase, -, hlease⟩ := globalLoad_faults (q := .ldgD g c b o) (fun _ he => execLdgD_base h he)
  rw [latGlobal_eq] at hbase hlease
  exact ⟨globalStores_fault h, globalLoads_fault h (latGlobal_eq d), hamog, hamog', fun hg => hbase (.inl hg),
    fun hg => hlease (allowed_of_good hg) (Nat.mod_one _), fun p hg hl hr => ldgD_faults h (latGlobal_eq d) hg hl hr⟩

end Sys2Proof.Access
end

section
/-!
The races and flaws of plain and tagged bank accesses and of AMOS (06 R157, 13 R327, 18 R434).
-/

namespace Sys2Proof.Access

open Sys2Proof Sys2Proof.Machine Sys2Proof.Laws

variable {s s₁ : State} {d d₁ : Domain} {t t₁ u : Tile} {g c i : BitVec 4} {v : VSpec} {x b : SSpec} {o : BitVec 5} {k n : Nat} {a : W64}
  {q : Instr} {lat : Nat} {dest : Dest} {rd wr rs : List (Nat × Nat)}

/-- The bytes of an access of n bytes in bank k. -/
def bankBytes (t : Tile) (k : Nat) (a : W64) (n : Nat) : Nat × Nat := (Claims.bankPlace t a k, n)

/-! ## Words whose checks pass, at a place that stands -/

theorem loadBank_legal (h : s.At d t) (hb : Claims.bankLegal t (lsAddr t b n o) n k) :
    ∃ val y, loadBank s c b o n dest = .next ((s.deliverSound d t 6 dest val y 0 [bankBytes t k (lsAddr t b n o) n]
      (lsAddr t b n o)).access d t c spK [bankBytes t k (lsAddr t b n o) n] []) := by
  rw [loadBank, onDom_at h]
  simp only [bankAt_legal hb]
  exact ⟨_, _, rfl⟩

theorem storeBank_legal (h : s.At d t) (hb : Claims.bankLegal t (lsAddr t b n o) n k) (f : Tile → List Byte) :
    storeBank s c b o n f = .next ((s.storeSound t.cluster (bankBytes t k (lsAddr t b n o) n) (f t) (lsAddr t b n o)).access
      d t c spK [] [bankBytes t k (lsAddr t b n o) n]) := by
  rw [storeBank, onDom_at h]
  simp only [bankAt_legal hb]
  rfl

/-- An AMOS of sound bytes gives its old value and writes; one of others owes its result. -/
theorem execAmos_legal (h : s.At d t) {ao : Aop} (hb : Claims.bankLegal t (t.sval b) (aopSize ao) k) :
    (s.sound [bankBytes t k (t.sval b) (aopSize ao)] = true → ∃ val fl w, execAmos c x b ao s =
      .next (((s.put (t.deliver d.dtick 10 toSq val [] fl)).storeLocal t.cluster (Claims.bankPlace t (t.sval b) k)
        (toLE (aopSize ao) w)).access d t c spK [bankBytes t k (t.sval b) (aopSize ao)] [bankBytes t k (t.sval b) (aopSize ao)])) ∧
    (s.sound [bankBytes t k (t.sval b) (aopSize ao)] = false → execAmos c x b ao s =
      .next (((s.countFlaws [bankBytes t k (t.sval b) (aopSize ao)]).lateFault d t 10 toSq cIntegrity (t.sval b)).access d t c spK
        [bankBytes t k (t.sval b) (aopSize ao)] [bankBytes t k (t.sval b) (aopSize ao)])) := by
  rw [execAmos, onDom_at h]
  unfold bankBytes Claims.bankPlace
  simp only [bankAt_legal hb]
  refine ⟨fun hs => ?_, fun hs => ?_⟩
  · rw [if_pos hs]
    exact ⟨_, _, _, rfl⟩
  · rw [if_neg (by rw [hs]; decide)]

theorem execLdsD_legal (h : s.At d t) (hb : Based t b k) {m : Nat} (hf : elemForm (s.tagOf t.cluster k) false false = some (m, n))
    (hc : (lsAddr t b n o).toNat / 2 ^ 19 = (t.sval b).toNat / 2 ^ 19) (ha : (lsAddr t b n o).toNat % n = 0) :
    ∃ y fl, execLdsD c b o s = .next ((s.deliverSound d t 7 .ls 0 y fl [bankBytes t k (lsAddr t b n o) n] (lsAddr t b n o)).access
      d t c spK [bankBytes t k (lsAddr t b n o) n, bankTag t.cluster k] []) := by
  rw [execLdsD, onDom_at h]
  simp only [taggedAt_legal hb hf hc ha, inWindow_lsAddr hc]
  exact ⟨_, _, rfl⟩

/-- The lanes of STS.E as elements of a format. -/
def encoded (f : Nat) (y : Lanes) : List (Nat × Flg) := y.map (encodeElem f)

theorem execStsE_legal (h : s.At d t) (hb : Based t b k) {m : Nat} (hf : elemForm (s.tagOf t.cluster k) true false = some (m, n))
    (hc : (lsAddr t b n o).toNat / 2 ^ 19 = (t.sval b).toNat / 2 ^ 19) (ha : (lsAddr t b n o).toNat % n = 0) :
    execStsE c v b o s = .next (((s.storeSound t.cluster (bankBytes t k (lsAddr t b n o) n)
        ((encoded (s.tagOf t.cluster k).fmt.toNat (t.vval v)).flatMap (fun e => toLE (n / 32) e.1)) (lsAddr t b n o)).access d t c spK
        [bankTag t.cluster k] [bankBytes t k (lsAddr t b n o) n]).updDom d.seq (fun x => x.enterStoreFlags t.lt
        (orFlags ((encoded (s.tagOf t.cluster k).fmt.toNat (t.vval v)).map (fun e => e.2))))) := by
  rw [execStsE, onDom_at h]
  simp only [taggedAt_legal hb hf hc ha, inWindow_lsAddr hc]
  rfl

/-! ## Plain loads and stores -/

theorem bankBytes_place (t : Tile) (k : Nat) (a : W64) (n : Nat) : ∀ r ∈ [bankBytes t k a n], region 3 ≤ r.1 := by
  simpa [bankBytes, Claims.bankPlace] using region_le_locBank t.cluster k _

theorem plainLoad_outcomes (h : s.At d t) (hlt : t.lt = s.cur.lt) (hq : exec q s = loadBank s c b o n dest)
    (hb : Claims.bankLegal t (lsAddr t b n o) n k) : let r := bankBytes t k (lsAddr t b n o) n
    Racing q s d t c [r] [] ∧ (s.sound [r] = false → Claims.Quiet s d t [r] → Owed q s d t t 6 dest (· = lsAddr t b n o)) := by
  obtain ⟨val, y, hl⟩ := loadBank_legal (c := c) (dest := dest) h hb
  refine ⟨load_racing h hlt rfl (hq.trans hl), fun hs hquiet => ?_⟩
  rw [deliverSound_flawed hs] at hl
  exact load_owed h rfl rfl (hq.trans hl) hquiet (fun r hr => hr) (bankBytes_place _ _ _ _)

theorem plainStore_outcomes (h : s.At d t) (hlt : t.lt = s.cur.lt) {f : Tile → List Byte} (hn : (f t).length = n)
    (hq : exec q s = storeBank s c b o n f) (hb : Claims.bankLegal t (lsAddr t b n o) n k) : let r := bankBytes t k (lsAddr t b n o) n
    (s.mergeSound r = true → Racing q s d t c [] [r]) ∧
      (s.mergeSound r = false → Claims.Quiet s d t [r] → Refused q s d t t [] (· = lsAddr t b n o)) := by
  have hl := hq.trans (storeBank_legal (c := c) h hb f)
  refine ⟨fun hm => ?_, fun hm hquiet => ?_⟩
  · rw [storeSound_sound hm] at hl
    exact store_racing h hlt hn hl
  · rw [storeSound_flawed hm] at hl
    exact store_refused h hlt rfl hl hquiet (fun r hr => hr) (bankBytes_place _ _ _ _)

theorem length_bytesOf (y : Lanes) (hy : y.length = 32) : (bytesOf y).length = 128 := by
  rw [bytesOf, length_flatMap_toLE, hy]

/-! ## AMOS -/

theorem amos_outcomes (h : s.At d t) (hlt : t.lt = s.cur.lt) (ao : Aop) (hb : Claims.bankLegal t (t.sval b) (aopSize ao) k) :
    let r := bankBytes t k (t.sval b) (aopSize ao)
    Racing (.amos g c x b ao) s d t c [r] [r] ∧
      (s.sound [r] = false → Claims.Quiet s d t [r] → Owed (.amos g c x b ao) s d t t 10 (.sq none) (· = t.sval b)) := by
  obtain ⟨hsound, hflawed⟩ := execAmos_legal (c := c) (x := x) h hb
  refine ⟨fun hr => ?_, fun hs hquiet => ?_⟩
  · cases hs : s.sound [bankBytes t k (t.sval b) (aopSize ao)] with
    | true =>
      obtain ⟨val, fl, w, hq⟩ := hsound hs
      have hput := (Staged.refl h).put (u := t.deliver d.dtick 10 toSq val [] fl) rfl
      exact ⟨_, hq, (hput.storeLocal _ _ _).access_caught h hlt rfl hr,
        keepsOutside_storeLocal s t.cluster _ _ (length_toLE _ w)⟩
    | false =>
      have howed := ((Staged.refl h).countFlaws [bankBytes t k (t.sval b) (aopSize ao)]).lateFault (u := t) rfl (code := cIntegrity)
        rfl 10 toSq (t.sval b)
      exact ⟨_, hflawed hs, howed.access_caught h hlt rfl hr, keepsOutside_of_mem rfl _⟩
  · exact load_owed h rfl rfl (hflawed hs) hquiet (by simp) (bankBytes_place _ _ _ _)

/-! ## Tagged loads and stores -/

theorem taggedBytes_place (t : Tile) (k : Nat) (a : W64) (n : Nat) :
    ∀ r ∈ [bankBytes t k a n, bankTag t.cluster k], region 3 ≤ r.1 := by
  simpa [bankBytes] using ⟨region_le_locBank t.cluster k _, region_le_bankTag t.cluster k⟩

theorem ldsD_outcomes (h : s.At d t) (hlt : t.lt = s.cur.lt) (hb : Based t b k) {m : Nat}
    (hf : elemForm (s.tagOf t.cluster k) false false = some (m, n))
    (hc : (lsAddr t b n o).toNat / 2 ^ 19 = (t.sval b).toNat / 2 ^ 19) (ha : (lsAddr t b n o).toNat % n = 0) :
    let r := bankBytes t k (lsAddr t b n o) n
    Racing (.ldsD g c b o) s d t c [r, bankTag t.cluster k] [] ∧
      (s.sound [r] = false → Claims.Quiet s d t [r, bankTag t.cluster k] → Owed (.ldsD g c b o) s d t t 7 .ls (· = lsAddr t b n o)) := by
  obtain ⟨y, fl, hl⟩ := execLdsD_legal (c := c) h hb hf hc ha
  refine ⟨load_racing h hlt rfl hl, fun hs hquiet => ?_⟩
  rw [deliverSound_flawed hs] at hl
  exact load_owed h rfl rfl hl hquiet (fun r hr => hr) (taggedBytes_place _ _ _ _)

/-- The flags of a store that traps none enter FLAGS, and nothing else changes. -/
theorem enterStoreFlags_quiet {lt : Nat} {f : Flg} (ht : d.tile? lt = some t) (hz : t.trapen &&& f = 0) :
    (d.enterStoreFlags lt f).tile? lt = some { t with flags := t.flags ||| f } ∧ (d.enterStoreFlags lt f).causes = d.causes ∧
      (d.enterStoreFlags lt f).fatal = d.fatal := by
  have he : d.enterStoreFlags lt f = d.updTile lt (fun t => { t with flags := t.flags ||| f, laneflg := t.laneflg }) := by
    simp only [Domain.enterStoreFlags, ht, hz, if_true]
  rw [he, tile?_updTile, if_pos rfl, ht]
  exact ⟨rfl, rfl, rfl⟩

theorem enterStoreFlags_seq (d : Domain) (lt : Nat) (f : Flg) : (d.enterStoreFlags lt f).seq = d.seq := by
  unfold Domain.enterStoreFlags
  split
  · rfl
  · dsimp only
    split
    · rfl
    · exact (sameOrder_raise _ _ _).seq

/-- The place once the flags of a store have entered. -/
theorem at_enterStoreFlags {s' : State} {d' : Domain} {t' : Tile} {f : Flg} (hat : s'.At d' t') (hseq : s'.cur.dom = d.seq)
    (hlt : t.lt = s'.cur.lt) (hz : t'.trapen &&& f = 0) :
    (s'.updDom d.seq (fun x => x.enterStoreFlags t.lt f)).At (d'.enterStoreFlags t.lt f) { t' with flags := t'.flags ||| f } := by
  rw [← hseq, hlt]
  exact at_updDom hat (fun x => enterStoreFlags_seq x _ f) (enterStoreFlags_quiet hat.2 hz).1

/-- A caught word stays so when its flags enter. -/
theorem CaughtAt.enterStoreFlags {s' : State} {d' : Domain} {t' : Tile} {e : BitVec 9} {f : Flg} (h : CaughtAt d t d' t' e)
    (hat : s'.At d' t') (hseq : s'.cur.dom = d.seq) (hlt : t.lt = s'.cur.lt) (hz : e &&& f = 0) :
    Claims.Caught (s'.updDom d.seq (fun x => x.enterStoreFlags t.lt f)) d t := by
  obtain ⟨hfatal, ⟨more, hcauses⟩, htrap, hflights⟩ := h
  rw [← htrap] at hz
  obtain ⟨-, hc, hf⟩ := enterStoreFlags_quiet (show d'.tile? t.lt = some t' from hlt ▸ hat.2) hz
  exact ⟨_, _, more, at_enterStoreFlags hat hseq hlt hz, hf.trans hfatal, hc.trans hcauses, hflights⟩

theorem stsE_racing (h : s.At d t) (hlt : t.lt = s.cur.lt) {q : Instr} {cl l n : Nat} {bs : List Byte} {f : Flg} (hn : bs.length = n)
    (hz : t.trapen &&& f = 0) (hq : exec q s = .next (((s.storeLocal cl l bs).access d t c spK rd [(l, n)]).updDom d.seq
      (fun x => x.enterStoreFlags t.lt f))) : Racing q s d t c rd [(l, n)] := by
  intro hr
  obtain ⟨d', t', hcaught, hat⟩ := ((Staged.refl h).storeLocal cl l bs).access_caughtAt h hlt rfl hr
  exact ⟨_, hq, hcaught.enterStoreFlags hat (Staged.refl h).seq hlt hz, keepsOutside_storeLocal s cl l n hn⟩

theorem stsE_refused (h : s.At d t) (hlt : t.lt = s.cur.lt) {ms : List (Nat × Nat)} {f : Flg} (hz : t.trapen &&& f = 0)
    (hq : exec q s = .next ((((s.countFlaws ms).raise 3 6 0 a).access d t c spK rd wr).updDom d.seq
      (fun x => x.enterStoreFlags t.lt f))) (hquiet : Claims.Quiet s d t rs) (hrs : ∀ r ∈ rd ++ wr, r ∈ rs)
    (hb : ∀ r ∈ rs, region 3 ≤ r.1) : Refused q s d t { t with flags := t.flags ||| f } [] (· = a) := by
  obtain ⟨d', t', hat, htile, hcauses, haddr⟩ := ((Staged.refl h).countFlaws ms).raise_access (c := c) (code := 6) rfl hlt rfl rfl a
    hquiet hrs hb
  have htrap := congrArg Tile.trapen htile
  have hz' : t'.trapen &&& f = 0 := (congrArg (· &&& f) htrap).trans hz
  obtain ⟨-, hc, -⟩ := enterStoreFlags_quiet (show d'.tile? t.lt = some t' from hlt ▸ hat.2) hz'
  exact ⟨_, hq, keepsOutside_of_mem rfl _, _, _, at_enterStoreFlags hat (Staged.refl h).seq hlt hz',
    congrArg (fun y : Tile => { y with flags := y.flags ||| f }) htile, hc.trans hcauses, haddr⟩

/-- The flags of an element are those of its format's conversion. -/
theorem encodeElem_flags {p : Nat × Nat} (hp : p ∈ Claims.forms) (y : W32) : (encodeElem p.1 y).2 = (Claims.toElement p.1 y).2 := by
  fin_cases hp <;> rfl

theorem stsE_outcomes (h : s.At d t) (hlt : t.lt = s.cur.lt) (hb : Based t b k) {p : Nat × Nat} (hp : p ∈ Claims.forms)
    (hG : Claims.Tagged (s.tagOf t.cluster k) p.1) (hv : (t.vval v).length = 32) (hn : n = 32 * p.2)
    (hc : (lsAddr t b n o).toNat / 2 ^ 19 = (t.sval b).toNat / 2 ^ 19) (ha : (lsAddr t b n o).toNat % n = 0) :
    let r := bankBytes t k (lsAddr t b n o) n
    let raised := orFlags ((t.vval v).map (fun y => (Claims.toElement p.1 y).2))
    (s.mergeSound r = true → t.trapen &&& raised = 0 → Racing (.stsE g c v b o) s d t c [bankTag t.cluster k] [r]) ∧
      (s.mergeSound r = false → t.trapen &&& raised = 0 → Claims.Quiet s d t [r, bankTag t.cluster k] →
        Refused (.stsE g c v b o) s d t { t with flags := t.flags ||| raised } [] (· = lsAddr t b n o)) := by
  have hflags : (encoded (s.tagOf t.cluster k).fmt.toNat (t.vval v)).map (fun e => e.2) =
      (t.vval v).map (fun y => (Claims.toElement p.1 y).2) := by
    rw [hG.1, encoded, List.map_map]
    exact List.map_congr_left (fun y _ => encodeElem_flags hp y)
  have hl := execStsE_legal (c := c) (v := v) h hb (hn ▸ elemForm_tagged hp hG true false) hc ha
  rw [hflags] at hl
  refine ⟨fun hm hz => ?_, fun hm hz hquiet => ?_⟩
  · rw [storeSound_sound hm] at hl
    refine stsE_racing h hlt ?_ hz hl
    rw [length_flatMap_toLE, encoded, List.length_map, hv]
    omega
  · rw [storeSound_flawed hm] at hl
    exact stsE_refused h hlt hz hl hquiet (by simp) (taggedBytes_place _ _ _ _)

end Sys2Proof.Access
end

section
/-!
The races and flaws of gathers and scatters (13 R332, R333; 18 R433, R434), and with them those of every bank access.
-/

namespace Sys2Proof.Access

open Sys2Proof Sys2Proof.Machine Sys2Proof.Laws

variable {s s₁ : State} {d d₁ : Domain} {t t₁ u : Tile} {g c i : BitVec 4} {v : VSpec} {x b : SSpec} {o : BitVec 5} {k n : Nat} {a : W64}
  {q : Instr} {lat : Nat} {dest : Dest} {rd wr rs : List (Nat × Nat)}

/-! ## The lanes of a gather or scatter -/

/-- The offset in its window of the element that a lane names. -/
def laneOffset (t : Tile) (b : SSpec) (n : Nat) (w : W32) : Nat := ((t.sval b).toNat % 2 ^ 19 + n * w.toNat) % 2 ^ 19

/-- Its bytes, and those of several lanes. -/
def laneBytes (t : Tile) (b : SSpec) (k n : Nat) (w : W32) : Nat × Nat := (locBank t.cluster k (laneOffset t b n w), n)
def lanesBytes (t : Tile) (b : SSpec) (k n : Nat) (y : Lanes) : List (Nat × Nat) := y.map (laneBytes t b k n)

theorem gatherOffsets_eq (t : Tile) (b : SSpec) (n : Nat) (y : Lanes) :
    gatherOffsets ((t.sval b).toNat % 2 ^ 19) n y = y.map (laneOffset t b n) := rfl

theorem lanesBytes_eq (t : Tile) (b : SSpec) (k n : Nat) (y : Lanes) :
    (y.map (laneOffset t b n)).map (fun a => (locBank t.cluster k a, n)) = lanesBytes t b k n y := List.map_map

theorem lanesBytes_place (t : Tile) (b : SSpec) (k n : Nat) (y : Lanes) : ∀ r ∈ lanesBytes t b k n y, region 3 ≤ r.1 := by
  intro r hr
  obtain ⟨w, -, rfl⟩ := List.mem_map.1 hr
  exact region_le_locBank _ _ _

/-- The tile with the conflicts of its lanes counted. -/
def counted (t : Tile) (b : SSpec) (n : Nat) (y : Lanes) : Tile := t.countConflicts (y.map (laneOffset t b n))

/-- An address is that of the first lane of a list whose bytes fail a check. -/
def FirstLane (ok : Nat × Nat → Bool) (t : Tile) (b : SSpec) (k n : Nat) (y : Lanes) (a : W64) : Prop :=
  ∃ pre w post, y = pre ++ w :: post ∧ (∀ z ∈ lanesBytes t b k n pre, ok z = true) ∧ ok (laneBytes t b k n w) = false ∧
    a = inWindow (t.sval b) (laneOffset t b n w)

/-- Where some lane fails, the first offset found failing is that of the first such lane. -/
theorem firstLane_of_find {ok : Nat × Nat → Bool} (y : Lanes) (h : ∃ r ∈ lanesBytes t b k n y, ok r = false) :
    ∃ ofs, (y.map (laneOffset t b n)).find? (fun a => !ok (locBank t.cluster k a, n)) = some ofs ∧
      FirstLane ok t b k n y (inWindow (t.sval b) ofs) := by
  have hfind : (y.map (laneOffset t b n)).find? (fun a => !ok (locBank t.cluster k a, n)) =
      (y.find? (fun w => !ok (laneBytes t b k n w))).map (laneOffset t b n) := List.find?_map
  cases hw : y.find? (fun w => !ok (laneBytes t b k n w)) with
  | none =>
    obtain ⟨r, hr, hbad⟩ := h
    obtain ⟨w, hmem, rfl⟩ := List.mem_map.1 hr
    exact absurd (by rw [hbad]; rfl) (List.find?_eq_none.1 hw w hmem)
  | some w =>
    obtain ⟨hbad, pre, post, rfl, hpre⟩ := List.find?_eq_some_iff_append.1 hw
    refine ⟨laneOffset t b n w, by rw [hfind, hw]; rfl, pre, w, post, rfl, fun r hr => ?_, by simpa using hbad, rfl⟩
    obtain ⟨z, hz, rfl⟩ := List.mem_map.1 hr
    simpa using hpre z hz

/-- Ranges pass their check one by one. -/
theorem sound_iff (s : State) (rs : List (Nat × Nat)) : s.sound rs = true ↔ ∀ r ∈ rs, s.sound [r] = true := by
  simp only [State.sound, State.flawsIn, List.isEmpty_iff, List.filter_eq_nil_iff, List.any_cons, List.any_nil, Bool.or_false,
    List.any_eq_true, not_exists, not_and]
  exact ⟨fun h r hr f hf => h f hf r hr, fun h f hf r hr => h r hr f hf⟩

/-! ## Gathers -/

theorem execLdsG_legal (h : s.At d t) (hb : Based t b k) {m : Nat} (hf : elemForm (s.tagOf t.cluster k) false true = some (n, m))
    (ha : (t.sval b).toNat % 2 ^ 19 % n = 0) : ∃ y, execLdsG c v b s = .next ((s.deliverSound d (counted t b n (t.vval v)) 7 .ls 0 y 0
      (lanesBytes t b k n (t.vval v)) (inWindow (t.sval b) ((((t.vval v).map (laneOffset t b n)).find?
        (fun a => !s.sound [(locBank t.cluster k a, n)])).getD ((t.sval b).toNat % 2 ^ 19)))).access d t c spK
      (bankTag t.cluster k :: lanesBytes t b k n (t.vval v)) []) := by
  rw [execLdsG, onDom_at h]
  simp only [gatherAt_based hb, hf, ha, bne_self_eq_false, Bool.false_eq_true, if_false, gatherOffsets_eq, lanesBytes_eq]
  exact ⟨_, rfl⟩

theorem ldsG_outcomes (h : s.At d t) (hlt : t.lt = s.cur.lt) (hb : Based t b k) {p : Nat × Nat} (hp : p ∈ (0, 4) :: Claims.forms)
    (hG : Claims.Tagged (s.tagOf t.cluster k) p.1) (ha : (t.sval b).toNat % p.2 = 0) :
    let rs := lanesBytes t b k p.2 (t.vval v)
    Racing (.ldsG g c v b) s d t c (bankTag t.cluster k :: rs) [] ∧
      (s.sound rs = false → Claims.Quiet s d t (bankTag t.cluster k :: rs) → Owed (.ldsG g c v b) s d t (counted t b p.2 (t.vval v)) 7 .ls
        (FirstLane (fun r => s.sound [r]) t b k p.2 (t.vval v))) := by
  obtain ⟨m, hm⟩ := elemForm_gather hp hG
  obtain ⟨y, hl⟩ := execLdsG_legal (c := c) (v := v) h hb hm (by rwa [mod_window _ (gather_unit hp)])
  refine ⟨load_racing (u := counted t b p.2 (t.vval v)) h hlt rfl hl, fun hs hquiet => ?_⟩
  rw [deliverSound_flawed hs] at hl
  refine load_owed (u := counted t b p.2 (t.vval v)) h rfl ?_ hl hquiet (fun r hr => by simpa using hr) ?_
  · have hsome : ∃ r ∈ lanesBytes t b k p.2 (t.vval v), s.sound [r] = false := by
      by_contra hno
      push Not at hno
      exact absurd ((sound_iff s _).2 (fun r hr => by simpa using hno r hr)) (by rw [hs]; decide)
    obtain ⟨ofs, hfind, hfirst⟩ := firstLane_of_find (ok := fun r => s.sound [r]) _ hsome
    rw [hfind]
    exact hfirst
  · intro r hr
    rcases List.mem_cons.1 hr with rfl | hr
    · exact region_le_bankTag _ _
    · exact lanesBytes_place _ _ _ _ _ r hr

/-! ## Scatters -/

/-- The state once the sound lanes of a scatter are written, in ascending order. -/
def scattered (s : State) (t : Tile) (b : SSpec) (k : Nat) (idx y : Lanes) : State :=
  (((idx.map (laneOffset t b 4)).zip y).filter (fun p => s.mergeSound (locBank t.cluster k p.1, 4))).foldl
    (fun s p => s.storeLocal t.cluster (locBank t.cluster k p.1) (toLE 4 p.2.toNat)) (s.put (counted t b 4 idx))

/-- The offsets of a scatter that would merge with a granule failing its check. -/
def spoiled (s : State) (t : Tile) (b : SSpec) (k : Nat) (idx : Lanes) : List Nat :=
  (idx.map (laneOffset t b 4)).filter (fun a => !s.mergeSound (locBank t.cluster k a, 4))

theorem execStsS_sound (h : s.At d t) (hb : Based t b k) (ha : (t.sval b).toNat % 2 ^ 19 % 4 = 0) (hs : spoiled s t b k (t.vreg i) = []) :
    execStsS c v b i s = .next ((scattered s t b k (t.vreg i) (t.vval v)).access d t c spK [] (lanesBytes t b k 4 (t.vreg i))) := by
  unfold spoiled at hs
  rw [execStsS, onDom_at h]
  simp only [gatherAt_based hb, ha, bne_self_eq_false, Bool.false_eq_true, if_false, gatherOffsets_eq, hs, lanesBytes_eq]
  rfl

theorem execStsS_flawed (h : s.At d t) (hb : Based t b k) (ha : (t.sval b).toNat % 2 ^ 19 % 4 = 0) {y : Nat} {l : List Nat}
    (hs : spoiled s t b k (t.vreg i) = y :: l) : ∃ ms, execStsS c v b i s =
      .next ((((scattered s t b k (t.vreg i) (t.vval v)).countFlaws ms).raise 3 6 0 (inWindow (t.sval b) y)).access d t c spK []
        (lanesBytes t b k 4 (t.vreg i))) := by
  unfold spoiled at hs
  rw [execStsS, onDom_at h]
  simp only [gatherAt_based hb, ha, bne_self_eq_false, Bool.false_eq_true, if_false, gatherOffsets_eq, hs, lanesBytes_eq]
  exact ⟨_, rfl⟩

theorem Staged.storeAll (h : Staged s d s₁ d₁ t₁) {α : Type} (cl : Nat) (f : α → Nat) (w : α → List Byte) (l : List α) :
    Staged s d (l.foldl (fun s p => s.storeLocal cl (f p) (w p)) s₁) d₁ t₁ := by
  induction l generalizing s₁ with
  | nil => exact h
  | cons p l ih => exact ih (h.storeLocal cl (f p) (w p))

theorem keepsOutside_storeAll {α : Type} (cl n : Nat) (f : α → Nat) (w : α → List Byte) (hw : ∀ p, (w p).length = n) (l : List α) :
    ∀ s : State, (∀ p ∈ l, (f p, n) ∈ wr) → KeepsOutside s (l.foldl (fun s p => s.storeLocal cl (f p) (w p)) s) wr := by
  induction l with
  | nil => exact fun s _ a _ => rfl
  | cons p l ih =>
    intro s hl a ha
    have hp : ∀ r ∈ [(f p, n)], a < r.1 ∨ r.1 + r.2 ≤ a := fun r hr => ha r (List.mem_singleton.1 hr ▸ hl p List.mem_cons_self)
    exact (ih _ (fun r hr => hl r (List.mem_cons_of_mem p hr)) a ha).trans (keepsOutside_storeLocal s cl (f p) n (hw p) a hp)

/-- The state of a scatter is staged, its conflicts counted, and differs in the bytes of its sound lanes alone. -/
theorem scattered_staged (h : s.At d t) (k : Nat) (idx y : Lanes) :
    Staged s d (scattered s t b k idx y) (d.updTile s.cur.lt (fun _ => counted t b 4 idx)) (counted t b 4 idx) ∧
      KeepsOutside s (scattered s t b k idx y) ((lanesBytes t b k 4 idx).filter (fun r => s.mergeSound r)) := by
  have hlanes : ∀ p ∈ ((idx.map (laneOffset t b 4)).zip y).filter (fun p => s.mergeSound (locBank t.cluster k p.1, 4)),
      (locBank t.cluster k p.1, 4) ∈ (lanesBytes t b k 4 idx).filter (fun r => s.mergeSound r) := by
    intro p hp
    obtain ⟨hp, hm⟩ := List.mem_filter.1 hp
    rw [← lanesBytes_eq]
    exact List.mem_filter.2 ⟨List.mem_map_of_mem (List.of_mem_zip hp).1, hm⟩
  have hput := (Staged.refl h).put (u := counted t b 4 idx) rfl
  unfold scattered
  exact ⟨hput.storeAll t.cluster (fun p : Nat × W32 => locBank t.cluster k p.1) (fun p => toLE 4 p.2.toNat) _,
    keepsOutside_storeAll t.cluster 4 (fun p : Nat × W32 => locBank t.cluster k p.1) (fun p => toLE 4 p.2.toNat)
      (fun p => length_toLE 4 _) _ (s.put (counted t b 4 idx)) hlanes⟩

theorem stsS_racing (h : s.At d t) (hlt : t.lt = s.cur.lt) (hb : Based t b k) (ha : (t.sval b).toNat % 4 = 0)
    (hs : ∀ r ∈ lanesBytes t b k 4 (t.vreg i), s.mergeSound r = true) :
    Racing (.stsS g c v b i) s d t c [] (lanesBytes t b k 4 (t.vreg i)) := by
  intro hr
  have hnone : spoiled s t b k (t.vreg i) = [] := by
    refine List.filter_eq_nil_iff.2 (fun y hy => ?_)
    obtain ⟨w, hw, rfl⟩ := List.mem_map.1 hy
    simpa [laneBytes] using hs _ (List.mem_map_of_mem hw)
  obtain ⟨hstaged, hkeeps⟩ := scattered_staged (b := b) h k (t.vreg i) (t.vval v)
  exact ⟨_, execStsS_sound h hb (by rwa [mod_window _ (by decide)]) hnone, hstaged.access_caught h hlt rfl hr,
    fun y hy => hkeeps y (fun r hr => hy r (List.mem_of_mem_filter hr))⟩

/-- An address is that of the first lane of a scatter that would merge with a granule failing its check. -/
def FirstSpoiled (s : State) (t : Tile) (b : SSpec) (k : Nat) (idx : Lanes) (a : W64) : Prop :=
  ∃ pre w post, idx = pre ++ w :: post ∧ (∀ z ∈ lanesBytes t b k 4 pre, s.mergeSound z = true) ∧
    (∀ z ∈ lanesBytes t b k 4 [w], s.mergeSound z = false) ∧ a = inWindow (t.sval b) (laneOffset t b 4 w)

theorem FirstLane.spoiled {idx : Lanes} (h : FirstLane s.mergeSound t b k 4 idx a) : FirstSpoiled s t b k idx a := by
  obtain ⟨pre, w, post, hidx, hpre, hw, ha⟩ := h
  exact ⟨pre, w, post, hidx, hpre, fun z hz => List.mem_singleton.1 hz ▸ hw, ha⟩

theorem stsS_refused (h : s.At d t) (hlt : t.lt = s.cur.lt) (hb : Based t b k) (ha : (t.sval b).toNat % 4 = 0)
    (hs : ∃ r ∈ lanesBytes t b k 4 (t.vreg i), s.mergeSound r = false) (hquiet : Claims.Quiet s d t (lanesBytes t b k 4 (t.vreg i))) :
    Refused (.stsS g c v b i) s d t (counted t b 4 (t.vreg i)) ((lanesBytes t b k 4 (t.vreg i)).filter (fun r => s.mergeSound r))
      (FirstSpoiled s t b k (t.vreg i)) := by
  obtain ⟨ofs, hfind, hfirst⟩ := firstLane_of_find _ hs
  have hspoiled : ∃ l, spoiled s t b k (t.vreg i) = ofs :: l := by
    rw [← List.head?_filter] at hfind
    exact List.head?_eq_some_iff.1 hfind
  obtain ⟨l, hspoiled⟩ := hspoiled
  obtain ⟨ms, hq⟩ := execStsS_flawed (c := c) (v := v) h hb (by rwa [mod_window _ (by decide)]) hspoiled
  obtain ⟨hstaged, hkeeps⟩ := scattered_staged (b := b) h k (t.vreg i) (t.vval v)
  obtain ⟨d', t', hat, htile, hcauses, haddr⟩ := (hstaged.countFlaws ms).raise_access (c := c) (code := 6) (t := t) rfl hlt rfl rfl
    (inWindow (t.sval b) ofs) hquiet (rd := []) (wr := lanesBytes t b k 4 (t.vreg i)) (fun r hr => hr) (lanesBytes_place _ _ _ _ _)
  exact ⟨_, hq, hkeeps, d', t', hat, htile, hcauses, fun hd => (haddr hd).symm ▸ hfirst.spoiled⟩

/-! ## The statement's clauses -/

theorem plainLoads_outcomes (h : s.At d t) (hlt : t.lt = s.cur.lt) : ∀ q ∈ ([(.ldsV g c b o, 128, .ls), (.ldsW32 g c b o, 4, .sq none),
      (.ldsW64 g c b o, 8, .sq none)] : List (Instr × Nat × Dest)), Claims.bankLegal t (lsAddr t b q.2.1 o) q.2.1 k →
    let r := bankBytes t k (lsAddr t b q.2.1 o) q.2.1
    Racing q.1 s d t c [r] [] ∧ (s.sound [r] = false → Claims.Quiet s d t [r] → Owed q.1 s d t t 6 q.2.2 (· = lsAddr t b q.2.1 o)) := by
  simp only [List.forall_mem_cons, List.not_mem_nil, false_imp_iff, implies_true, and_true]
  exact ⟨plainLoad_outcomes h hlt rfl, plainLoad_outcomes h hlt rfl, plainLoad_outcomes h hlt rfl⟩

theorem plainStores_outcomes (h : s.At d t) (hlt : t.lt = s.cur.lt) (hv : (t.vval v).length = 32) :
    ∀ q ∈ ([(.stsV g c v b o, 128), (.stsW32 g c x b o, 4), (.stsW64 g c x b o, 8)] : List (Instr × Nat)),
    Claims.bankLegal t (lsAddr t b q.2 o) q.2 k → let r := bankBytes t k (lsAddr t b q.2 o) q.2
    (s.mergeSound r = true → Racing q.1 s d t c [] [r]) ∧
      (s.mergeSound r = false → Claims.Quiet s d t [r] → Refused q.1 s d t t [] (· = lsAddr t b q.2 o)) := by
  simp only [List.forall_mem_cons, List.not_mem_nil, false_imp_iff, implies_true, and_true]
  exact ⟨plainStore_outcomes h hlt (length_bytesOf _ hv) rfl, plainStore_outcomes h hlt (length_toLE _ _) rfl,
    plainStore_outcomes h hlt (length_toLE _ _) rfl⟩

/-- The races and flaws of bank accesses, by their words: plain, atomic, tagged, gathering and scattering. -/
theorem bankAccessRacesAndFlaws : Claims.BankAccessRacesAndFlaws := by
  intro s d t h _ hlt g c i v x b o ao k hv hi
  refine ⟨plainLoads_outcomes h hlt, plainStores_outcomes h hlt hv, ?_, fun p hp hG hb hc ha => ?_, fun p hp hG hb ha => ?_,
    fun hb ha => ?_⟩
  · rw [← aopSize_eq]
    exact amos_outcomes h hlt ao
  · have hbased : Based t b k := ⟨Nat.not_le.2 hb.1, hb.2⟩
    obtain ⟨hload, howed⟩ := ldsD_outcomes (g := g) (c := c) h hlt hbased (elemForm_tagged hp hG false false) hc ha
    obtain ⟨hstore, hrefused⟩ := stsE_outcomes (g := g) (c := c) (v := v) h hlt hbased hp hG hv rfl hc ha
    exact ⟨hload, howed, hstore, hrefused⟩
  · exact ldsG_outcomes h hlt ⟨Nat.not_le.2 hb.1, hb.2⟩ hp hG ha
  · have hbased : Based t b k := ⟨Nat.not_le.2 hb.1, hb.2⟩
    exact ⟨stsS_racing h hlt hbased ha, fun hs hquiet => stsS_refused h hlt hbased ha hs hquiet⟩

end Sys2Proof.Access
end

section
/-!
The races of global accesses (06 R157, 09 R216), and with them every fault of an access.
-/

namespace Sys2Proof.Access

open Sys2Proof Sys2Proof.Machine Sys2Proof.Laws

variable {s s₁ : State} {d d₁ : Domain} {t t₁ u : Tile} {g c : BitVec 4} {v : VSpec} {x b : SSpec} {o : BitVec 5} {n : Nat} {a : W64}
  {q : Instr} {lat : Nat} {dest : Dest} {rd wr noHost : Bool}

/-! ## Words whose checks pass, at a place that stands -/

theorem globCheck_good (h : Claims.globalGood s d a n wr) (hh : noHost = true → a.toNat / 2 ^ 61 ≠ 4) :
    globCheck s d a n wr noHost = none :=
  globCheck_none ⟨h.1, hh⟩ h.2.1 h.2.2

theorem loadGlobal_good (h : s.At d t) (hg : Claims.globalGood s d (lsAddr t b n o) n false) : ∃ f,
    loadGlobal s c b o n dest = .next (s.request d t c (newGop d t .load (lsAddr t b n o) n) (some f) true false) := by
  rw [loadGlobal, onDom_at h]
  simp only [globCheck_good (noHost := false) hg nofun]
  exact ⟨_, rfl⟩

theorem storeGlobal_good (h : s.At d t) (hsup : d.sup = false) (hg : Claims.globalGood s d (lsAddr t b n o) n true)
    (f : Tile → List Byte) : storeGlobal s c b o n f =
      .next (s.request d t c { newGop d t .store (lsAddr t b n o) n with data := f t } none false true) := by
  have hpost : postsPacket d (lsAddr t b n o) = false := by rw [postsPacket, hsup]; rfl
  rw [storeGlobal, onDom_at h]
  simp only [hpost, Bool.false_and, Bool.false_eq_true, if_false, globCheck_good (noHost := false) hg nofun]

theorem execAmog_good (h : s.At d t) {ao : Aop} (ho : (t.sval b).toNat / 2 ^ 61 ≠ 4)
    (hg : Claims.globalGood s d (t.sval b) (aopSize ao) true) : ∃ G f, execAmog c x b ao s = .next (s.request d t c G (some f) true true) ∧
      G.va = t.sval b ∧ G.size = aopSize ao := by
  rw [execAmog, onDom_at h]
  simp only [globCheck_good (noHost := true) hg (fun _ => ho)]
  exact ⟨_, _, rfl, rfl, rfl⟩

/-! ## The check of a request -/

/-- The event of a global access, whose request has taken an identifier. -/
def requestEvent (s : State) (d : Domain) (t : Tile) (c : BitVec 4) (a : W64) (n : Nat) (rd wr : Bool) : Ev :=
  Claims.accessEvent { d with nextId := d.nextId + 1 } t c (if a.toNat / 2 ^ 61 = 4 then spH else spG)
    (if rd then globalRanges s d t wr a n else []) (if wr then globalRanges s d t wr a n else [])

/-- The tile with the flight that waits for the request, if one does. -/
def waiting (d : Domain) (t : Tile) : Option Flight → Tile
  | some f => t.send { f with gop := some d.nextId }
  | none => t

theorem ordView_waiting (d : Domain) (t : Tile) (f : Option Flight) : ordView (waiting d t f) = ordView t := by
  cases f <;> rfl

/-- A domain with the request recorded, and its event. -/
def requested (d : Domain) (G : GOp) (e : Ev) (x : Domain) : Domain :=
  ({ x with gops := x.gops ++ [G], nextId := d.nextId + 1 } : Domain).addEv e

theorem request_eq (s : State) (d : Domain) (t : Tile) (c : BitVec 4) (G : GOp) (f : Option Flight) (rd wr : Bool) :
    ∃ G', s.request d t c G f rd wr = (s.put (waiting d t f)).updDom d.seq (fun x =>
      (requested d G' (requestEvent s d t c G.va G.size rd wr) x).columnRaces (requestEvent s d t c G.va G.size rd wr)
        (shareRanges s d)) := by
  have hspace : globSpace G.va = if G.va.toNat / 2 ^ 61 = 4 then spH else spG := by rw [globSpace, ownerOf_eq]
  unfold State.request requestEvent
  rw [hspace]
  cases f <;> exact ⟨_, rfl⟩

theorem requested_order (h : SameOrder d d₁) (G : GOp) (e : Ev) :
    SameOrder (({ d with nextId := d.nextId + 1 } : Domain).addEv e) (requested d G e d₁) :=
  SameOrder.addEv (d := { d with nextId := d.nextId + 1 }) (x := { d₁ with gops := d₁.gops ++ [G], nextId := d.nextId + 1 })
    ⟨h.seq, h.evs, rfl, h.dtick, h.pkt, h.tiles⟩ e

/-- The bytes of a request meet the spill share of a tile. -/
def MeetsShare (s : State) (d : Domain) (t : Tile) (wr : Bool) (a : W64) (n lt : Nat) : Prop :=
  ∃ y ∈ shareRanges s d, y.1 = lt ∧ rangesMeet (globalRanges s d t wr a n) [y.2] = true

theorem requestEvent_meets (hrw : rd = true ∨ wr = true) (c : BitVec 4) {r : Nat × Nat}
    (h : rangesMeet (globalRanges s d t wr a n) [r] = true) :
    rangesMeet ((requestEvent s d t c a n rd wr).reads ++ (requestEvent s d t c a n rd wr).writes) [r] = true := by
  have hsub : ∀ y ∈ globalRanges s d t wr a n, y ∈ (requestEvent s d t c a n rd wr).reads ++ (requestEvent s d t c a n rd wr).writes := by
    intro y hy
    rcases hrw with rfl | rfl
    · exact List.mem_append_left _ hy
    · exact List.mem_append_right _ hy
  by_contra hno
  rw [rangesMeet_mono hsub (fun _ hy => hy) (Bool.eq_false_iff.2 hno)] at h
  cases h

theorem requestEvent_global (s : State) (d : Domain) (t : Tile) (c : BitVec 4) (a : W64) (n : Nat) (rd wr : Bool) :
    ((requestEvent s d t c a n rd wr).spaces &&& (spG ||| spH) != 0) = true := by
  show ((if a.toNat / 2 ^ 61 = 4 then spH else spG) &&& (spG ||| spH) != 0) = true
  split <;> rfl

/-- A global access of the last Vg ticks, of the same tile, conflicts with the request's and is not ordered with it. -/
def RacesNear (d : Domain) (t : Tile) (e : Ev) : Prop :=
  ∃ p ∈ d.evs, p.isAccess = true ∧ p.lt = t.lt ∧ p.id ≠ d.nextId + 1 ∧ p.spaces &&& (spG ||| spH) ≠ 0 ∧ d.dtick < p.tick + d.vg ∧
    conflicts p e = true ∧ ∀ ids, (({ d with nextId := d.nextId + 1 } : Domain).addEv { e with after := ids }).ordered p e = false

theorem nearRace_of_racesNear (h : SameOrder d d₁) (G : GOp)
    (hr : RacesNear d t (requestEvent s d t c a n rd wr)) :
    nearRace (requested d G (requestEvent s d t c a n rd wr) d₁) (requestEvent s d t c a n rd wr) = true := by
  obtain ⟨p, hp, hacc, hlt, hid, hsp, htick, hconf, hord⟩ := hr
  unfold nearRace
  rw [if_pos (requestEvent_global s d t c a n rd wr)]
  have hvg : (requested d G (requestEvent s d t c a n rd wr) d₁).vg = d.vg := h.vg
  refine List.any_eq_true.2 ⟨p, List.mem_filter.2 ⟨List.mem_append_left _ (h.evs ▸ hp), ?_⟩, ?_⟩
  · simp only [hacc, hvg, hconf, Bool.true_and, Bool.and_true, Bool.and_eq_true, bne_iff_ne, ne_eq, decide_eq_true_eq]
    exact ⟨⟨hid, hsp⟩, htick⟩
  · rw [(requested_order h G _).ordered, show (requestEvent s d t c a n rd wr).lt = t.lt from rfl, hlt, beq_self_eq_true]
    exact (congrArg (fun z => true && !z) (hord []))

/-- What a global access comes to: caught at its own tile's records and share; the fault 4 of an unordered one near it; the
later fault 3 of another tile's share. -/
def GlobalOutcome (q : Instr) (s : State) (d : Domain) (t : Tile) (c : BitVec 4) (a : W64) (n : Nat) (rd wr : Bool) : Prop :=
  Completes (exec q s) (fun s' => s'.mem = s.mem ∧
    (Claims.Races { d with nextId := d.nextId + 1 } t (requestEvent s d t c a n rd wr) ∨ MeetsShare s d t wr a n t.lt → Claims.Caught s' d t) ∧
    ∃ d', s'.dom? s.cur.dom = some d' ∧ (RacesNear d t (requestEvent s d t c a n rd wr) → ⟨d.dtick, t.lt, 3, 18, 4⟩ ∈ d'.causes) ∧
      ((∃ lt, lt ≠ t.lt ∧ MeetsShare s d t wr a n lt) → ⟨d.dtick + d.vg, t.lt, 3, 18, 3, 0, none⟩ ∈ d'.deferred))

theorem request_outcome (h : s.At d t) (hlt : t.lt = s.cur.lt) (hrw : rd = true ∨ wr = true) {G : GOp} {f : Option Flight}
    (hva : G.va = a) (hsize : G.size = n) (hq : exec q s = .next (s.request d t c G f rd wr)) :
    GlobalOutcome q s d t c a n rd wr := by
  subst hva hsize
  obtain ⟨G', hreq⟩ := request_eq s d t c G f rd wr
  rw [hreq] at hq
  have hput := (Staged.refl h).put (ordView_waiting d t f)
  have horder := requested_order hput.order G' (requestEvent s d t c G.va G.size rd wr)
  have hdom := dom?_updDom (f := fun x => (requested d G' (requestEvent s d t c G.va G.size rd wr) x).columnRaces
    (requestEvent s d t c G.va G.size rd wr) (shareRanges s d)) hput.place.1 (fun _ => columnRaces_seq _ _ _)
  rw [hput.seq] at hdom
  obtain ⟨l, hl, hother⟩ := columnRaces_eq (requested d G' (requestEvent s d t c G.va G.size rd wr)
    (d.updTile s.cur.lt (fun _ => waiting d t f))) (requestEvent s d t c G.va G.size rd wr) (shareRanges s d)
  refine ⟨_, hq, rfl, fun hr => ?_, _, (congrArg (State.dom? _) (At.seq h).symm).trans hdom, fun hr => ?_, fun hr => ?_⟩
  · have hown : (ownRace (requested d G' (requestEvent s d t c G.va G.size rd wr) (d.updTile s.cur.lt (fun _ => waiting d t f)))
        (requestEvent s d t c G.va G.size rd wr) || ownShare (requestEvent s d t c G.va G.size rd wr) (shareRanges s d)) = true := by
      rcases hr with ⟨r, hrec, hopen, hrace⟩ | ⟨y, hy, hyl, hmeet⟩
      · rw [ownRace_of_races (e := requestEvent s d t c G.va G.size rd wr) horder (List.mem_of_getElem? h.2) rfl hrec hopen (hrace []), Bool.true_or]
      · have hshare : ownShare (requestEvent s d t c G.va G.size rd wr) (shareRanges s d) = true :=
          List.any_eq_true.2 ⟨y, hy, by rw [requestEvent_meets hrw c hmeet, hyl, Bool.and_true]; exact beq_self_eq_true t.lt⟩
        rw [hshare, Bool.or_true]
    obtain ⟨t', hcaught, hat⟩ := hput.caught (f := requested d G' (requestEvent s d t c G.va G.size rd wr)) hlt rfl
      (fun _ => rfl) rfl rfl rfl rfl rfl hown
    exact hcaught.caught hat
  · rw [hl]
    show _ ∈ (issueChecked _ _ _).causes
    rw [issueChecked, if_pos (nearRace_of_racesNear hput.order G' hr), raceFault_causes]
    exact List.mem_append_right _ List.mem_cons_self
  · rw [hl]
    obtain ⟨lt, hne, y, hy, hyl, hmeet⟩ := hr
    refine hother ?_
    rw [requestEvent_global, Bool.true_and]
    refine List.any_eq_true.2 ⟨y, hy, ?_⟩
    rw [requestEvent_meets hrw c hmeet, Bool.and_true, hyl]
    exact bne_iff_ne.2 hne

/-- The plain global accesses with where and what each accesses, and AMOG away from the host. -/
def requestWords (t : Tile) (g c : BitVec 4) (v : VSpec) (x b : SSpec) (o : BitVec 5) (ao : Aop) : List (Instr × W64 × Nat × Bool × Bool) :=
  [(.ldgV g c b o, lsAddr t b 128 o, 128, true, false), (.ldgW64 g c b o, lsAddr t b 8 o, 8, true, false),
    (.stgV g c v b o, lsAddr t b 128 o, 128, false, true), (.stgW64 g c x b o, lsAddr t b 8 o, 8, false, true)] ++
    (if (t.sval b).toNat / 2 ^ 61 = 4 then [] else
      [(.amog g c x b ao, t.sval b, if ao = .fadd32 ∨ ao = .fmax32 then 4 else 8, true, true)])

theorem requestWords_outcome (h : s.At d t) (hlt : t.lt = s.cur.lt) (hsup : d.sup = false) (ao : Aop) :
    ∀ q ∈ requestWords t g c v x b o ao, Claims.globalGood s d q.2.1 q.2.2.1 q.2.2.2.2 →
      GlobalOutcome q.1 s d t c q.2.1 q.2.2.1 q.2.2.2.1 q.2.2.2.2 := by
  simp only [requestWords, List.forall_mem_append, List.forall_mem_cons, List.not_mem_nil, false_imp_iff, implies_true, and_true,
    ← aopSize_eq]
  refine ⟨⟨fun hg => ?_, fun hg => ?_, fun hg => ?_, fun hg => ?_⟩, fun q hq => ?_⟩
  · obtain ⟨f, hexec⟩ := loadGlobal_good (c := c) (dest := .ls) h hg
    exact request_outcome h hlt (.inl rfl) rfl rfl hexec
  · obtain ⟨f, hexec⟩ := loadGlobal_good (c := c) (dest := .sq none) h hg
    exact request_outcome h hlt (.inl rfl) rfl rfl hexec
  · exact request_outcome h hlt (.inr rfl) rfl rfl (storeGlobal_good h hsup hg _)
  · exact request_outcome h hlt (.inr rfl) rfl rfl (storeGlobal_good h hsup hg _)
  · split at hq
    · cases hq
    case isFalse ho =>
      obtain rfl := List.mem_singleton.1 hq
      intro hg
      obtain ⟨G, f, hexec, hva, hsize⟩ := execAmog_good (c := c) (x := x) h ho hg
      exact request_outcome h hlt (.inl rfl) hva hsize hexec

theorem globalAccessRaces : Claims.GlobalAccessRaces :=
  fun _ _ _ h hlt _ _ _ _ _ _ ao hsup => requestWords_outcome h hlt hsup ao

/-- Settles O33: each fault of an access is the branch its word takes there, and the faults of races and of failed checks are those
of the check that its event or its completion meets. -/
theorem accessFaults : Obligations.AccessFaults :=
  ⟨bankAccessFaults, globalAccessFaults, bankAccessRacesAndFlaws, globalAccessRaces⟩

end Sys2Proof.Access
end

section
/-!
The values after reset (O56), and the fold of an address that names its station (O58).
-/

namespace Sys2Proof.Translation

open Sys2Proof Sys2Proof.Machine

/-! ## Reset -/

/-- A key that has no entry gives the default. -/
theorem assoc_of_not_mem {α : Type} (l : List (Nat × α)) (k : Nat) (dflt : α) (h : k ∉ l.map Prod.fst) : assoc l k dflt = dflt := by
  induction l with
  | nil => rfl
  | cons p r ih =>
    obtain ⟨hne, hr⟩ : k ≠ p.1 ∧ k ∉ r.map Prod.fst := by simpa using h
    rw [assoc, if_neg (Ne.symm hne), ih hr]

theorem hostMacl_keys : hostMacl.map Prod.fst = (List.range 16).map (0x3F0 + ·) := by decide

theorem hostMacl_values : ∀ i < 16, assoc hostMacl (0x3F0 + i) 0 = 0x81 := by decide

/-- The host's masters alone have an entry at reset (18 R432). -/
theorem maclOf_reset (m : Nat) : State.reset.maclOf m = if 0x3F0 ≤ m ∧ m ≤ 0x3FF then 0x81 else 0 := by
  show assoc hostMacl m 0 = _
  split
  · next h =>
    obtain ⟨i, rfl⟩ := Nat.exists_eq_add_of_le h.1
    exact hostMacl_values i (by omega)
  · next h =>
    refine assoc_of_not_mem _ _ _ ?_
    rw [hostMacl_keys]
    intro hm
    obtain ⟨i, hi, rfl⟩ := List.mem_map.1 hm
    have := List.mem_range.1 hi
    omega

theorem part_reset : ∀ p < 16, State.reset.part p = Partition.reset := by decide

/-- Settles O56: each register holds the value of its reset column, and the storage lists nothing. -/
theorem resetLeavesTheStatedValues : Obligations.ResetLeavesTheStatedValues := by
  refine ⟨State.memOk_reset, fun _ => rfl, fun p hp => ?_, by decide, rfl, rfl, maclOf_reset, fun _ => rfl, rfl, rfl, rfl, rfl, rfl, rfl⟩
  rw [part_reset p hp]
  exact ⟨rfl, rfl, rfl, rfl, rfl, rfl⟩

/-! ## Stations -/

/-- The exclusive OR of a list's octal digits has as bits those of the digits. -/
theorem foldl_xor_testBit (f : Nat → Nat) (l : List Nat) (x j : Nat) :
    (l.foldl (fun x i => x ^^^ f i) x).testBit j = l.foldl (fun b i => b ^^ (f i).testBit j) (x.testBit j) := by
  induction l generalizing x with
  | nil => rfl
  | cons i l ih => rw [List.foldl_cons, List.foldl_cons, ih, Nat.testBit_xor]

theorem foldl_xor_lt (f : Nat → Nat) (hf : ∀ i, f i < 2 ^ 3) (l : List Nat) {x : Nat} (hx : x < 2 ^ 3) :
    l.foldl (fun x i => x ^^^ f i) x < 2 ^ 3 := by
  induction l generalizing x with
  | nil => exact hx
  | cons i l ih => exact ih (Nat.xor_lt_two_pow hx (hf i))

theorem stationOf_lt (va : Nat) : stationOf va < 8 :=
  foldl_xor_lt _ (fun _ => Nat.mod_lt _ (by decide)) _ (by decide)

/-- A bit of a digit is a bit of the address. -/
theorem digit_testBit (va k : Nat) {j : Nat} (hj : j < 3) : (va / 2 ^ k % 8).testBit j = va.testBit (k + j) := by
  rw [show 8 = 2 ^ 3 from rfl, Nat.testBit_mod_two_pow, Nat.testBit_div_two_pow, decide_eq_true hj, Bool.true_and, Nat.add_comm]

theorem stationOf_testBit (va : Nat) {j : Nat} (hj : j < 3) :
    (stationOf va).testBit j = (List.range 12).foldl (fun b i => b ^^ va.testBit (12 + 3 * i + j)) false := by
  simp only [stationOf, foldl_xor_testBit, digit_testBit va _ hj, Nat.zero_testBit]

/-- The station depends on the page number alone. -/
theorem stationOf_page {a b : Nat} (h : a / 4096 = b / 4096) : stationOf a = stationOf b := by
  have hd (i : Nat) : a / 2 ^ (12 + 3 * i) = b / 2 ^ (12 + 3 * i) := by
    rw [Nat.pow_add, ← Nat.div_div_eq_div_mul, ← Nat.div_div_eq_div_mul, h]
  simp only [stationOf, hd]

/-- Settles O58: bit by bit the station is the fold, and the pages of one 64 KiB page reach every station. -/
theorem stationIsTheFoldOfTheAddress : Obligations.StationIsTheFoldOfTheAddress := by
  refine ⟨fun va => ⟨stationOf_lt va, fun j hj => stationOf_testBit va hj⟩, fun a b h => stationOf_page h, fun k hk => ?_⟩
  exact ⟨k * 4096, by omega, (by decide : ∀ k < 8, stationOf (k * 4096) = k) k hk⟩

end Sys2Proof.Translation
end

section
/-!
The entries of a walk (O59): which sizes name a page, and how descriptors chain the levels (03 R67, R70).
-/

namespace Sys2Proof.Translation

open Sys2Proof Sys2Proof.Machine

variable {s : State} {die key va : Nat} {mode : WalkMode}

/-- A field of an entry is its bits, as a number. -/
theorem extract_toNat (e : W64) (lo n : Nat) : (e.extractLsb' lo n).toNat = e.toNat / 2 ^ lo % 2 ^ n := by
  rw [BitVec.extractLsb'_toNat, Nat.shiftRight_eq_div_pow]

theorem leafSz_eq (e : W64) : leafSz e = e.toNat / 2 ^ 8 % 8 := extract_toNat e 8 3

theorem leafPpn_eq (e : W64) : leafPpn e = e.toNat / 2 ^ 20 % 2 ^ 37 := extract_toNat e 20 37

/-- Code 7 fits no entry (03 R67). -/
theorem leafClean_seven {e : W64} (h : leafSz e = 7) : leafClean e = false := by simp [leafClean, h]

/-- The place of the entry that a walk reads in the table at `pa`. -/
def entryPa (va level pa : Nat) : Nat := pa + 8 * (va / 2 ^ (39 - 9 * level) % 512)

/-- That entry is e, sound and valid. -/
def Reads (s : State) (die va level pa : Nat) (e : W64) : Prop :=
  s.sound [(locHbm die (entryPa va level pa), 8)] = true ∧
    BitVec.ofNat 64 (s.readLE (locHbm die (entryPa va level pa)) 8) = e ∧ e.getLsbD 0 = true

variable {fuel level pa : Nat} {e : W64}

/-- A check that holds lets the walk go on. -/
theorem not_bnot {b : Bool} (h : b = true) : ¬(!b) = true := by simp [h]

/-- Check 3: a size that does not fit its level stops the walk (03 R70). -/
theorem walkFrom_unfit (h : Reads s die va level pa e) (hf : szFits level (leafSz e) = false) :
    walkFrom s die key va mode (fuel + 1) level pa = .bad 8 level e (entryPa va level pa) := by
  obtain ⟨hs, rfl, hv⟩ := h
  exact (if_neg (not_bnot hs)).trans ((if_neg (not_bnot hv)).trans (if_pos (congrArg not hf)))

/-- Check 4: so does a reserved bit or value. -/
theorem walkFrom_unclean (h : Reads s die va level pa e) (hf : szFits level (leafSz e) = true) (hc : leafClean e = false) :
    walkFrom s die key va mode (fuel + 1) level pa = .bad 7 level e (entryPa va level pa) := by
  obtain ⟨hs, rfl, hv⟩ := h
  exact (if_neg (not_bnot hs)).trans ((if_neg (not_bnot hv)).trans
    ((if_neg (not_bnot hf)).trans (if_pos (congrArg not hc))))

/-- A clean descriptor leads to the next level's table. -/
theorem walkFrom_descriptor (h : Reads s die va level pa e) (hf : szFits level 6 = true) (hc : leafClean e = true) (h6 : leafSz e = 6) :
    walkFrom s die key va mode (fuel + 1) level pa = walkFrom s die key va mode fuel (level + 1) (leafPpn e * 4096) := by
  obtain ⟨hs, rfl, hv⟩ := h
  exact (if_neg (not_bnot hs)).trans ((if_neg (not_bnot hv)).trans
    ((if_neg (not_bnot (h6.symm ▸ hf))).trans ((if_neg (not_bnot hc)).trans (if_pos h6))))

/-- The leaf of a finished walk has a size of a page. -/
theorem walkFrom_leafSz (fuel : Nat) : ∀ (level pa : Nat) {l b n : Nat} {e : W64},
    walkFrom s die key va mode fuel level pa = .ok l e b n → leafSz e < 6 := by
  induction fuel with
  | zero => intro level pa l b n e h; cases h
  | succ k ih =>
    intro level pa l b n e h
    simp only [walkFrom] at h
    split at h <;> try cases h
    split at h <;> try cases h
    split at h <;> try cases h
    split at h <;> try cases h
    next hclean =>
    split at h
    · exact ih _ _ h
    · next hsix =>
      split at h <;> try cases h
      split at h <;> cases h
      have hseven : leafSz (BitVec.ofNat 64 (s.readLE (locHbm die (pa + 8 * (va / 2 ^ (39 - 9 * level) % 512))) 8)) ≠ 7 :=
        fun h7 => hclean (by rw [leafClean_seven h7]; rfl)
      have hlt : leafSz (BitVec.ofNat 64 (s.readLE (locHbm die (pa + 8 * (va / 2 ^ (39 - 9 * level) % 512))) 8)) < 8 :=
        BitVec.isLt _
      omega

/-- A field is zero when each of its bits is. -/
theorem extract_eq_zero_iff (e : W64) (lo n : Nat) :
    e.extractLsb' lo n = 0 ↔ ∀ i, lo ≤ i → i < lo + n → e.getLsbD i = false := by
  constructor
  · intro h i hlo hhi
    have hb : (e.extractLsb' lo n).getLsbD (i - lo) = false := by rw [h]; exact BitVec.getLsbD_zero
    rw [BitVec.getLsbD_extractLsb', decide_eq_true (by omega), Bool.true_and] at hb
    rwa [Nat.add_sub_cancel' hlo] at hb
  · intro h
    refine BitVec.eq_of_getLsbD_eq (fun j hj => ?_)
    rw [BitVec.getLsbD_extractLsb', h (lo + j) (by omega) (by omega), Bool.and_false]
    exact BitVec.getLsbD_zero.symm

/-- The bits of a descriptor that must be zero: all but V, SZ and PPN (03 R67). -/
def descriptorRest (e : W64) : W64 := e &&& ~~~0x01FFFFFFFFF00701

theorem descriptorMask_bit : ∀ i < 64, (~~~0x01FFFFFFFFF00701 : W64).getLsbD i =
    (decide (1 ≤ i ∧ i < 1 + 7) || decide (11 ≤ i ∧ i < 11 + 9) || decide (57 ≤ i ∧ i < 57 + 7)) := by decide

theorem descriptorRest_eq_zero_iff (e : W64) :
    descriptorRest e = 0 ↔ e.extractLsb' 1 7 = 0 ∧ e.extractLsb' 11 9 = 0 ∧ e.extractLsb' 57 7 = 0 := by
  simp only [extract_eq_zero_iff]
  constructor
  · intro h
    have hbit (i : Nat) (hi : i < 64) (hm : (~~~0x01FFFFFFFFF00701 : W64).getLsbD i = true) : e.getLsbD i = false := by
      have hb : (descriptorRest e).getLsbD i = false := by rw [h]; exact BitVec.getLsbD_zero
      rwa [descriptorRest, BitVec.getLsbD_and, hm, Bool.and_true] at hb
    refine ⟨fun i hlo hhi => hbit i (by omega) ?_, fun i hlo hhi => hbit i (by omega) ?_, fun i hlo hhi => hbit i (by omega) ?_⟩ <;>
      (rw [descriptorMask_bit i (by omega)]; simp; omega)
  · rintro ⟨hlow, hmid, hkey⟩
    refine BitVec.eq_of_getLsbD_eq (fun i hi => ?_)
    rw [descriptorRest, BitVec.getLsbD_and, descriptorMask_bit i hi]
    refine Eq.trans (Bool.and_eq_false_iff.2 (or_iff_not_imp_right.2 fun hm => ?_)) BitVec.getLsbD_zero.symm
    simp only [Bool.not_eq_false, Bool.or_eq_true, decide_eq_true_eq] at hm
    rcases hm with (hm | hm) | hm
    · exact hlow i hm.1 hm.2
    · exact hmid i hm.1 hm.2
    · exact hkey i hm.1 hm.2

/-- A descriptor is clean exactly when its other bits, and the bits of its PPN beyond a die, are zero. -/
theorem leafClean_descriptor {e : W64} (h : leafSz e = 6) :
    leafClean e = true ↔ descriptorRest e = 0 ∧ e.extractLsb' 45 12 = 0 := by
  have hsub : e.extractLsb' 11 9 = 0 → e.extractLsb' 18 2 = 0 := by
    simp only [extract_eq_zero_iff]
    exact fun h i hlo hhi => h i (by omega) (by omega)
  rw [descriptorRest_eq_zero_iff]
  simp only [leafClean, h]
  constructor
  · simp
    tauto
  · rintro ⟨⟨hlow, hmid, hkey⟩, hppn⟩
    simp [hlow, hmid, hkey, hppn, hsub hmid]

theorem ppnHigh_eq_zero {e : W64} (h : leafPpn e < 2 ^ 25) : e.extractLsb' 45 12 = 0 := by
  rw [leafPpn_eq] at h
  refine BitVec.eq_of_toNat_eq ?_
  rw [extract_toNat]
  show _ = 0
  omega

/-- A leaf size stands at no level 0 (03 R68). -/
theorem szFits_zero {sz : Nat} (h7 : sz ≠ 7) (h6 : sz ≠ 6) : szFits 0 sz = false := by
  have hl : leafLevel sz ≠ 0 := by unfold leafLevel; split <;> decide
  rw [szFits, if_neg h7, if_neg h6]
  exact beq_eq_false_iff_ne.2 (Ne.symm hl)

theorem szFits_six {level : Nat} (h : level ≤ 2) : szFits level 6 = true := by simp [szFits, h]

/-- Settles O59: each sentence is the branch that a sound and valid entry takes in the walk. -/
theorem tableDescriptorsChainTheWalk : Obligations.TableDescriptorsChainTheWalk := by
  intro s die key va mode fuel level pa at_ e go sz ppn
  refine ⟨fun l f b n h => leafSz_eq f ▸ walkFrom_leafSz _ _ _ h, fun hs hv => ?_⟩
  have h : Reads s die va level pa e := ⟨hs, rfl, hv⟩
  have hsz : leafSz e = sz := leafSz_eq e
  have hppn : leafPpn e = ppn := leafPpn_eq e
  refine ⟨fun h6 hl hrest hp => ?_, fun h6 hl hrest => ⟨7, ?_⟩, fun h0 h6 => ?_⟩
  · have hclean : leafClean e = true := (leafClean_descriptor (hsz.trans h6)).2 ⟨hrest, ppnHigh_eq_zero (hppn ▸ hp)⟩
    exact hppn ▸ walkFrom_descriptor h (szFits_six hl) hclean (hsz.trans h6)
  · have hclean : leafClean e = false :=
      Bool.eq_false_iff.2 (fun hc => hrest ((leafClean_descriptor (hsz.trans h6)).1 hc).1)
    exact walkFrom_unclean h (hsz.trans h6 ▸ szFits_six hl) hclean
  · subst h0
    by_cases h7 : sz = 7
    · exact ⟨7, walkFrom_unclean h (by rw [hsz, h7]; rfl) (leafClean_seven (hsz.trans h7))⟩
    · exact ⟨8, walkFrom_unfit h (hsz ▸ szFits_zero h7 h6)⟩

end Sys2Proof.Translation
end

section
/-!
REFUTATION of O13. A spilled word that waits for a link is kept by the tile of the LEAPL's logical number: the statement names
the tile that issues it, by its place, and asks nothing of its number there, as its clauses of failed spills do.
-/

namespace Sys2Proof.MisplacedSpill

open Sys2Proof Sys2Proof.Machine

/-- A tile of logical number 1 with a full stack and a loaded target, its block's repetitions over. -/
def tile : Tile := { placedTile 1 0 (placedBlock .sq []) 0 with stack := List.replicate 8 0, targets := [⟨0, 0, false, true⟩] }

/-- A launch packet whose spill area is 64 bytes of host memory. -/
def packet : List Byte :=
  List.replicate 52 0 ++ [64, 0, 0, 0] ++ [0, 0, 0, 0, 0, 0, 0, 0x80] ++ List.replicate 64 0

/-- The tile stands alone in its domain, at place 0. -/
def domain : Domain := { placedDomain false .sq [] with pkt := packet, tiles := [tile] }

/-- Window 0 admits writes of partition 0 to 2 MiB of host memory; no link is up. -/
def state : State := { State.reset with domains := [domain], cur := ⟨1, 0, .sq, .me, 0, 0, 0⟩, egress := [(3, 1, 0)] }

/-- LEAPL by slot 0, which is clear, through target register 0. -/
def word : Instr := .leapl 0 0 0 true

/-- Slot 0 of the tile's share, and where it leads. -/
def slot : W64 := 0x8000000000000040
def place : Place := ⟨locHost 0x40, Tag.raw, true, false, false, none⟩

/-- The words that wait for a link at the place of an answer. -/
def waitingWords : Out → List (Nat × W64)
  | .next s => (s.tile?.map (fun t => t.owed)).getD []
  | .fault _ => []
  | .refused _ => []

theorem waitingWords_of_at {s : State} {d : Domain} {t : Tile} (h : s.At d t) : waitingWords (.next s) = t.owed := by
  simp [waitingWords, State.tile?, h.1, h.2]

/-- The spilled word does not wait at the tile that has spilled it. -/
theorem word_waits_nowhere : waitingWords (exec word state) = [] := by decide

/-- The slot leads to host memory, which no link reaches. -/
theorem slot_cutOff : resolveFor state domain tile true slot = .ok place ∧ state.cutOff place.loc = true := by decide

/-- Refutes O13: where a tile's logical number is not its place, the word that its LEAPL spills to unreachable host memory
does not stand among the words that it owes. -/
theorem not_leapDecidesAndSpills : ¬ Obligations.LeapDecidesAndSpills := by
  unfold Obligations.LeapDecidesAndSpills
  rintro ⟨-, hspill⟩
  obtain ⟨-, -, hwaits, -⟩ := hspill state domain tile 0 0 0 true ⟨rfl, rfl⟩ rfl (by decide) rfl (by decide) rfl rfl (by decide)
  obtain ⟨s', hexec, ⟨d', t', hat, howed⟩, -⟩ := hwaits place slot_cutOff.1 rfl slot_cutOff.2
  have hstands : waitingWords (exec word state) = [(place.loc, 0)] := by
    rw [word, hexec, waitingWords_of_at hat, howed]
    rfl
  exact absurd (word_waits_nowhere.symm.trans hstands) (by decide)

end Sys2Proof.MisplacedSpill
end

section
/-!
REFUTATION of O34. A walk that ends installs its translation in the stations of an HBM owner alone (03 R61-R63); the statement
bounds the owner of the request only by the number of dies that the state lists, which the model leaves open.
-/

namespace Sys2Proof.WalkOfAHostAddress

open Sys2Proof Sys2Proof.Machine

/-- A load of 8 bytes from an address of owner 4, on its walk. -/
def request : GOp where
  id := 0
  kind := .load
  lt := 0
  tick := 0
  va := 0x8000000000002000
  size := 8
  data := []
  aop := .add
  operand := 0
  compare := 0
  stage := .walking
  decode := false
  due := 600
  seen := false

def domain : Domain := { placedDomain false .ls [] with gops := [request] }

/-- The table of partition 0 on a fifth die: a descriptor, and a leaf of 4 GiB that admits every access. -/
def tables : List Host.Cell :=
  [(locHbm 4 0, 0x01), (locHbm 4 1, 0x06), (locHbm 4 2, 0x10), (locHbm 4 0x1000, 0x07), (locHbm 4 0x1001, 0x05)]

/-- A state that lists five dies. -/
def state : State :=
  { State.reset with domains := [domain], cur := ⟨1, 0, .ls, .me, 0, 0, 0⟩, dies := List.replicate 5 Die.reset, mem := tables }

/-- The leaf that the walk finds for the address in the fifth die's table. -/
theorem walk_found : walk state 4 domain.part 0x2000 domain.walkMode = .ok (locHbm 4 0x1000) 0x507 0 (2 ^ 32) := by decide

/-- The translations of the fifth die in an answer. -/
def stations : Out → List TlbEntry
  | .next s => (s.die 4).tlb
  | .fault _ => []
  | .refused _ => []

/-- No station holds what the walk found. -/
theorem stations_empty : stations (exec .pageWalkComplete state) = [] := by decide

/-- Refutes O34: in a state that lists five dies, a request of owner 4 whose walk passes its checks enters no station's TLB. -/
theorem not_globalRequestsAreServed : ¬ Obligations.GlobalRequestsAreServed := by
  unfold Obligations.GlobalRequestsAreServed
  intro h
  obtain ⟨-, -, -, -, hwalk, -⟩ := h state domain (domain.tiles.headD (placedTile 0 0 (placedBlock .ls []) 0)) request rfl rfl rfl rfl
  obtain ⟨s', hexec, -, -, htlb⟩ := hwalk _ _ _ _ walk_found (by decide) (by decide)
  have hnew : (stations (exec .pageWalkComplete state)).length = 1 := by
    rw [hexec]
    exact congrArg List.length htlb
  rw [stations_empty] at hnew
  cases hnew

end Sys2Proof.WalkOfAHostAddress
end

section
/-!
SUPPORT. Operations of storage, partitions, stations and clusters keep who acts, and the domains and leases that stand.
-/

namespace Sys2Proof.Translation

open Sys2Proof Sys2Proof.Machine

/-- The same place acts in both states, with the same domains and leases. -/
structure SameContexts (s s' : State) : Prop where
  cur : s'.cur = s.cur
  domains : s'.domains = s.domains
  leases : s'.leases = s.leases

variable {s s' s'' : State} {d : Domain} {t : Tile}

theorem SameContexts.refl (s : State) : SameContexts s s := ⟨rfl, rfl, rfl⟩

theorem SameContexts.trans (h : SameContexts s s') (k : SameContexts s' s'') : SameContexts s s'' :=
  ⟨k.cur.trans h.cur, k.domains.trans h.domains, k.leases.trans h.leases⟩

theorem SameContexts.dom? (h : SameContexts s s') (k : Nat) : s'.dom? k = s.dom? k := by
  unfold State.dom?
  rw [h.domains]

theorem SameContexts.lease? (h : SameContexts s s') (k : Nat) : s'.lease? k = s.lease? k := by
  unfold State.lease?
  rw [h.leases]

theorem SameContexts.at_ (h : SameContexts s s') (hat : s.At d t) : s'.At d t := by
  unfold State.At
  rw [h.cur, h.dom?]
  exact hat

theorem SameContexts.ite {c : Prop} [Decidable c] {a b : State} (ha : SameContexts s a) (hb : SameContexts s b) :
    SameContexts s (if c then a else b) := by
  split
  · exact ha
  · exact hb

theorem SameContexts.foldl {α : Type} (f : State → α → State) (hf : ∀ s a, SameContexts s (f s a)) (l : List α) :
    ∀ s : State, SameContexts s (l.foldl f s) := by
  induction l with
  | nil => exact SameContexts.refl
  | cons a l ih => exact fun s => (hf s a).trans (ih (f s a))

/-! ## Flaws, partitions and stations -/

theorem sameContexts_countFlaws (s : State) (rs : List (Nat × Nat)) : SameContexts s (s.countFlaws rs) := ⟨rfl, rfl, rfl⟩
theorem sameContexts_countRead (s : State) (p : Nat) : SameContexts s (s.countRead p) := ⟨rfl, rfl, rfl⟩
theorem sameContexts_countWrite (s : State) (p : Nat) : SameContexts s (s.countWrite p) := ⟨rfl, rfl, rfl⟩
theorem sameContexts_updPart (s : State) (p : Nat) (f : Partition → Partition) : SameContexts s (s.updPart p f) := ⟨rfl, rfl, rfl⟩
theorem sameContexts_updDie (s : State) (n : Nat) (f : Die → Die) : SameContexts s (s.updDie n f) := ⟨rfl, rfl, rfl⟩
theorem sameContexts_writeByte (s : State) (a : Nat) (b : Byte) : SameContexts s (s.writeByte a b) := ⟨rfl, rfl, rfl⟩
theorem sameContexts_writeBytes (s : State) (a : Nat) (bs : List Byte) : SameContexts s (s.writeBytes a bs) := ⟨rfl, rfl, rfl⟩

theorem sameContexts_countWalk (s : State) (va : W64) (w : Walk) : SameContexts s (s.countWalk va w) := by
  unfold State.countWalk
  split
  · exact sameContexts_countFlaws _ _
  · exact .refl s
  · exact .refl s

theorem sameContexts_touchLeaf (s : State) (p : Place) (wr : Bool) : SameContexts s (s.touchLeaf p wr) := by
  unfold State.touchLeaf
  split
  · exact .refl s
  · exact ⟨rfl, rfl, rfl⟩

theorem sameContexts_install (s : State) (key : Nat) (va : W64) (loc : Nat) (leaf : W64) (base size : Nat) :
    SameContexts s (s.install key va loc leaf base size) :=
  .ite (sameContexts_updDie _ _ _) (.refl s)

theorem sameContexts_useRead (s : State) (d : Domain) (va : W64) : SameContexts s (s.useRead d va) := by
  unfold State.useRead
  split
  · exact .refl s
  · split
    · exact .ite ((sameContexts_writeByte _ _ _).trans (sameContexts_install _ _ _ _ _ _ _)) (.refl s)
    · exact .refl s

/-! ## The fault ring and completion records -/

theorem sameContexts_ringWrite (s : State) (p : Nat) (r : List Byte) : SameContexts s (s.ringWrite p r) := by
  unfold State.ringWrite
  dsimp only
  split
  · exact .ite ⟨rfl, rfl, rfl⟩ (.ite ⟨rfl, rfl, rfl⟩ (.ite ⟨rfl, rfl, rfl⟩ ⟨rfl, rfl, rfl⟩))
  · exact (sameContexts_countWalk _ _ _).trans (sameContexts_updPart _ _ _)

theorem sameContexts_ringRecord (s : State) (p : Nat) (r : List Byte) : SameContexts s (s.ringRecord p r) :=
  .ite ⟨rfl, rfl, rfl⟩ (.ite ⟨rfl, rfl, rfl⟩ (sameContexts_ringWrite _ _ _))

theorem sameContexts_openRecord (s : State) (d : Domain) (t : Tile) (kind : Nat) (wr : Bool) (va : W64) (n : Nat) (w : Walk) :
    SameContexts s (s.openRecord d t kind wr va n w) := by
  unfold State.openRecord
  split
  · exact (sameContexts_countWalk _ _ _).trans (sameContexts_ringRecord _ _ _)
  · exact .refl s

theorem sameContexts_writeGlobal (part m n : Nat) : ∀ (s : State) (va : W64) (bs : List Byte),
    SameContexts s (s.writeGlobal part m n va bs) := by
  induction n with
  | zero => exact fun s _ _ => .refl s
  | succ n ih =>
    intro s va bs
    unfold State.writeGlobal
    refine .ite (.refl s) (SameContexts.trans ?_ (ih _ _ _))
    split
    · exact .ite ⟨rfl, rfl, rfl⟩ (.ite (.refl s) (.ite ⟨rfl, rfl, rfl⟩ ⟨rfl, rfl, rfl⟩))
    · exact sameContexts_countWalk _ _ _

/-- The refusal of launches that wait for a handle writes their completion records. -/
theorem sameContexts_refuseWaiting (s : State) (handle : Nat) : SameContexts s (s.refuseWaiting handle) := by
  have h := SameContexts.foldl (fun s (k : Task) => s.refuse k.pkt k.part k.seq 7) (fun s _ => sameContexts_writeGlobal _ _ _ s _ _)
    (s.queues.filter (fun k => field k.pkt 3 1 == 0 && k.handle == handle)) s
  exact ⟨h.cur, h.domains, h.leases⟩

theorem sameContexts_select (s : State) : SameContexts s s.select := .ite (.refl s) ⟨rfl, rfl, rfl⟩

end Sys2Proof.Translation
end

section
/-!
The leases and translations of O44: what the lease table, the stations and the partitions hold after an update, and the
events of builds, records and commands (03 R72-R79).
-/

namespace Sys2Proof.Translation

open Sys2Proof Sys2Proof.Machine Sys2Proof.Laws

variable {s s' : State} {l l' : Lease} {h : Nat}

/-! ## Dies and partitions after an update -/

theorem upd_getD_same {α : Type} (xs : List α) (i : Nat) (f : α → α) (x : α) (hi : i < xs.length) :
    (upd xs i f).getD i x = f (xs.getD i x) := by
  simp [List.getD, upd_getElem?, hi]

theorem upd_getD_other {α : Type} (xs : List α) {i j : Nat} (f : α → α) (x : α) (hij : j ≠ i) :
    (upd xs i f).getD j x = xs.getD j x := by
  simp [List.getD, upd_getElem?, Ne.symm hij]

theorem die_updDie_same (s : State) {k : Nat} (f : Die → Die) (hk : k < s.dies.length) : (s.updDie k f).die k = f (s.die k) :=
  upd_getD_same _ _ _ _ hk

theorem die_updDie_other (s : State) {k j : Nat} (f : Die → Die) (hj : j ≠ k) : (s.updDie k f).die j = s.die j :=
  upd_getD_other _ _ _ hj

theorem part_updPart_same (s : State) {k : Nat} (f : Partition → Partition) (hk : k < s.parts.length) :
    (s.updPart k f).part k = f (s.part k) :=
  upd_getD_same _ _ _ _ hk

theorem part_updPart_other (s : State) {k j : Nat} (f : Partition → Partition) (hj : j ≠ k) : (s.updPart k f).part j = s.part j :=
  upd_getD_other _ _ _ hj

/-! ## Leases after an update -/

theorem lease?_handle (hl : s.lease? h = some l) : l.handle = h := by simpa using List.find?_some hl

/-- A handle's lease is the one put in its place. -/
theorem lease?_setLease (hl : s.lease? h = some l) (hl' : l'.handle = h) : (s.setLease l').lease? h = some l' := by
  subst hl'
  unfold State.lease? State.setLease at *
  induction hs : s.leases generalizing s with
  | nil => simp [hs] at hl
  | cons x xs ih =>
    rw [hs] at hl
    by_cases hx : x.handle = l'.handle
    · simp [hx]
    · have e : (x.handle == l'.handle) = false := by simpa using hx
      simp only [List.find?_cons, e] at hl
      simp only [List.map_cons, if_neg hx, List.find?_cons, e]
      exact ih (s := { s with leases := xs }) hl rfl

/-- A handle that turns EMPTY stands no more. -/
theorem lease?_emptyLease (s : State) (h : Nat) : (s.emptyLease h).lease? h = none := by
  refine (((sameContexts_refuseWaiting _ _).trans (sameContexts_select _)).lease? h).trans ?_
  simp [State.lease?]

/-! ## The TLB invalidation register (03 R72) -/

theorem tlbinvGo_eq (s : State) (die : Nat) (v : BitVec 64) : exec (.tlbinvGo die v) s = .next (s.updDie die (fun q => { q with
    tlb := if q.tlbinv.getLsbD 63 then q.tlb.filter (fun e => !tlbMatches q.tlbinv e) else q.tlb
    tlbinv := (v &&& 0x400FFFFFFFFFF700) ||| (if v.getLsbD 63 = true ∧ (v.extractLsb' 8 3).toNat < 6 then 0x8000000000000000
      else q.tlbinv &&& 0x8000000000000000) })) := by
  show execTlbinvGo die v s = _
  simp only [execTlbinvGo, Bool.and_eq_true, decide_eq_true_eq]

theorem tlbMatches_iff (inv : W64) (e : TlbEntry) :
    let size := pageSize (inv.extractLsb' 8 3).toNat
    let base := (inv.extractLsb' 12 36).toNat * 4096 / size * size
    tlbMatches inv e = true ↔ (e.key = (inv.extractLsb' 48 4).toNat ∨ leafKey e.leaf = (inv.extractLsb' 48 4).toNat) ∧
      (inv.getLsbD 62 = true ∨ (e.base < base + size ∧ base < e.base + e.size)) := by
  simp [tlbMatches]

/-- The end of an invalidation drops the translations that match it, on its die alone. -/
theorem tlbinvDone_drops (s : State) (hd : s.cur.die < s.dies.length) : Completes (exec .tlbinvDone s) (fun s' => s'.mem = s.mem ∧
    (∀ e, e ∈ (s'.die s.cur.die).tlb ↔ e ∈ (s.die s.cur.die).tlb ∧ ¬tlbMatches (s.die s.cur.die).tlbinv e = true) ∧
    (s'.die s.cur.die).tlbinv = (s.die s.cur.die).tlbinv &&& 0x7FFFFFFFFFFFFFFF ∧ ∀ k, k ≠ s.cur.die → s'.die k = s.die k) := by
  refine ⟨_, rfl, rfl, ?_, ?_, fun k hk => die_updDie_other _ _ hk⟩
  · intro e
    rw [die_updDie_same _ _ hd, List.mem_filter, Bool.not_eq_true, Bool.not_eq_true']
  · rw [die_updDie_same _ _ hd]

/-! ## The build of a handle (03 R74, R75, R78) -/

/-- Going on past a page keeps the handle and its ranges, and RW where the page is writable. -/
theorem advance_fields {r : Range} {o : Nat} (w : Bool) (hr : l.ranges[l.at_.1]? = some r) :
    l.advance l.at_.1 o w = { l with
      rw := upd l.rw l.at_.1 (fun b => b && w), at_ := if o < r.len then (l.at_.1, o) else (l.at_.1 + 1, 0) } := by
  unfold Lease.advance
  dsimp only
  rw [hr]
  dsimp only
  split <;> rfl

theorem upd_and_eq_set (bs : List Bool) (i : Nat) (w : Bool) : upd bs i (fun b => b && w) = bs.set i (bs.getD i false && w) := by
  refine List.ext_getElem? (fun j => ?_)
  rw [upd_getElem?, List.getElem?_set]
  split
  · next hij =>
    subst hij
    by_cases hi : i < bs.length <;> simp [List.getD, hi]
  · rfl

/-- The lease once a page that ends at offset `next`, has passed its check. -/
def built (l : Lease) (next : Nat) (w : Bool) : Lease :=
  if (l.advance l.at_.1 next w).at_.1 < (l.advance l.at_.1 next w).ranges.length then l.advance l.at_.1 next w
  else { l.advance l.at_.1 next w with state := .resident }

theorem built_fields {r : Range} {next : Nat} {w : Bool} (hr : l.ranges[l.at_.1]? = some r) :
    (built l next w).handle = l.handle ∧ (built l next w).ranges = l.ranges ∧
      (built l next w).rw = l.rw.set l.at_.1 (l.rw.getD l.at_.1 false && w) ∧
      (built l next w).at_ = (if next < r.len then (l.at_.1, next) else (l.at_.1 + 1, 0)) ∧
      ((built l next w).state = .resident ↔ l.state = .resident ∨ (r.len ≤ next ∧ l.ranges.length ≤ l.at_.1 + 1)) := by
  have hi : l.at_.1 < l.ranges.length := (List.getElem?_eq_some_iff.1 hr).1
  simp only [built, advance_fields w hr, upd_and_eq_set]
  by_cases hn : next < r.len
  · simp [hn, hi]
  · by_cases hlast : l.at_.1 + 1 < l.ranges.length
    · simp [hn, hlast]
    · simp [hn, hlast]
      omega

/-- A page that passes sends the build on; its walk's A bit and translation leave every lease as it is. -/
theorem leaseBuildPage_ok {r : Range} {base size : Nat} {w : Bool} (hl : s.lease? s.cur.item = some l)
    (hr : l.ranges[l.at_.1]? = some r) (hc : checkPage s l r l.at_.2 = .ok base size w) :
    Completes (exec .leaseBuildPage s) (fun s' => s'.lease? s.cur.item =
      some (built l (l.at_.2 + (base + size - lowAddr (r.base + BitVec.ofNat 64 l.at_.2))) w)) := by
  show Completes (execLeaseBuildPage s) _
  unfold execLeaseBuildPage
  rw [hl]
  dsimp only
  rw [hr]
  dsimp only
  rw [hc]
  refine ⟨_, rfl, ((sameContexts_select _).lease? _).trans (lease?_setLease (l := l) ((SameContexts.lease? ?_ _).trans hl) ?_)⟩
  · cases resolve s l.part (distributor 0) .strict false (r.base + BitVec.ofNat 64 l.at_.2) with
    | error _ =>
      dsimp only
      split
      · exact .ite (sameContexts_updDie _ _ _) (.refl s)
      · exact .refl s
    | ok p =>
      have ht := sameContexts_touchLeaf s p false
      dsimp only
      split
      · exact .ite (ht.trans (sameContexts_updDie _ _ _)) ht
      · exact ht
  · exact (built_fields hr).1.trans (lease?_handle hl)

/-- A page that fails leaves the build FAULTED where it stands, its record waiting unless the ring takes it. -/
theorem leaseBuildPage_bad {r : Range} {c lv p : Nat} {e : W64} (hl : s.lease? s.cur.item = some l)
    (hr : l.ranges[l.at_.1]? = some r) (hc : checkPage s l r l.at_.2 = .bad c lv e p) :
    Completes (exec .leaseBuildPage s) (fun s' => ∃ b, s'.lease? s.cur.item =
      some { l with state := .faulted, record := if ringOpen (s.part l.part) then none else some b }) := by
  show Completes (execLeaseBuildPage s) _
  unfold execLeaseBuildPage
  rw [hl]
  dsimp only
  rw [hr]
  dsimp only
  rw [hc]
  refine ⟨_, rfl, buildRecord (s.seqOf l.seq) l l.at_.1 r l.at_.2 c lv e p, ?_⟩
  have hset (rec : Option (List Byte)) : (s.setLease { l with state := .faulted, record := rec }).lease? s.cur.item =
      some { l with state := .faulted, record := rec } :=
    lease?_setLease hl (show l.handle = _ from lease?_handle hl)
  unfold State.buildFault
  dsimp only
  by_cases ho : ringOpen (s.part l.part) = true
  · rw [if_pos ho, if_pos ho]
    exact ((sameContexts_ringWrite _ _ _).lease? _).trans (hset none)
  · rw [if_neg ho, if_neg ho]
    exact (SameContexts.lease? (.ite (sameContexts_updPart _ _ _) (.refl _)) _).trans (hset _)

theorem ringOpen_iff (p : Partition) : ringOpen p = true ↔ p.frstat.getLsbD 0 = true ∧ (p.frhead - p.frtail).toNat ≠ p.frsize.toNat := by
  simp [ringOpen, ringFull]

/-! ## A waiting record (03 R78, R79) -/

/-- A write into the ring that meets a sound page in reach puts the record there, its last 8 bytes the count of records. -/
theorem ringWrite_sound {part : Nat} {b : List Byte} {p : Place}
    (hp : resolve s part 0x101 .report true ((s.part part).frbase + BitVec.ofNat 64 (64 * ((s.part part).frhead.toNat %
      (s.part part).frsize.toNat))) = .ok p)
    (hd : p.discarded = false) (hc : s.cutOff p.loc = false) (hm : s.mergeSound (p.loc, 64) = true) :
    s.ringWrite part b = (s.writeBytes p.loc (b.take 56 ++ toLE 8 ((s.part part).frhead + 1).toNat)).updPart part
      (fun q => { q with frhead := (s.part part).frhead + 1 }) := by
  unfold State.ringWrite
  dsimp only
  rw [hp]
  dsimp only
  rw [hd, hc, hm]
  rfl

/-- Byte k of a little-endian number. -/
theorem getD_toLE (n : Nat) : ∀ (x : Nat) {k : Nat}, k < n → (toLE n x).getD k 0 = BitVec.ofNat 8 (x / 256 ^ k) := by
  induction n with
  | zero => exact fun _ _ hk => absurd hk (Nat.not_lt_zero _)
  | succ n ih =>
    intro x k hk
    cases k with
    | zero => simp [toLE]
    | succ k =>
      have hd : x / 256 / 256 ^ k = x / 256 ^ (k + 1) := by rw [Nat.div_div_eq_div_mul, ← Nat.pow_succ']
      rw [← hd]
      exact ih (x / 256) (Nat.lt_of_succ_lt_succ hk)

/-- The digits of a number to base 256 make up its low bytes. -/
theorem sum_digits (x n : Nat) : ((List.range n).map (fun k => x / 256 ^ k % 256 * 256 ^ k)).sum = x % 256 ^ n := by
  induction n with
  | zero => simp [Nat.mod_one]
  | succ n ih => rw [List.range_succ, List.map_append, List.sum_append, ih, Nat.mod_pow_succ]; simp [Nat.mul_comm]

/-- Where the bytes of a number stand, the number reads (00 R10). -/
theorem number_of_bytes {loc n x : Nat} (hb : ∀ k < n, s.readByte (loc + k) = (toLE n x).getD k 0) :
    Claims.number s loc n = x % 256 ^ n := by
  rw [← sum_digits x n, Claims.number]
  refine congrArg List.sum (List.map_congr_left fun k hk => ?_)
  have hk := List.mem_range.1 hk
  rw [hb k hk, getD_toLE n x hk, BitVec.toNat_ofNat]

/-- The record that stands in the ring: its bytes, its number, and nothing else of storage. -/
theorem record_written {loc : Nat} {b : List Byte} {seq : BitVec 32} (hm : s.memOk) (hb : b.length = 64)
    (hs' : s'.mem = (s.writeBytes loc (b.take 56 ++ toLE 8 seq.toNat)).mem) :
    (∀ k < 56, s'.readByte (loc + k) = b.getD k 0) ∧ Claims.number s' (loc + 56) 8 = seq.toNat ∧
      ∀ x, x < loc ∨ loc + 64 ≤ x → s'.readByte x = s.readByte x := by
  have hread (x : Nat) : s'.readByte x = (s.writeBytes loc (b.take 56 ++ toLE 8 seq.toNat)).readByte x := by
    unfold State.readByte
    rw [hs']
  have h56 : (b.take 56).length = 56 := by rw [List.length_take, hb]; rfl
  have h64 : (b.take 56 ++ toLE 8 seq.toNat).length = 64 := by rw [List.length_append, h56, Access.length_toLE]
  refine ⟨fun k hk => ?_, ?_, fun x hx => ?_⟩
  · rw [hread, State.readByte_writeBytes_in _ hm (by omega) (by omega), Nat.add_sub_cancel_left]
    simp [List.getD, List.getElem?_append_left (h56.symm ▸ hk), hk]
  · rw [number_of_bytes (x := seq.toNat), Nat.mod_eq_of_lt (by have := seq.isLt; omega)]
    intro k hk
    rw [hread, State.readByte_writeBytes_in _ hm (by omega) (by omega), show loc + 56 + k - loc = 56 + k by omega]
    simp [List.getD, List.getElem?_append_right, h56]
  · rw [hread, State.readByte_writeBytes_other _ _ (by rw [h64]; exact hx)]

/-- A handle released while its record waited turns EMPTY once the ring has it. -/
theorem leaseRecord_released {b : List Byte} (hl : s.lease? s.cur.item = some l) (hb : l.record = some b) (hr : l.released = true) :
    Completes (exec .leaseRecordDeferredWrite s) (fun s' => s'.lease? s.cur.item = none) := by
  show Completes (execLeaseRecordDeferredWrite s) _
  unfold execLeaseRecordDeferredWrite
  rw [hl]
  dsimp only
  rw [hb]
  refine ⟨_, rfl, ?_⟩
  rw [if_pos hr, lease?_handle hl]
  exact lease?_emptyLease _ _

/-- One that stands keeps its handle, its record written. -/
theorem leaseRecord_standing {b : List Byte} (hl : s.lease? s.cur.item = some l) (hb : l.record = some b) (hr : l.released = false) :
    exec .leaseRecordDeferredWrite s = .next ((s.setLease { l with record := none }).ringWrite l.part b) := by
  show execLeaseRecordDeferredWrite s = _
  unfold execLeaseRecordDeferredWrite
  rw [hl]
  dsimp only
  rw [hb]
  dsimp only
  rw [if_neg (by rw [hr]; exact Bool.false_ne_true)]

/-! ## Commands (03 R75) -/

theorem leaseRetry_eq (part : Nat) (hl : s.lease? h = some l) : exec (.leasecmdRetry part h) s =
    .next (if l.part = part ∧ l.state = .faulted ∧ l.record = none then s.setLease { l with state := .building } else s) := by
  show Host.Outcome.next (s.leaseRetry part h) = _
  rw [State.leaseRetry, hl]

theorem leaseRelease_eq (part : Nat) (hl : s.lease? h = some l) : exec (.leasecmdRelease part h) s =
    .next (if l.part ≠ part then s
      else if l.state = .resident ∧ s.leaseUsed h then s.setLease { l with state := .ending }
      else if l.state = .ending then s
      else if l.record.isSome then s.setLease { l with released := true }
      else s.emptyLease h) := by
  show Host.Outcome.next (s.leaseRelease part h) = _
  rw [State.leaseRelease, hl]

/-- RETRY sends a FAULTED build of its partition on, and does nothing else. -/
theorem retry_clauses (part : Nat) (hl : s.lease? h = some l) :
    (l.part = part → l.state = .faulted → l.record = none → Completes (exec (.leasecmdRetry part h) s) (fun s' =>
      s'.lease? h = some { l with state := .building } ∧ s'.mem = s.mem)) ∧
    (¬(l.part = part ∧ l.state = .faulted ∧ l.record = none) → exec (.leasecmdRetry part h) s = .next s) := by
  rw [leaseRetry_eq part hl]
  refine ⟨fun hp hs hr => ⟨_, congrArg _ (if_pos ⟨hp, hs, hr⟩), lease?_setLease hl ?_, rfl⟩, fun hn => congrArg _ (if_neg hn)⟩
  exact (lease?_handle hl :)

/-- RELEASE acts on a handle of its partition that is not ENDING: it ends one in use, waits for a waiting record, and empties
any other. -/
theorem release_clauses (part : Nat) (hl : s.lease? h = some l) :
    (l.part ≠ part ∨ l.state = .ending → exec (.leasecmdRelease part h) s = .next s) ∧
    (l.part = part → l.state = .resident → s.leaseUsed h = true → Completes (exec (.leasecmdRelease part h) s) (fun s' =>
      s'.lease? h = some { l with state := .ending } ∧ s'.mem = s.mem)) ∧
    (l.part = part → l.state ≠ .ending → ¬(l.state = .resident ∧ s.leaseUsed h = true) → l.record.isSome = true →
      Completes (exec (.leasecmdRelease part h) s) (fun s' => s'.lease? h = some { l with released := true } ∧ s'.mem = s.mem)) ∧
    (l.part = part → l.state ≠ .ending → ¬(l.state = .resident ∧ s.leaseUsed h = true) → l.record = none →
      Completes (exec (.leasecmdRelease part h) s) (fun s' => s'.lease? h = none)) := by
  have hset (l' : Lease) (hh : l'.handle = l.handle) : (s.setLease l').lease? h = some l' :=
    lease?_setLease hl (hh.trans (lease?_handle hl))
  rw [leaseRelease_eq part hl]
  refine ⟨fun hn => ?_, fun hp hs hu => ?_, fun hp he hu hr => ?_, fun hp he hu hr => ?_⟩
  · by_cases hp : l.part = part
    · have he := hn.resolve_left (not_not.2 hp)
      simp [hp, he]
    · rw [if_pos hp]
  · rw [if_neg (not_not.2 hp), if_pos ⟨hs, hu⟩]
    exact ⟨_, rfl, hset _ rfl, rfl⟩
  · rw [if_neg (not_not.2 hp), if_neg hu, if_neg he, if_pos hr]
    exact ⟨_, rfl, hset _ rfl, rfl⟩
  · rw [if_neg (not_not.2 hp), if_neg hu, if_neg he, if_neg (by rw [hr]; exact Bool.false_ne_true)]
    exact ⟨_, rfl, lease?_emptyLease s h⟩

/-! ## The statement -/

/-- Settles O44: the register, the builds, the waiting records, the commands and FRTAIL, each by its rule. -/
theorem leasesAndTranslations : Obligations.LeasesAndTranslations := by
  refine ⟨tlbinvGo_eq, fun s hd => ?_, fun s l r hl hr => ⟨fun base size w hc => ?_, fun c lv e p hc => ?_⟩,
    fun s l b p hl hb hlen hm hpart hp hdisc hcut hsound => ⟨leaseRecord_released hl hb, fun hr => ?_⟩,
    fun s part h l hl => ?_, fun s p v hp => ?_⟩
  · simpa only [tlbMatches_iff] using tlbinvDone_drops s hd
  · obtain ⟨s', hexec, hl'⟩ := leaseBuildPage_ok hl hr hc
    obtain ⟨-, hranges, hrw, hat, hstate⟩ := built_fields (w := w)
      (next := l.at_.2 + (base + size - lowAddr (r.base + BitVec.ofNat 64 l.at_.2))) hr
    rw [Access.lowAddr_eq] at *
    exact ⟨s', hexec, _, hl', hranges, hrw, hat, hstate⟩
  · obtain ⟨s', hexec, rec, hl'⟩ := leaseBuildPage_bad hl hr hc
    refine ⟨s', hexec, _, hl', rfl, rfl, ?_⟩
    rw [← ringOpen_iff]
    by_cases ho : ringOpen (s.part l.part) = true <;> simp [ho]
  · refine ⟨_, leaseRecord_standing hl hb hr, ?_⟩
    rw [ringWrite_sound (s := s.setLease { l with record := none }) hp hdisc hcut hsound]
    exact ⟨⟨_, lease?_setLease hl (show l.handle = _ from lease?_handle hl), rfl⟩,
      congrArg Partition.frhead (part_updPart_same _ _ hpart), record_written hm hlen rfl⟩
  · obtain ⟨hretry, hstay⟩ := retry_clauses part hl
    exact ⟨hretry, hstay, release_clauses part hl⟩
  · have hset := part_updPart_same s (fun q => { q with frtail := v.setWidth 32 }) hp
    exact ⟨_, rfl, rfl, congrArg Partition.frtail hset, (congrArg Partition.frhead hset :), fun k hk => part_updPart_other s _ hk⟩

end Sys2Proof.Translation
end

section
/-!
SUPPORT. The steps of the records of the ME, GU and CE write storage, partitions and stations alone: the contexts stand, and the
number of steps depends on the record alone (13 R343-R358).
-/

namespace Sys2Proof.Translation

open Sys2Proof Sys2Proof.Machine

variable {s s' : State} {d : Domain} {t : Tile} {r : Rec}

/-! ## What a step is made of -/

/-- A run keeps the contexts of any state. -/
def Keeps (f : State → Ran) : Prop := ∀ s, SameContexts s (f s).1

theorem soundly_keeps {f : State → Ran} (hf : Keeps f) (t : Tile) (rs : State → List (Nat × Nat)) :
    Keeps (fun s => soundly t (rs s) s f) := by
  intro s
  dsimp only [soundly]
  split
  · exact hf s
  · exact sameContexts_countFlaws _ _

theorem sameContexts_storeAll (s : State) (cl : Nat) (ws : List (Nat × List Byte)) : SameContexts s (s.storeAll cl ws) :=
  have h := SameContexts.foldl (fun s (w : Nat × List Byte) => s.storeEngine cl w.1 w.2) (fun _ _ => ⟨rfl, rfl, rfl⟩) ws s
  ⟨h.cur, h.domains, h.leases⟩

theorem storeStep_keeps (t : Tile) (ws : List (Nat × List Byte)) (fl : Flg) : Keeps (storeStep t ws fl) := by
  intro s
  dsimp only [storeStep]
  split
  · exact sameContexts_storeAll _ _ _
  · exact sameContexts_countFlaws _ _

theorem andThen_keeps {x : Ran} {f : State → State} (hx : SameContexts s x.1) (hf : ∀ s, SameContexts s (f s)) :
    SameContexts s (x.andThen f).1 := by
  unfold Ran.andThen
  split
  · exact hx
  · exact hx.trans (hf _)

theorem sameContexts_setTag (s : State) (cl b : Nat) (g : Tag) : SameContexts s (s.setTag cl b g) := ⟨rfl, rfl, rfl⟩
theorem sameContexts_setSliceTag (s : State) (t : Tile) (j : Nat) (g : Tag) : SameContexts s (s.setSliceTag t j g) := ⟨rfl, rfl, rfl⟩

/-! ## Pieces of copies -/

theorem readPiece_keeps (s : State) (d : Domain) (t : Tile) (who space : Nat) (va : W64) (n : Nat) :
    SameContexts s (readPiece s d t who space va n).1 := by
  unfold readPiece
  split
  · split
    · dsimp only
      split
      · exact .refl s
      · exact sameContexts_countFlaws _ _
    · exact .refl s
  · split
    · dsimp only
      split
      · exact (sameContexts_touchLeaf _ _ _).trans (sameContexts_countRead _ _)
      · split
        · exact sameContexts_touchLeaf _ _ _
        · exact (sameContexts_touchLeaf _ _ _).trans (sameContexts_countFlaws _ _)
    · split
      · exact sameContexts_openRecord _ _ _ _ _ _ _ _
      · exact sameContexts_countWalk _ _ _

theorem writePiece_keeps (d : Domain) (t : Tile) (who space : Nat) (va : W64) (ws : List (Nat × List Byte)) :
    Keeps (fun s => writePiece s d t who space va ws) := by
  intro s
  dsimp only [writePiece]
  split
  · split
    · exact storeStep_keeps _ _ _ _
    · exact .refl s
  · split
    · next p _ =>
      have ht := sameContexts_touchLeaf s p true
      split
      · exact ht.trans (sameContexts_countWrite _ _)
      · split
        · have hw := SameContexts.foldl (fun s (w : Nat × List Byte) => s.writeBytes (p.loc + w.1) w.2) (fun _ _ => ⟨rfl, rfl, rfl⟩) ws
            (s.touchLeaf p true)
          exact ht.trans ⟨hw.cur, hw.domains, hw.leases⟩
        · exact ht.trans (sameContexts_countFlaws _ _)
    · split
      · exact sameContexts_openRecord _ _ _ _ _ _ _ _
      · exact sameContexts_countWalk _ _ _

/-- A choice between two runs keeps the contexts when both do. -/
theorem ite_keeps {α : Type} {c : Prop} [Decidable c] {x y : State × α} (hx : SameContexts s x.1) (hy : SameContexts s y.1) :
    SameContexts s (if c then x else y).1 := by
  split
  · exact hx
  · exact hy

theorem readGranule_keeps (d : Domain) (t : Tile) (ss : Nat) (tag : Tag) (fuel : Nat) : ∀ (va : W64) (n : Nat) (s : State),
    SameContexts s (readGranule d t ss tag fuel va n s).1 := by
  induction fuel with
  | zero => exact fun _ _ s => .refl s
  | succ k ih =>
    intro va n s
    rw [readGranule]
    refine ite_keeps (.refl s) ?_
    refine ite_keeps (sameContexts_useRead _ _ _) ?_
    have hr := readPiece_keeps s d t 1 ss va (min n (4096 - va.toNat % 4096))
    split
    · next h => rw [h] at hr; exact hr
    · next s1 _ h =>
      rw [h] at hr
      have hrest := ih (va + BitVec.ofNat 64 (min n (4096 - va.toNat % 4096))) (n - min n (4096 - va.toNat % 4096)) s1
      split <;> (next h' => rw [h'] at hrest; exact hr.trans hrest)

theorem readParts_keeps (d : Domain) (t : Tile) (ss : Nat) (tag : Tag) (ps : List (Nat × W64 × Nat)) : ∀ s : State,
    SameContexts s (readParts d t ss tag ps s).1 := by
  induction ps with
  | nil => exact .refl
  | cons p ps ih =>
    intro s
    obtain ⟨o, va, n⟩ := p
    unfold readParts
    have hr := readGranule_keeps d t ss tag 2 va n s
    split
    · next h => rw [h] at hr; exact hr
    · next s1 _ h =>
      rw [h] at hr
      have hrest := ih s1
      split <;> (next h' => rw [h'] at hrest; exact hr.trans hrest)

/-! ## The works -/

/-- A work whose every step keeps the contexts. -/
def Steady (w : Work) : Prop := ∀ i, Keeps (w.run i)

theorem matrixWork_steady (t : Tile) (r : Rec) (k : Nat) (fits : State → Bool) (misfit : State → W64) {last : State → Ran}
    (h : Keeps last) : Steady (matrixWork t r k fits misfit last) := by
  intro i s
  dsimp only [matrixWork]
  split
  · exact .refl s
  · refine soundly_keeps (fun s => ?_) t (fun _ => r.reads) s
    split
    · exact .refl s
    · exact h s

theorem mmaWork_steady (s : State) (d : Domain) (t : Tile) (r : Rec) : Steady (mmaWork s d t r) :=
  matrixWork_steady _ _ _ _ _ (fun _ => storeStep_keeps _ _ _ _)

theorem mmsWork_steady (s : State) (d : Domain) (t : Tile) (r : Rec) : Steady (mmsWork s d t r) :=
  matrixWork_steady _ _ _ _ _ (fun _ => storeStep_keeps _ _ _ _)

theorem mzeroWork_steady (s : State) (d : Domain) (t : Tile) (r : Rec) : Steady (mzeroWork s d t r) :=
  fun _ _ => ⟨rfl, rfl, rfl⟩

theorem acopyWork_steady (s : State) (d : Domain) (t : Tile) (r : Rec) : Steady (acopyWork s d t r) := by
  intro i
  refine soundly_keeps (fun s => ?_) _ _
  split
  · exact .refl s
  · exact andThen_keeps (storeStep_keeps _ _ _ _) (fun _ => .ite (.refl _) (sameContexts_setTag _ _ _ _))

theorem mloadWork_steady (s : State) (d : Domain) (t : Tile) (r : Rec) : Steady (mloadWork s d t r) :=
  fun _ => soundly_keeps (fun _ => storeStep_keeps _ _ _ _) _ _

theorem gatherWork_steady (s : State) (d : Domain) (t : Tile) (r : Rec) : Steady (gatherWork s d t r) := by
  intro i
  refine soundly_keeps (fun s => ?_) _ _
  split
  · exact .refl s
  · exact andThen_keeps (storeStep_keeps _ _ _ _) (fun s => .ite (.refl _)
      (.foldl _ (fun _ _ => sameContexts_setSliceTag _ _ _ _) _ s))

end Sys2Proof.Translation
end

section
/-!
SUPPORT. The steps of the CE's records keep the contexts (13 R356-R358).
-/

namespace Sys2Proof.Translation

open Sys2Proof Sys2Proof.Machine

variable {s s' : State} {d : Domain} {t : Tile} {r : Rec}

theorem steady_mk {n : Nat} {f : Nat → State → Ran} (h : ∀ i s, SameContexts s (f i s).1) : Steady ⟨n, f⟩ := h

/-- A COPY writes what its parts read, and sets a tag with its last step. The claim is proved of any parts: the `id` makes the kernel
compare its forms there, and not with the parts of the record, which it would evaluate. -/
theorem copyWork_steady (s : State) (d : Domain) (t : Tile) (r : Rec) : Steady (copyWork s d t r) := by
  unfold copyWork
  extract_lets ss ds da tag steps
  clear_value ss ds da tag steps
  refine steady_mk fun i s₁ => ?_
  generalize copyParts r i = ps
  revert ps
  refine id fun ps => ?_
  dsimp only
  have hr := readParts_keeps d t ss tag (ps.map (fun p => (p.1 - (ps.head?.map (fun p => p.1)).getD 0, p.2.1, p.2.2))) s₁
  generalize readParts d t ss tag _ s₁ = x at hr ⊢
  obtain ⟨s1, bad | ws⟩ := x
  · exact hr
  · dsimp only at hr ⊢
    refine andThen_keeps (ite_keeps hr (hr.trans (writePiece_keeps _ _ _ _ _ _ _))) (fun s => ?_)
    split
    · exact sameContexts_setTag _ _ _ _
    · exact .refl s

theorem fillWork_steady (s : State) (d : Domain) (t : Tile) (r : Rec) : Steady (fillWork s d t r) :=
  fun _ => writePiece_keeps _ _ _ _ _ _

theorem copybWork_steady (s : State) (d : Domain) (t : Tile) (r : Rec) : Steady (copybWork s d t r) := by
  unfold copybWork
  extract_lets ss sa rb o0 g tagOf
  clear_value ss sa rb o0 g tagOf
  intro i s₁
  dsimp only
  generalize hx : readGranule d t ss _ 2 _ _ s₁ = x
  have hr : SameContexts s₁ x.1 := hx ▸ readGranule_keeps d t ss _ 2 _ _ s₁
  clear hx
  split
  · exact hr
  · exact andThen_keeps (hr.trans (storeStep_keeps _ _ _ _)) (fun _ => .ite (sameContexts_setSliceTag _ _ _ _) (.refl _))

end Sys2Proof.Translation
end

section
/-!
SUPPORT. A record of the ME, the GU or the CE goes on step by step (13 R343, R345; 03 R77, R81). The proof that settles O37.
-/

namespace Sys2Proof.Translation

open Sys2Proof Sys2Proof.Machine Sys2Proof.Laws Sys2Proof.Access

variable {s s' : State} {d d₁ : Domain} {t t₁ : Tile} {r : Rec} {k : Nat} {w : State → Domain → Tile → Rec → Work}
  {holds : State → Domain → Tile → Rec → Option (Nat × List Byte)}

/-! ## What runRecord does, in three moves -/

/-- The engine has the record: it takes it from its queue before the first step (13 R343). -/
def begun (s : State) (d : Domain) (t : Tile) (r : Rec) : State :=
  if (t.engine r.eng).run.isSome then s else s.updDom d.seq (fun e => e.takeRec t.lt r)

/-- The step stops, to be tried again, or ends the payload (13 R345, 03 R81). -/
def stageOf (d : Domain) (steps i : Nat) : Option Bad → RecStage
  | none => Claims.stageAfter steps i
  | some b => if d.relaxed = true ∧ b.1 = 7 then .queued else .written

/-- The record after a step. -/
def stepped (d : Domain) (r : Rec) (steps : Nat) (held : Option (Nat × List Byte)) (fl : Flg) (bad : Option Bad) : Rec :=
  { r with
    stage := stageOf d steps r.progress bad
    flags := r.flags ||| fl
    fault := bad
    progress := if bad.isSome then r.progress else r.progress + 1
    held := if bad.isSome then r.held else held }

/-- A lease fault is raised with the step (03 R77). -/
def reported (c : Nat → Cause) (bad : Option Bad) (e : Domain) : Domain :=
  match bad with
  | some (17, x, a) => e.raise (c x) a
  | _ => e

/-- The stage that runRecord gives. -/
theorem stage_eq (d : Domain) (steps i : Nat) (bad : Option Bad) :
    (if !(d.relaxed && (match bad with
        | some b => b.1 == cTranslation
        | none => false)) && (bad.isSome || decide (steps ≤ i + 1)) then RecStage.written else .queued) = stageOf d steps i bad := by
  cases bad with
  | none => simp [stageOf, Claims.stageAfter]
  | some b => cases hd : d.relaxed <;> simp [stageOf, hd, cTranslation]

theorem runRecord_eq (h : Claims.Heads s d t r k) : runRecord s k w holds =
    let s₁ := begun s d t r
    let x := (w s₁ d t r).run r.progress s₁
    .next (x.1.updDom d.seq (fun e => reported (fun i => ⟨d.dtick, t.lt, 4 + engIdx r.eng, cLease, i⟩) x.2.2
      (e.setRec t.lt (stepped d r (w s₁ d t r).steps (holds s₁ d t r) x.2.1 x.2.2)))) := by
  obtain ⟨⟨hd, ht⟩, -, -, hr, -, hk, -, -⟩ := h
  have hk' : (r.kindCode != k) = false := bne_eq_false_iff_eq.2 hk
  unfold runRecord onRec
  simp only [hd, ht, hr, hk', Bool.false_eq_true, if_false]
  unfold stepped
  simp only [← stage_eq]
  rfl

/-! ## The record and its engine -/

/-- An engine's record stands in its tile, and one that it runs is that. -/
theorem current_stands {g : Engine} (h : t.current g = some r) :
    r ∈ t.recs ∧ ∀ i, (t.engine g).run = some i → i = r.id := by
  have found : ∀ {i}, t.rec? i = some r → r ∈ t.recs ∧ r.id = i := fun hi =>
    ⟨List.mem_of_find?_eq_some hi, by simpa using List.find?_some hi⟩
  unfold Tile.current at h
  dsimp only at h
  split at h
  · next i hi => exact ⟨(found h).1, fun j hj => by rw [(found h).2]; exact Option.some.inj (hj.symm.trans hi)⟩
  · next hi =>
    refine ⟨?_, fun j hj => absurd (hi.symm.trans hj) (by simp)⟩
    split at h
    · exact (found h).1
    · cases h

theorem engIdx_lt (g : Engine) : engIdx g < 4 := by cases g <;> decide

theorem takeRec_tile? {lt : Nat} (hlt : t.lt = lt) (h : d.tile? lt = some t) : (d.takeRec t.lt r).tile? lt = some { t with
    engines := upd t.engines (engIdx r.eng) (fun q =>
      { q with entries := q.entries.filter (fun e => e != .record r.id), run := some r.id, lastDeq := some d.dtick }) } := by
  unfold Domain.takeRec
  rw [tile?_updTile, if_pos hlt, h]
  rfl

/-- The tile runs the record, and is as before but for its engines. -/
structure Running (t : Tile) (r : Rec) (u : Tile) : Prop where
  same : { u with engines := t.engines, recs := t.recs } = t
  recs : u.recs = t.recs
  run : (u.engines.getD (engIdx r.eng) ⟨[], none, none⟩).run = some r.id

theorem begun_at (h : Claims.Heads s d t r k) : ∃ d₁ u, (begun s d t r).At d₁ u ∧ d₁.causes = d.causes ∧ Running t r u ∧
    (begun s d t r).cur = s.cur := by
  obtain ⟨hat, hlt, hlen, hr, he, -, -, -⟩ := h
  unfold begun
  split
  · next hrun =>
    obtain ⟨i, hi⟩ := Option.isSome_iff_exists.1 hrun
    rw [← he] at hr
    exact ⟨d, t, hat, rfl, ⟨rfl, rfl, hi.trans (congrArg some ((current_stands hr).2 i hi))⟩, rfl⟩
  · rw [At.seq hat]
    refine ⟨_, _, at_updDom (f := fun e => e.takeRec t.lt r) hat (fun _ => rfl) (takeRec_tile? hlt hat.2), rfl, ⟨rfl, rfl, ?_⟩, rfl⟩
    dsimp only
    rw [upd_getD_same _ _ _ _ (hlen ▸ engIdx_lt _)]

theorem setRec_tile? {lt : Nat} (h : d.tile? lt = some t) (r' : Rec) :
    (d.setRec lt r').tile? lt = some { t with recs := t.recs.map (fun x => if x.id = r'.id then r' else x) } := by
  unfold Domain.setRec
  rw [tile?_updTile, if_pos rfl, h]
  rfl

/-- No lease fault has an address for FADDR (15 R386): the report leaves the tile as it is. -/
theorem reported_tile? {c : Nat → Cause} (hc : ∀ i, (c i).code = cLease ∧ (c i).lt = t.lt) (bad : Option Bad)
    (h : d.tile? t.lt = some t₁) : (reported c bad d).tile? t.lt = some t₁ := by
  unfold reported
  split
  · next x a =>
    obtain ⟨hcode, hlt⟩ := hc x
    have hr := tile?_raise (t := t₁) d (c x) a (hlt ▸ h)
    rw [marked_other (by rw [hcode]; rfl), hlt] at hr
    exact hr
  · exact h

theorem reported_seq (c : Nat → Cause) (bad : Option Bad) (d : Domain) : (reported c bad d).seq = d.seq := by
  unfold reported
  split
  · exact (sameOrder_raise _ _ _).seq
  · rfl

theorem reported_causes (c : Nat → Cause) (bad : Option Bad) (d : Domain) :
    (reported c bad d).causes = d.causes ++ (match bad with
      | some (17, x, _) => [c x]
      | _ => []) := by
  unfold reported
  split
  · exact raise_causes _ _ _
  · exact (List.append_nil _).symm

/-! ## The run -/

/-- Once its engine has the record, a step that keeps the contexts runs it. -/
theorem stepped_ran {u : Tile} {steps : Nat} {held : Option (Nat × List Byte)} {s₂ : State} {fl : Flg} {bad : Option Bad}
    (hr : r ∈ t.recs) (hat : s₂.At d₁ u) (hlt : t.lt = s₂.cur.lt) (hcauses : d₁.causes = d.causes) (hu : Running t r u) :
    Claims.RanWith (if bad.isSome then r.held else held)
      (s₂.updDom s₂.cur.dom (fun e => reported (fun i => ⟨d.dtick, t.lt, 4 + engIdx r.eng, cLease, i⟩) bad
        (e.setRec t.lt (stepped d r steps held fl bad)))) d t r (stageOf d steps r.progress bad)
      (if bad.isSome then r.progress else r.progress + 1) fl bad := by
  have hplace := reported_tile? (c := fun i => ⟨d.dtick, t.lt, 4 + engIdx r.eng, cLease, i⟩) (fun _ => ⟨rfl, rfl⟩) bad
    (setRec_tile? (hlt ▸ hat.2) (stepped d r steps held fl bad))
  rw [hlt] at hplace ⊢
  have hat' := at_updDom (f := fun e => reported (fun i => ⟨d.dtick, s₂.cur.lt, 4 + engIdx r.eng, cLease, i⟩) bad
    (e.setRec s₂.cur.lt (stepped d r steps held fl bad))) hat (fun e => reported_seq _ _ _) hplace
  refine ⟨_, _, hat', hu.same, ?_, ?_, hu.run⟩
  · rw [reported_causes, ← hlt]
    exact congrArg₂ (· ++ ·) hcauses rfl
  · rw [hu.recs]
    exact List.mem_map.2 ⟨r, hr, if_pos rfl⟩

/-- A word that runs records of a kind takes a step of its work, or meets its fault. -/
theorem runs {q : Instr} (hq : exec q s = runRecord s k w holds) (hw : ∀ s, Steady (w s d t r))
    (hsteps : ∀ s', (w s' d t r).steps = (w s d t r).steps) (h : Claims.Heads s d t r k) : Completes (exec q s) (fun s' => ∃ fl held,
      Claims.RanWith held s' d t r (Claims.stageAfter (w s d t r).steps r.progress) (r.progress + 1) fl none ∨
      ∃ b : Bad, Claims.Ran s' d t r (if d.relaxed = true ∧ b.1 = 7 then .queued else .written) r.progress fl (some b)) := by
  rw [hq, runRecord_eq h]
  simp only [hsteps]
  obtain ⟨d₁, u, hat, hcauses, hu, hcur⟩ := begun_at h
  obtain ⟨h0, hlt, -, hcurrent, -, -, -, -⟩ := h
  have hr := (current_stands hcurrent).1
  have hk := hw (begun s d t r) r.progress (begun s d t r)
  generalize (w (begun s d t r) d t r).run r.progress (begun s d t r) = x at hk ⊢
  generalize begun s d t r = s₁ at *
  rw [At.seq h0, ← hcur, ← hk.cur]
  rw [← hcur, ← hk.cur] at hlt
  obtain ⟨s₂, fl, _ | b⟩ := x
  · exact ⟨_, rfl, fl, _, .inl (stepped_ran hr (hk.at_ hat) hlt hcauses hu)⟩
  · exact ⟨_, rfl, fl, none, .inr ⟨b, stepped_ran hr (hk.at_ hat) hlt hcauses hu⟩⟩

/-! ## What each record's word is -/

theorem mma_eq (s : State) : exec .mma s = runRecord s kMma mmaWork := rfl
theorem mms_eq (s : State) : exec .mms s = runRecord s kMms mmsWork := rfl
theorem mzero_eq (s : State) : exec .mzero s = runRecord s kMzero mzeroWork := rfl
theorem acopy_eq (s : State) : exec .acopy s = runRecord s kAcopy acopyWork := rfl
theorem mload_eq (s : State) : exec .mload s = runRecord s kMload mloadWork := rfl
theorem gather_eq (s : State) : exec .gather s = runRecord s kGather gatherWork := rfl
theorem copy_eq (s : State) : exec .copy s = runRecord s kCopy copyWork copyHolds := rfl
theorem fill_eq (s : State) : exec .fill s = runRecord s kFill fillWork := rfl
theorem copyb_eq (s : State) : exec .copyb s = runRecord s kCopyb copybWork copybHolds := rfl

/-- Settles O37: the engine has the record, a step keeps the contexts whatever the body holds, and the number of steps is the
record's own. -/
theorem engineRecordsRun : Obligations.EngineRecordsRun := by
  unfold Obligations.EngineRecordsRun
  intro s d t r
  simp only [List.forall_mem_cons, List.not_mem_nil, false_imp_iff, implies_true, and_true]
  exact ⟨runs (mma_eq s) (fun _ => mmaWork_steady _ _ _ _) (fun _ => rfl),
    runs (mms_eq s) (fun _ => mmsWork_steady _ _ _ _) (fun _ => rfl),
    runs (mzero_eq s) (fun _ => mzeroWork_steady _ _ _ _) (fun _ => rfl),
    runs (acopy_eq s) (fun _ => acopyWork_steady _ _ _ _) (fun _ => rfl),
    runs (mload_eq s) (fun _ => mloadWork_steady _ _ _ _) (fun _ => rfl),
    runs (gather_eq s) (fun _ => gatherWork_steady _ _ _ _) (fun _ => rfl),
    runs (copy_eq s) (fun _ => copyWork_steady _ _ _ _) (fun _ => rfl),
    runs (fill_eq s) (fun _ => fillWork_steady _ _ _ _) (fun _ => rfl),
    runs (copyb_eq s) (fun _ => copybWork_steady _ _ _ _) (fun _ => rfl)⟩

end Sys2Proof.Translation
end

section
/-!
SUPPORT. What acknowledging records and the check of a column access leave of a tile (06 R156, R157), and which records a read of an
arrival word acknowledges (06 R147).
-/

namespace Sys2Proof.Waits

open Sys2Proof Sys2Proof.Machine Sys2Proof.Laws Sys2Proof.Access

variable {s : State} {d d' d'' : Domain} {t t' u : Tile} {lt now : Nat} {r : Rec}

/-! ## The check of an access -/

theorem suppressed_of_none {now : Nat} (hu : ∀ f ∈ u.flights, f.issue = now → f.col ≠ .ls) : suppressed u now = u := by
  have hmap : u.flights.map (fun f => if f.issue = now ∧ f.col = .ls ∧ f.cause = 0 then { f with cause := cFootprint } else f) =
      u.flights :=
    (List.map_congr_left (g := id) (fun f hf => if_neg (fun h => hu f hf h.1 h.2.1))).trans (List.map_id _)
  unfold suppressed
  rw [hmap]

/-- An access of a word without a result of the tick leaves the tile as it is, whatever its check finds. -/
theorem columnRaces_tile? {e : Ev} (ht : d.tile? e.lt = some u) (hu : ∀ f ∈ u.flights, f.issue = d.dtick → f.col ≠ .ls)
    (shares : List (Nat × (Nat × Nat))) : (d.columnRaces e shares).tile? e.lt = some u := by
  have hfault : ∀ {x : Domain} (n : Nat), x.dtick = d.dtick → x.tile? e.lt = some u → (x.raceFault e n).tile? e.lt = some u := by
    intro x n hx hxu
    rw [raceFault_tile? x e n hxu, hx, suppressed_of_none hu]
  have hchecked : (raceChecked d e shares).tile? e.lt = some u := by
    unfold raceChecked
    split
    · exact hfault 2 rfl ht
    · exact ht
  obtain ⟨l, hl, -⟩ := columnRaces_eq d e shares
  rw [hl]
  show (issueChecked d e shares).tile? e.lt = some u
  unfold issueChecked
  split
  · exact hfault 4 (raceChecked_order d e shares).dtick hchecked
  · exact hchecked

theorem columnRaces_evs (d : Domain) (e : Ev) (shares : List (Nat × (Nat × Nat))) : (d.columnRaces e shares).evs = d.evs := by
  obtain ⟨l, hl, -⟩ := columnRaces_eq d e shares
  rw [hl]
  exact (issueChecked_order d e shares).evs

/-! ## Acknowledgement -/

/-- A tile whose records have only been acknowledged: its scalars, queue, windows and results are as before. -/
structure Closed (u u' : Tile) : Prop where
  s : u'.s = u.s
  sqQ : u'.sqQ = u.sqQ
  wins : u'.wins = u.wins
  flights : u'.flights = u.flights
  recs : ∀ r ∈ u.recs, ∃ r' ∈ u'.recs, r'.id = r.id ∧ (r.ack.isSome → r'.ack.isSome)

theorem Closed.refl (u : Tile) : Closed u u := ⟨rfl, rfl, rfl, rfl, fun r hr => ⟨r, hr, rfl, id⟩⟩

theorem Closed.trans (h : Closed t u) (k : Closed u t') : Closed t t' := by
  refine ⟨k.s.trans h.s, k.sqQ.trans h.sqQ, k.wins.trans h.wins, k.flights.trans h.flights, fun r hr => ?_⟩
  obtain ⟨r', hr', hid, hack⟩ := h.recs r hr
  obtain ⟨r'', hr'', hid', hack'⟩ := k.recs r' hr'
  exact ⟨r'', hr'', hid'.trans hid, hack' ∘ hack⟩

/-- A domain whose tile lt holds u, of which nothing but acknowledgements has changed: it holds u'. -/
structure Acked (d : Domain) (lt : Nat) (u : Tile) (d' : Domain) (u' : Tile) : Prop where
  seq : d'.seq = d.seq
  evs : d'.evs = d.evs
  nextId : d'.nextId = d.nextId
  dtick : d'.dtick = d.dtick
  tile : d'.tile? lt = some u'
  closed : Closed u u'

theorem Acked.refl (h : d.tile? lt = some u) : Acked d lt u d u := ⟨rfl, rfl, rfl, rfl, h, .refl u⟩

theorem Acked.trans (h : Acked d lt t d' u) (k : Acked d' lt u d'' t') : Acked d lt t d'' t' :=
  ⟨k.seq.trans h.seq, k.evs.trans h.evs, k.nextId.trans h.nextId, k.dtick.trans h.dtick, k.tile, h.closed.trans k.closed⟩

/-- As Acked, and no record has changed. -/
def Kept (d : Domain) (lt : Nat) (u : Tile) (d' : Domain) : Prop := ∃ u', Acked d lt u d' u' ∧ u'.recs = u.recs

theorem Kept.refl (h : d.tile? lt = some u) : Kept d lt u d := ⟨u, .refl h, rfl⟩

/-- A cause of the tile changes at most the address that it keeps. -/
theorem Kept.raise (h : Kept d lt u d') {c : Cause} (hc : c.lt = lt) (a : W64) : Kept d lt u (d'.raise c a) := by
  subst hc
  obtain ⟨u', hacked, hrecs⟩ := h
  have ho := sameOrder_raise d' c a
  have hsame : Closed u' (marked d' c a u') ∧ (marked d' c a u').recs = u'.recs := by
    unfold marked
    split
    · exact ⟨⟨rfl, rfl, rfl, rfl, fun r hr => ⟨r, hr, rfl, id⟩⟩, rfl⟩
    · exact ⟨.refl u', rfl⟩
  exact ⟨_, hacked.trans ⟨ho.seq, ho.evs, ho.nextId, ho.dtick, tile?_raise d' c a hacked.tile, hsame.1⟩, hsame.2.trans hrecs⟩

theorem Kept.ite {x y : Domain} {c : Prop} [Decidable c] (hx : Kept d lt u x) (hy : Kept d lt u y) : Kept d lt u (if c then x else y) := by
  split
  · exact hx
  · exact hy

/-- The tile with a record acknowledged, its flags and conflicts entered. -/
def acknowledged (u : Tile) (r : Rec) (now : Nat) (trap : BitVec 9) : Tile := { u with
  recs := u.recs.map (fun x => if x.id = r.id then { x with ack := some (r.ack.getD now), told := true } else x)
  flags := u.flags ||| r.flags
  confl := BitVec.ofNat 32 (min 0xFFFFFFFF (u.confl.toNat + r.conflicts))
  laneflg := if trap = 0 then u.laneflg else (trap.setWidth 64 <<< 32) ||| 1 }

theorem closed_acknowledged (u : Tile) (r : Rec) (now : Nat) (trap : BitVec 9) : Closed u (acknowledged u r now trap) := by
  refine ⟨rfl, rfl, rfl, rfl, fun x hx => ⟨_, List.mem_map_of_mem hx, ?_⟩⟩
  split
  · exact ⟨rfl, fun _ => rfl⟩
  · exact ⟨rfl, id⟩

theorem acknowledged_acks {u : Tile} {r x : Rec} (hx : x ∈ u.recs) (hid : x.id = r.id) (now : Nat) (trap : BitVec 9) :
    ∃ y ∈ (acknowledged u r now trap).recs, y.id = r.id ∧ y.ack.isSome :=
  ⟨_, List.mem_map_of_mem hx, by rw [if_pos hid]; exact ⟨hid, rfl⟩⟩

/-- A record not yet told is acknowledged in its tile; its causes follow. -/
theorem ackRec_untold (h : d.tile? lt = some u) (ht : r.told = false) (now : Nat) : ∃ trap,
    Kept (d.updTile lt (fun u => acknowledged u r now trap)) lt (acknowledged u r now trap) (d.ackRec lt r now) := by
  refine ⟨u.trapen &&& r.flags, ?_⟩
  have hfirst := Kept.refl (show (d.updTile lt (fun u' => acknowledged u' r now (u.trapen &&& r.flags))).tile? lt = some _ by
    rw [tile?_updTile, if_pos rfl, h, Option.map_some])
  rw [Domain.ackRec, if_neg (by rw [ht]; exact Bool.false_ne_true), h]
  dsimp only
  split
  · exact .ite hfirst (hfirst.raise rfl 0)
  · exact Kept.raise (.ite hfirst (hfirst.raise rfl 0)) rfl _
  · exact .ite hfirst (hfirst.raise rfl 0)

theorem ackRec_acked (h : d.tile? lt = some u) (r : Rec) (now : Nat) : ∃ u', Acked d lt u (d.ackRec lt r now) u' ∧
    (r.told = false → (∃ x ∈ u.recs, x.id = r.id) → ∃ x ∈ u'.recs, x.id = r.id ∧ x.ack.isSome) := by
  cases ht : r.told with
  | true =>
    rw [Domain.ackRec, if_pos ht]
    exact ⟨u, .refl h, nofun⟩
  | false =>
    obtain ⟨trap, u', hacked, hrecs⟩ := ackRec_untold h ht now
    have hfirst : Acked d lt u (d.updTile lt (fun u => acknowledged u r now trap)) (acknowledged u r now trap) :=
      ⟨rfl, rfl, rfl, rfl, by rw [tile?_updTile, if_pos rfl, h]; rfl, closed_acknowledged u r now trap⟩
    refine ⟨u', hfirst.trans hacked, fun _ ⟨x, hx, hid⟩ => ?_⟩
    rw [hrecs]
    exact acknowledged_acks hx hid now trap

/-- Records acknowledged in turn: each that has not been told before stands acknowledged. -/
theorem ackAll_acked (now : Nat) (l : List Rec) : ∀ {d : Domain} {u : Tile}, d.tile? lt = some u → ∃ u',
    Acked d lt u (l.foldl (fun d r => d.ackRec lt r now) d) u' ∧
    ∀ r ∈ l, r.told = false → (∃ x ∈ u.recs, x.id = r.id) → ∃ x ∈ u'.recs, x.id = r.id ∧ x.ack.isSome := by
  induction l with
  | nil => exact fun h => ⟨_, .refl h, fun _ hr => absurd hr List.not_mem_nil⟩
  | cons q l ih =>
    intro d u h
    obtain ⟨v, hv, hone⟩ := ackRec_acked h q now
    obtain ⟨w, hw, hrest⟩ := ih hv.tile
    refine ⟨w, hv.trans hw, fun r hr htold ⟨x, hx, hid⟩ => ?_⟩
    rcases List.mem_cons.1 hr with rfl | hr
    · obtain ⟨y, hy, hyid, hyack⟩ := hone htold ⟨x, hx, hid⟩
      obtain ⟨z, hz, hzid, hzack⟩ := hw.closed.recs y hy
      exact ⟨z, hz, hzid.trans hyid, hzack hyack⟩
    · obtain ⟨y, hy, hyid, -⟩ := hv.closed.recs x hx
      exact hrest r hr htold ⟨y, hy, hyid.trans hid⟩

/-- The records named are among those acknowledged with them. -/
theorem mem_ackSet (u : Tile) (now : Nat) {i : Nat} : ∀ (fuel : Nat) {ids : List Nat}, i ∈ ids → i ∈ u.ackSet now fuel ids
  | 0, _, h => h
  | fuel + 1, ids, h => by
    rw [Tile.ackSet]
    split
    · exact h
    · exact mem_ackSet u now fuel (List.mem_append_left _ h)

/-- The records that `ackWhere` acknowledges: those that satisfy p, and those they waited for. -/
def closing (u : Tile) (p : Rec → Bool) (now : Nat) : List Rec :=
  u.recs.filter (fun r => (u.ackSet now u.recs.length ((u.recs.filter p).map (fun r => r.ev))).contains r.ev)

theorem mem_closing {p : Rec → Bool} (hr : r ∈ u.recs) (hp : p r = true) (now : Nat) : r ∈ closing u p now :=
  List.mem_filter.2 ⟨hr, List.contains_iff_mem.2 (mem_ackSet u now _ (List.mem_map.2 ⟨r, List.mem_filter.2 ⟨hr, hp⟩, rfl⟩))⟩

theorem ackWhere_eq (h : d.tile? lt = some u) (p : Rec → Bool) (now : Nat) :
    d.ackWhere lt p now = (closing u p now).foldl (fun d r => d.ackRec lt r now) d := by
  rw [Domain.ackWhere, h]
  rfl

theorem ackWhere_acked (h : d.tile? lt = some u) (p : Rec → Bool) (now : Nat) : ∃ u', Acked d lt u (d.ackWhere lt p now) u' ∧
    ∀ r ∈ u.recs, p r = true → r.told = false → ∃ x ∈ u'.recs, x.id = r.id ∧ x.ack.isSome := by
  rw [ackWhere_eq h]
  obtain ⟨u', hacked, hall⟩ := ackAll_acked now (closing u p now) h
  exact ⟨u', hacked, fun r hr hp ht => hall r (mem_closing hr hp now) ht ⟨r, hr, rfl⟩⟩

theorem ackWhere_seq (d : Domain) (lt : Nat) (p : Rec → Bool) (now : Nat) : (d.ackWhere lt p now).seq = d.seq := by
  cases h : d.tile? lt with
  | none => rw [Domain.ackWhere, h]
  | some u =>
    obtain ⟨u', hacked, -⟩ := ackWhere_acked h p now
    exact hacked.seq

end Sys2Proof.Waits
end

section
/-!
SUPPORT. A WAITW whose condition is met reads its word, acknowledges the records whose arrival value it reads, and comes after them;
where its address or its word fails, it raises the fault of a store (04 R103, 06 R147, R156, 02 R52, R60, 18 R434).
-/

namespace Sys2Proof.Waits

open Sys2Proof Sys2Proof.Machine Sys2Proof.Laws Sys2Proof.Access

variable {s : State} {d : Domain} {t : Tile} {g c : BitVec 4} {v b : SSpec} {e : WaitCond} {k loc : Nat}

/-! ## The number that bytes make -/

theorem number_succ (s : State) (a n : Nat) : Claims.number s a (n + 1) = (s.readByte a).toNat + 256 * Claims.number s (a + 1) n := by
  have hscale (l : List Nat) : (l.map (fun k => (s.readByte (a + (k + 1))).toNat * 256 ^ (k + 1))).sum =
      256 * (l.map (fun k => (s.readByte (a + 1 + k)).toNat * 256 ^ k)).sum := by
    induction l with
    | nil => rfl
    | cons k l ih =>
      rw [List.map_cons, List.sum_cons, List.map_cons, List.sum_cons, ih, Nat.mul_add, show a + (k + 1) = a + 1 + k by omega]
      ring
  unfold Claims.number
  rw [List.range_succ_eq_map, List.map_cons, List.sum_cons, List.map_map, ← hscale]
  simp [Function.comp_def]

/-- What the model reads from some bytes is their little-endian number (00 R10). -/
theorem readLE_eq_number (s : State) (n : Nat) : ∀ a : Nat, s.readLE a n = Claims.number s a n := by
  induction n with
  | zero => exact fun _ => rfl
  | succ n ih => exact fun a => by rw [number_succ, ← ih]; rfl

/-! ## The records that the word acknowledges -/

theorem rangesMeet_self (a : Nat) {n : Nat} (hn : 0 < n) : rangesMeet [(a, n)] [(a, n)] = true := by
  simp [rangesMeet, rangeMeets, hn]

/-- A record whose arrival value stands in the word is one of those that the wait acknowledges. -/
theorem mem_arrivedIn {r : Rec} (hr : r ∈ t.recs) (hst : r.stage = .complete) (hv : r.arrivalValue = Claims.number s loc 4)
    (hy : ∃ y ∈ d.evs, y.kind = .arrival r.ev ∧ y.writes = [(loc, 4)]) : r ∈ d.arrivedIn s t [(loc, 4)] := by
  obtain ⟨y, hy, hkind, hwrites⟩ := hy
  refine List.mem_filter.2 ⟨hr, Bool.and_eq_true_iff.2 ⟨beq_iff_eq.2 hst, List.any_eq_true.2 ⟨y, hy, ?_⟩⟩⟩
  rw [hkind, hwrites]
  simp [rangesMeet_self, readLE_eq_number, hv]

/-! ## The word -/

/-- The event of the read: behind the records whose arrival values it reads (06 R147). -/
def wordRead (s : State) (d : Domain) (t : Tile) (c : BitVec 4) (loc : Nat) : Ev := { newEv d t .ls .access with
  cls := some c, spaces := spK, reads := [(loc, 4)], after := d.withArrival ((d.arrivedIn s t [(loc, 4)]).map (fun r => r.ev)) }

/-- The domain once the read stands. -/
def afterWordRead (s : State) (d : Domain) (t : Tile) (c : BitVec 4) (loc : Nat) (x : Domain) : Domain :=
  ((x.ackWhere t.lt (fun r => (d.arrivedIn s t [(loc, 4)]).any (fun q => q.id == r.id)) d.dtick).addEv (wordRead s d t c loc)).columnRaces
    (wordRead s d t c loc) (shareRanges s d)

theorem execWaitw_error (h : s.At d t) {bad : Bad} (he : bankAt t (t.sval b) 4 = .error bad) :
    exec (.waitw g c v b e) s = .next (s.raise 3 bad.1 bad.2.1 bad.2.2) := by
  show execWaitw c v b e s = _
  rw [execWaitw, onDom_at h, he]
  rfl

theorem execWaitw_flawed (h : s.At d t) (hb : Claims.bankLegal t (t.sval b) 4 k)
    (hs : s.sound [(Claims.bankPlace t (t.sval b) k, 4)] = false) : exec (.waitw g c v b e) s =
      .next ((s.countFlaws [(Claims.bankPlace t (t.sval b) k, 4)]).raise 3 6 0 (t.sval b)) := by
  show execWaitw c v b e s = _
  rw [execWaitw, onDom_at h, bankAt_legal hb]
  exact congrArg _ (if_pos (by rw [Claims.bankPlace] at hs; rw [hs]; rfl))

theorem execWaitw_sound (h : s.At d t) (hb : Claims.bankLegal t (t.sval b) 4 k)
    (hs : s.sound [(Claims.bankPlace t (t.sval b) k, 4)] = true) : exec (.waitw g c v b e) s =
      .next (s.updDom s.cur.dom (afterWordRead s d t c (Claims.bankPlace t (t.sval b) k))) := by
  show execWaitw c v b e s = _
  rw [execWaitw, onDom_at h, bankAt_legal hb, ← At.seq h]
  exact congrArg _ (if_neg (by rw [Claims.bankPlace] at hs; rw [hs]; exact Bool.false_ne_true))

theorem waitw_reads (h : s.At d t) (hlt : t.lt = s.cur.lt) (hl : ∀ f ∈ t.flights, f.issue = d.dtick → f.col ≠ .ls)
    (hb : Claims.bankLegal t (t.sval b) 4 k) (hs : s.sound [(Claims.bankPlace t (t.sval b) k, 4)] = true) :
    let loc := Claims.bankPlace t (t.sval b) k
    Completes (exec (.waitw g c v b e) s) (fun s' => s'.mem = s.mem ∧
      ∃ d' t' x, s'.At d' t' ∧ t'.s = t.s ∧ t'.sqQ = t.sqQ ∧ t'.wins = t.wins ∧ t'.flights = t.flights ∧
        d'.evs = d.evs ++ [x] ∧ x.cls = some c ∧ x.reads = [(loc, 4)] ∧ x.writes = [] ∧
        (∀ r ∈ t.recs, r.stage = .complete → r.arrivalValue = Claims.number s loc 4 → r.told = false →
          (∃ y ∈ d.evs, y.kind = .arrival r.ev ∧ y.writes = [(loc, 4)]) →
          r.ev ∈ x.after ∧ ∃ r' ∈ t'.recs, r'.id = r.id ∧ r'.ack.isSome)) := by
  intro loc
  have hplace : d.tile? t.lt = some t := hlt ▸ h.2
  obtain ⟨u, hacked, hacks⟩ := ackWhere_acked hplace (fun r => (d.arrivedIn s t [(loc, 4)]).any (fun q => q.id == r.id)) d.dtick
  have htile : (afterWordRead s d t c loc d).tile? t.lt = some u := by
    unfold afterWordRead
    refine columnRaces_tile? (e := wordRead s d t c loc) ?_ (fun f hf hi => ?_) _
    · exact hacked.tile
    · rw [hacked.closed.flights] at hf
      exact hl f hf (hi.trans hacked.dtick)
  have hseq : ∀ x, (afterWordRead s d t c loc x).seq = x.seq := fun x => (columnRaces_seq _ _ _).trans (ackWhere_seq _ _ _ _)
  have hevs : (afterWordRead s d t c loc d).evs = d.evs ++ [_] :=
    (columnRaces_evs _ _ _).trans (congrArg (· ++ _) hacked.evs)
  refine ⟨_, execWaitw_sound h hb hs, rfl, _, u, _, at_updDom h hseq (hlt ▸ htile), hacked.closed.s, hacked.closed.sqQ,
    hacked.closed.wins, hacked.closed.flights, hevs, rfl, rfl, rfl, fun r hr hst hv htold hy => ?_⟩
  have hmem := mem_arrivedIn hr hst hv hy
  exact ⟨List.mem_append_left _ (List.mem_map.2 ⟨r, hmem, rfl⟩),
    hacks r hr (List.any_eq_true.2 ⟨r, hmem, beq_self_eq_true _⟩) htold⟩

end Sys2Proof.Waits
end

section
/-!
SUPPORT. A WAITG whose condition is met reads its word by its page, or raises the fault of its address, its lease or its walk
(03 R62, R71, R76, R77, R81, R84, 13 R336). The proof that settles O35.
-/

namespace Sys2Proof.Waits

open Sys2Proof Sys2Proof.Machine Sys2Proof.Laws Sys2Proof.Access Sys2Proof.Translation

variable {s s' s₁ : State} {d : Domain} {t : Tile} {g c : BitVec 4} {v b : SSpec} {e : WaitCond} {p : Place} {va : W64}

/-! ## The use of a page -/

/-- The station that serves the address holds its page (03 R62). -/
theorem residentAt_iff (s : State) (key : Nat) (va : W64) :
    residentAt s.tlbs key va = (tlbFind (s.die (va.toNat / 2 ^ 61)).tlb key (va.toNat % 2 ^ 48)).isSome := by
  have hdie : s.tlbs.getD (ownerOf va) [] = (s.die (ownerOf va)).tlb := by
    unfold State.tlbs State.die
    exact List.getD_map (d := Die.reset) ..
  rw [residentAt, hdie, ownerOf_eq, lowAddr_eq]

/-- A page of an HBM has the leaf of its walk; one of a host window or a peer has none. -/
theorem resolve_leaf {key m : Nat} {mode : WalkMode} {wr : Bool} (h : resolve s key m mode wr va = .ok p) :
    (ownerOf va < 4 ∧ ∃ l e base n, walk s (ownerOf va) key (lowAddr va) mode = .ok l e base n ∧ p.leafLoc = some l) ∨
      (¬ownerOf va < 4 ∧ p.leafLoc = none) := by
  unfold resolve at h
  dsimp only at h
  split at h
  · cases h
  split at h
  · next ho =>
    split at h
    · next l e base n hw =>
      split at h
      · cases h
      · cases h
        exact .inl ⟨ho, l, e, base, n, hw, rfl⟩
    · cases h
  next ho =>
  refine .inr ⟨ho, ?_⟩
  split at h
  · split at h
    · split at h
      · cases h
      · cases h
        rfl
    · cases h
  · split at h
    · cases h
      rfl
    · cases h

theorem readByte_writeByte (hm : s.memOk) (a : Nat) (y : Byte) (x : Nat) :
    (s.writeByte a y).readByte x = if x = a then y else s.readByte x := by
  split
  · next hx => rw [hx]; exact readCells_writeCells_same a y hm
  · next hx => exact readCells_writeCells_other y hx

theorem install_mem (s : State) (key : Nat) (va : W64) (l : Nat) (e : W64) (base n : Nat) : (s.install key va l e base n).mem = s.mem := by
  unfold State.install
  split <;> rfl

theorem useRead_parts (s : State) (d : Domain) (va : W64) : (s.useRead d va).parts = s.parts := by
  unfold State.useRead
  split
  · rfl
  · split
    · unfold State.install
      split <;> rfl
    · rfl

/-- The use sets A in the leaf of a page that its station does not hold, and changes no other byte. -/
theorem readByte_useRead (hm : s.memOk) {m : Nat} (h : resolve s d.part m d.walkMode false va = .ok p) (x : Nat) :
    (s.useRead d va).readByte x =
      if some x = p.leafLoc ∧ tlbFind (s.die (va.toNat / 2 ^ 61)).tlb d.part (va.toNat % 2 ^ 48) = none then s.readByte x ||| 0x40
      else s.readByte x := by
  unfold State.useRead
  rw [residentAt_iff]
  cases hf : tlbFind (s.die (va.toNat / 2 ^ 61)).tlb d.part (va.toNat % 2 ^ 48) with
  | some q => simp
  | none =>
    rcases resolve_leaf h with ⟨ho, l, e, base, n, hw, hl⟩ | ⟨ho, hl⟩
    · simp only [Option.isSome_none, Bool.false_eq_true, if_false, hw, if_pos ho, hl, Option.some.injEq, and_true]
      rw [State.readByte, install_mem]
      refine (readByte_writeByte hm l _ x).trans ?_
      split
      · next hx => rw [hx]
      · rfl
    · simp only [Option.isSome_none, Bool.false_eq_true, if_false, hl, reduceCtorEq, false_and]
      split
      · rw [if_neg ho]
      · rfl

/-! ## The word -/

/-- The event of the read. -/
def pageRead (d : Domain) (t : Tile) (c : BitVec 4) (va : W64) (loc : Nat) : Ev := { newEv d t .ls .access with
  cls := some c, spaces := globSpace va, reads := [(loc, 8)], waited := true }

/-- The domain once the read stands. -/
def afterPageRead (s : State) (d : Domain) (t : Tile) (c : BitVec 4) (va : W64) (loc : Nat) (x : Domain) : Domain :=
  (x.addEv (pageRead d t c va loc)).columnRaces (pageRead d t c va loc) (shareRanges s d)

/-- A page that a read uses; one that is discarded sets DREAD (03 R84). -/
def usedPage (s : State) (d : Domain) (va : W64) (p : Place) : State :=
  if p.discarded then (s.useRead d va).countRead d.part else s.useRead d va

theorem usedPage_contexts (s : State) (d : Domain) (va : W64) (p : Place) : SameContexts s (usedPage s d va p) :=
  .ite ((sameContexts_useRead s d va).trans (sameContexts_countRead _ _)) (sameContexts_useRead s d va)

theorem usedPage_mem (s : State) (d : Domain) (va : W64) (p : Place) : (usedPage s d va p).mem = (s.useRead d va).mem := by
  unfold usedPage
  split <;> rfl

theorem usedPage_dread (hp : p.discarded = true) (hd : d.part < s.parts.length) :
    ((usedPage s d va p).part d.part).frstat = (s.part d.part).frstat ||| 4 := by
  rw [usedPage, if_pos hp, State.countRead, part_updPart_same _ _ (by rw [useRead_parts]; exact hd), State.part, useRead_parts]
  rfl

theorem execWaitg_error (h : s.At d t) {bad : Bad} (he : globCheck s d (t.sval b) 8 false false = some bad) :
    exec (.waitg g c v b e) s = .next (s.raise 3 bad.1 bad.2.1 bad.2.2) := by
  show execWaitg c v b e s = _
  rw [execWaitg, onDom_at h]
  dsimp only
  rw [he]
  rfl

theorem execWaitg_lost (h : s.At d t) (hg : Claims.globalGood s d (t.sval b) 8 false) {w : Walk}
    (hr : resolveFor s d t false (t.sval b) = .error w) : exec (.waitg g c v b e) s = .next (if d.relaxed then
      (s.openRecord d t 0 false (t.sval b) 8 w).raise 3 7 0 (t.sval b) else (s.countWalk (t.sval b) w).raise 3 17 0 (t.sval b)) := by
  show execWaitg c v b e s = _
  rw [execWaitg, onDom_at h]
  dsimp only
  rw [globCheck_good (noHost := false) hg nofun, hr]
  rfl

theorem execWaitg_ok (h : s.At d t) (hg : Claims.globalGood s d (t.sval b) 8 false) (hr : resolveFor s d t false (t.sval b) = .ok p)
    (hs : p.discarded = true ∨ s.sound [(p.loc, 8)] = true) : exec (.waitg g c v b e) s =
      .next ((usedPage s d (t.sval b) p).updDom d.seq (afterPageRead s d t c (t.sval b) p.loc)) := by
  have hpass : (!p.discarded && !s.sound [(p.loc, 8)]) = false := by rcases hs with hs | hs <;> simp [hs]
  show execWaitg c v b e s = _
  rw [execWaitg, onDom_at h]
  dsimp only
  rw [globCheck_good (noHost := false) hg nofun, hr]
  dsimp only
  rw [hpass]
  rfl

theorem waitg_reads (h : s.At d t) (hlt : t.lt = s.cur.lt) (hm : s.memOk) (hl : ∀ f ∈ t.flights, f.issue = d.dtick → f.col ≠ .ls)
    (hg : Claims.globalGood s d (t.sval b) 8 false) (hr : resolveFor s d t false (t.sval b) = .ok p)
    (hs : p.discarded = true ∨ s.sound [(p.loc, 8)] = true) : Completes (exec (.waitg g c v b e) s) (fun s' =>
        (∀ x, some x ≠ p.leafLoc → s'.readByte x = s.readByte x) ∧
        (∀ x, some x = p.leafLoc → s'.readByte x =
          if tlbFind (s.die ((t.sval b).toNat / 2 ^ 61)).tlb d.part ((t.sval b).toNat % 2 ^ 48) = none then s.readByte x ||| 0x40
          else s.readByte x) ∧
        (p.discarded = true → d.part < s.parts.length → (s'.part d.part).frstat = (s.part d.part).frstat ||| 4) ∧
        ∃ d' x, s'.At d' t ∧ d'.evs = d.evs ++ [x] ∧ x.cls = some c ∧ x.reads = [(p.loc, 8)] ∧ x.writes = []) := by
  have hread (x : Nat) : ((usedPage s d (t.sval b) p).updDom d.seq (afterPageRead s d t c (t.sval b) p.loc)).readByte x =
      (s.useRead d (t.sval b)).readByte x := congrArg (readCells · x) (usedPage_mem s d _ p)
  have hsame := usedPage_contexts s d (t.sval b) p
  have hseq : ∀ x, (afterPageRead s d t c (t.sval b) p.loc x).seq = x.seq := fun x => columnRaces_seq _ _ _
  have hplace : d.tile? t.lt = some t := hlt ▸ h.2
  have htile : (afterPageRead s d t c (t.sval b) p.loc d).tile? t.lt = some t :=
    columnRaces_tile? (e := pageRead d t c (t.sval b) p.loc) (d := d.addEv _) hplace hl _
  have hat := at_updDom (hsame.at_ h) hseq (by rw [hsame.cur, ← hlt]; exact htile)
  rw [hsame.cur, ← At.seq h] at hat
  refine ⟨_, execWaitg_ok h hg hr hs, fun x hx => ?_, fun x hx => ?_, usedPage_dread, _, _, hat, columnRaces_evs _ _ _, rfl, rfl, rfl⟩
  · rw [hread, readByte_useRead hm hr, if_neg (fun hx' => hx hx'.1)]
  · rw [hread, readByte_useRead hm hr]
    simp only [hx, true_and]

/-- In open mode a walk that fails writes its record, and is the translation fault (03 R81). -/
theorem waitg_refused (h : s.At d t) (hlt : t.lt = s.cur.lt) (hg : Claims.globalGood s d (t.sval b) 8 false) {w : Walk}
    (hr : resolveFor s d t false (t.sval b) = .error w) (hd : d.relaxed = true) :
    Completes (exec (.waitg g c v b e) s) (fun s' => ∃ d' t', s'.At d' t' ∧ { t' with faddr := t.faddr } = t ∧
        d'.causes = d.causes ++ [⟨d.dtick, t.lt, 3, 7, 0⟩]) := by
  have hsame := sameContexts_openRecord s d t 0 false (t.sval b) 8 w
  have hraised := ((Staged.refl (hsame.at_ h)).raise 7 (t.sval b)).place
  refine ⟨_, (execWaitg_lost h hg hr).trans (congrArg _ (if_pos hd)), _, _, hraised, marked_restored _ _ _ _, ?_⟩
  rw [raise_causes, lsCause, hsame.cur, hlt]

/-- Settles O35: an access of a class whose check leaves the tile as it is; WAITW closes the records whose word it reads, and the use
of WAITG's page sets A where the station holds none. -/
theorem waitsReadTheirWord : Obligations.WaitsReadTheirWord := by
  unfold Obligations.WaitsReadTheirWord
  intro s d t h hlt hm g c v b e k a loc hl
  refine ⟨fun hb hs => waitw_reads h hlt hl hb hs, fun hb hs => execWaitw_flawed h hb hs, fun ha => execWaitw_error h (bankAt_high ha),
    fun ha hn => execWaitw_error h (bankAt_misaligned (Nat.not_le.2 ha) hn),
    fun ha hn hw => execWaitw_error h (bankAt_detached (Nat.not_le.2 ha) hn hw), fun p hg hr hs => waitg_reads h hlt hm hl hg hr hs,
    fun w hg hr hd => ?_, fun w hg hr hd => waitg_refused h hlt hg hr hd, fun ha => execWaitg_error h (globCheck_address (.inl ha)),
    fun ho hz hn => execWaitg_error h (globCheck_align (allowed_of_good ⟨ho, hz⟩) hn),
    fun ho hz hn hcover => execWaitg_error h (globCheck_lease (allowed_of_good ⟨ho, hz⟩) hn hcover)⟩
  rw [execWaitg_lost h hg hr, hd]
  rfl

end Sys2Proof.Waits
end

section
/-!
SUPPORT. A list, a cluster and a tile's holdings after an update: what a window, a tag or an acknowledgement leaves.
-/

namespace Sys2Proof.Banks

open Sys2Proof Sys2Proof.Machine Sys2Proof.Laws Sys2Proof.Access

/-! ## Lists and clusters -/

theorem upd_eq_set {α : Type} (l : List α) (i : Nat) (f : α → α) (x : α) : upd l i f = l.set i (f (l.getD i x)) := by
  refine List.ext_getElem? (fun j => ?_)
  rw [upd_getElem?, List.getElem?_set]
  split
  · next hij =>
    subst hij
    by_cases hi : i < l.length
    · simp [hi]
    · simp [hi]
  · rfl

theorem assoc_setAssoc {α : Type} (l : List (Nat × α)) (k j : Nat) (x y : α) :
    assoc (setAssoc l k x) j y = if j = k then x else assoc l j y := by
  induction l with
  | nil => simp [setAssoc, assoc, eq_comm]
  | cons p l ih =>
    obtain ⟨a, z⟩ := p
    by_cases ha : a = k
    · subst ha
      simp only [setAssoc, if_true, assoc, eq_comm (a := a)]
      split <;> rfl
    · simp only [setAssoc, if_neg ha, assoc, ih]
      by_cases hj : j = k
      · subst hj
        simp [ha]
      · simp [hj]

theorem cluster_updCluster (s : State) (c : Nat) (f : Cluster → Cluster) (k : Nat) :
    (s.updCluster c f).cluster k = if k = c then f (s.cluster c) else s.cluster k := assoc_setAssoc _ _ _ _ _

/-! ## What acknowledgements leave of the tiles -/

/-- The registers, windows and semaphores of a tile. -/
def holdings (t : Tile) : List W64 × List Win × List (List SemOp) := (t.s, t.wins, t.sems)

/-- Two domains whose attaches and tiles' holdings are the same. -/
structure SameHoldings (d x : Domain) : Prop where
  seq : x.seq = d.seq
  attaches : x.attaches = d.attaches
  nextId : x.nextId = d.nextId
  tiles : x.tiles.map holdings = d.tiles.map holdings

variable {d x y : Domain}

theorem SameHoldings.refl (d : Domain) : SameHoldings d d := ⟨rfl, rfl, rfl, rfl⟩

theorem SameHoldings.trans (h : SameHoldings d x) (k : SameHoldings x y) : SameHoldings d y :=
  ⟨k.seq.trans h.seq, k.attaches.trans h.attaches, k.nextId.trans h.nextId, k.tiles.trans h.tiles⟩

theorem sameHoldings_updTile (d : Domain) (lt : Nat) (f : Tile → Tile) (hf : ∀ t, holdings (f t) = holdings t) :
    SameHoldings d (d.updTile lt f) := ⟨rfl, rfl, rfl, map_upd holdings d.tiles lt f (fun t _ => hf t)⟩

theorem sameHoldings_raise (d : Domain) (c : Cause) (a : W64) : SameHoldings d (d.raise c a) := by
  have hcause : SameHoldings d (d.addCause c a) := by
    have hadd : SameHoldings d { d with causes := d.causes ++ [c] } := ⟨rfl, rfl, rfl, rfl⟩
    unfold Domain.addCause
    dsimp only
    split
    · exact hadd.trans (sameHoldings_updTile _ _ _ (fun _ => rfl))
    · exact hadd
  exact ⟨hcause.seq, hcause.attaches, hcause.nextId, hcause.tiles⟩

theorem SameHoldings.raise_if (h : SameHoldings d x) (p : Prop) [Decidable p] (c : Cause) (a : W64) :
    SameHoldings d (if p then x else x.raise c a) := by
  split
  · exact h
  · exact h.trans (sameHoldings_raise _ _ _)

theorem sameHoldings_ackRec (d : Domain) (lt : Nat) (r : Rec) (now : Nat) : SameHoldings d (d.ackRec lt r now) := by
  unfold Domain.ackRec
  split
  · exact .refl d
  · have hflags (trap : BitVec 9) (c : Cause) :=
      (sameHoldings_updTile d lt (fun u => Waits.acknowledged u r now trap) (fun _ => rfl)).raise_if (trap = 0) c 0
    dsimp only
    split
    · exact hflags _ _
    · exact (hflags _ _).trans (sameHoldings_raise _ _ _)
    · exact hflags _ _

theorem sameHoldings_ackWhere (d : Domain) (lt : Nat) (p : Rec → Bool) (now : Nat) : SameHoldings d (d.ackWhere lt p now) := by
  have hall (l : List Rec) : ∀ x : Domain, SameHoldings x (l.foldl (fun d r => d.ackRec lt r now) x) := by
    induction l with
    | nil => exact .refl
    | cons r l ih => exact fun x => (sameHoldings_ackRec x lt r now).trans (ih _)
  unfold Domain.ackWhere
  split
  · exact .refl d
  · exact hall _ d

/-- A tile of the one domain stands in the other with the same holdings. -/
theorem SameHoldings.tile? (h : SameHoldings d x) {lt : Nat} {t : Tile} (ht : d.tile? lt = some t) :
    ∃ u, x.tile? lt = some u ∧ u.s = t.s ∧ u.wins = t.wins ∧ u.sems = t.sems := by
  have hview : (x.tile? lt).map holdings = some (holdings t) := by
    unfold Domain.tile? at ht ⊢
    rw [← List.getElem?_map, h.tiles, List.getElem?_map, ht]
    rfl
  obtain ⟨u, hu, huv⟩ := Option.map_eq_some_iff.1 hview
  obtain ⟨hs, hwins, hsems⟩ : u.s = t.s ∧ u.wins = t.wins ∧ u.sems = t.sems := by simpa [holdings] using huv
  exact ⟨u, hu, hs, hwins, hsems⟩

end Sys2Proof.Banks
end

section
/-!
SUPPORT. BFMT and GIVE at a place that stands (04 R90-R97). The proofs that settle O21 and O22.
-/

namespace Sys2Proof.Banks

open Sys2Proof Sys2Proof.Machine Sys2Proof.Laws Sys2Proof.Access Sys2Proof.Translation

variable {s : State} {d : Domain} {t u : Tile} {g k : BitVec 4} {w x : BitVec 3} {i : BitVec 2} {f : Fmt} {bl : Blk} {p : Bool} {b : Nat}

/-! ## BFMT -/

theorem tagBusy_iff (d : Domain) (t : Tile) (b : Nat) : d.tagBusy t b = true ↔ ∃ r ∈ t.recs,
    (r.live = true ∧ namesBank t.cluster b r = true) ∨
      (openFor d.vg d.dtick true r = true ∧ rangesMeet (r.reads ++ r.writes) [bankTag t.cluster b] = true) := by
  simp only [Domain.tagBusy, List.any_eq_true, Bool.or_eq_true, Bool.and_eq_true]

theorem bfmt_detached (h : s.At d t) (hw : ∀ b, t.wins.getD w.toNat .empty ≠ .att b) :
    exec (.bfmt g w f bl p) s = .next (s.raise 0 16 0 0) := by
  show execBfmt w f bl p s = _
  rw [execBfmt, onDom_at h, bank?_eq_none hw]
  rfl

theorem bfmt_busy (h : s.At d t) (hw : t.wins.getD w.toNat .empty = .att b) (hbusy : d.tagBusy t b = true) :
    exec (.bfmt g w f bl p) s = .next (s.raise 0 18 2 0) := by
  show execBfmt w f bl p s = _
  rw [execBfmt, onDom_at h, bank?_eq_some hw]
  exact congrArg _ (if_pos hbusy)

/-- The event of a BFMT: it writes the tag (06 R157). -/
def tagWrite (d : Domain) (t : Tile) (b : Nat) : Ev :=
  { newEv d t .sq .access with spaces := spK, writes := [bankTag t.cluster b] }

theorem bfmt_sets (h : s.At d t) (hw : t.wins.getD w.toNat .empty = .att b) (hfree : ¬d.tagBusy t b = true) :
    exec (.bfmt g w f bl p) s = .next
      ((s.updDom s.cur.dom (fun e => e.addEv (tagWrite d t b))).setTag t.cluster b ⟨f.toBits, bl.toBits, p⟩) := by
  show execBfmt w f bl p s = _
  rw [execBfmt, onDom_at h, bank?_eq_some hw, ← At.seq h]
  exact congrArg _ (if_neg hfree)

/-- Settles O22, by the three outcomes of the word: no bank, a record in the way, the tag set. -/
theorem bfmtSetsTheTag : Obligations.BfmtSetsTheTag := by
  unfold Obligations.BfmtSetsTheTag
  intro s d t h g w f bl p
  refine ⟨bfmt_detached h, fun b hw => ⟨fun hbusy => bfmt_busy h hw ((tagBusy_iff d t b).2 hbusy), fun hfree => ?_⟩⟩
  have hat : (s.updDom s.cur.dom (fun e => e.addEv (tagWrite d t b))).At (d.addEv (tagWrite d t b)) t :=
    at_updDom (f := fun e => e.addEv (tagWrite d t b)) h (fun _ => rfl) h.2
  refine ⟨_, bfmt_sets h hw (fun hbusy => hfree ((tagBusy_iff d t b).1 hbusy)), rfl, _, hat, rfl, ?_, ?_, fun c hc => ?_⟩
  · rw [State.setTag, cluster_updCluster, if_pos rfl]
    exact upd_eq_set _ _ _ Tag.raw
  · rw [State.setTag, cluster_updCluster, if_pos rfl]
    rfl
  · rw [State.setTag, cluster_updCluster, if_neg hc]
    rfl

/-! ## The checks of a GIVE -/

theorem give_detached (h : s.At d t) (hw : ∀ b, t.wins.getD w.toNat .empty ≠ .att b) :
    exec (.give g w i x k) s = .next (s.raise 0 16 0 0) := by
  show execGive w i x k s = _
  rw [execGive, onDom_at h, bank?_eq_none hw]
  rfl

/-- A give to its own window. -/
def OwnWindow (t : Tile) (w x : BitVec 3) (i : BitVec 2) : Prop := t.lt / 4 * 4 + i.toNat = t.lt ∧ x = w

/-- A record that names the bank has been pushed less than a lead ago. -/
def Early (d : Domain) (t : Tile) (b : Nat) : Prop := ∃ r ∈ t.recs, d.dtick < r.tick + d.lead ∧ namesBank t.cluster b r = true

theorem early_iff (d : Domain) (t : Tile) (b : Nat) :
    t.recs.any (fun r => decide (d.dtick < r.tick + d.lead) && namesBank t.cluster b r) = true ↔ Early d t b := by
  simp only [Early, List.any_eq_true, Bool.and_eq_true, decide_eq_true_eq]

theorem ownWindow_iff (t : Tile) (w x : BitVec 3) (i : BitVec 2) :
    (decide (t.lt / 4 * 4 + i.toNat = t.lt) && decide (x = w)) = true ↔ OwnWindow t w x i := by
  rw [OwnWindow, Bool.and_eq_true, decide_eq_true_eq, decide_eq_true_eq]

/-- The windows and the target's semaphore after a give. -/
def windowsMoved (e : Domain) (lt tgt w x b : Nat) (k : BitVec 4) (o : SemOp) : Domain :=
  ((e.updTile lt (fun t => t.setWin w .empty)).updTile tgt (fun t => t.setWin x (.pend b))).semOp tgt k o

/-- The events of a tile on a bank, and the two events of a give and its attach (06 R148). -/
def bankEvents (d : Domain) (t : Tile) (b : Nat) : List Nat := (d.evs.filter (fun e => e.lt == t.lt &&
  rangesMeet (e.reads ++ e.writes) [bankRange t.cluster b, bankTag t.cluster b])).map (fun e => e.id)

def giveOrdered (d : Domain) (t : Tile) (tgt b : Nat) (e : Domain) : Domain :=
  (e.addEv (newEv d t .sq .give)).addEv { newEv d t .sq .attach with
    lt := tgt, tick := d.dtick + 32, after := d.nextId :: bankEvents d t b, acquires := true }

/-- The increment and the attach that a give makes. -/
def giveSignal (d : Domain) (t : Tile) : SemOp := ⟨d.dtick + 32, t.lt, .give, .add 1, false, false, d.nextId + 1⟩
def giveAttach (d : Domain) (t : Tile) (tgt : Nat) (w x : BitVec 3) (k : BitVec 4) (b : Nat) : Attach :=
  ⟨d.dtick + 32, t.lt, w.toNat, tgt, x.toNat, b, k, [d.nextId + 1], t.wordOfs .sq⟩

def withAttach (a : Attach) (e : Domain) : Domain := { e with attaches := e.attaches ++ [a] }

/-- A domain once a give has performed in it, the giver's records acknowledged before. -/
def given (d : Domain) (t : Tile) (lt tgt : Nat) (w x : BitVec 3) (k : BitVec 4) (b : Nat) (e : Domain) : Domain :=
  withAttach (giveAttach d t tgt w x k b) (giveOrdered d t tgt b (windowsMoved e lt tgt w.toNat x.toNat b k (giveSignal d t)))

/-- The acknowledgement of the giver's records that name the bank (06 R156). -/
def bankClosed (d : Domain) (t : Tile) (lt b : Nat) (e : Domain) : Domain := e.ackWhere lt (fun r => namesBank t.cluster b r) d.dtick

/-- A GIVE of an attached window: the first of its checks that fails, or its effect. -/
theorem give_eq (h : s.At d t) (hw : t.wins.getD w.toNat .empty = .att b) : exec (.give g w i x k) s = .next (
    if (decide (t.lt / 4 * 4 + i.toNat = t.lt) && decide (x = w)) = true then s.raise 0 8 1 0
    else if t.recs.any (fun r => decide (d.dtick < r.tick + d.lead) && namesBank t.cluster b r) = true then s.raise 0 8 2 0
    else if d.winBusy (t.lt / 4 * 4 + i.toNat) x.toNat = true then s.raise 0 8 3 0
    else s.updDom s.cur.dom (fun e => given d t s.cur.lt (t.lt / 4 * 4 + i.toNat) w x k b (bankClosed d t s.cur.lt b e))) := by
  show execGive w i x k s = _
  rw [execGive, onDom_at h, bank?_eq_some hw, ← At.seq h]
  rfl

theorem giveChecksRaise : Claims.GiveChecksRaise := by
  intro s d t h g w x i k
  refine ⟨give_detached h, fun b hw => ⟨fun hown => ?_, fun hown hearly => ?_, fun hown hearly hbusy => ?_⟩⟩
  · exact (give_eq h hw).trans (congrArg _ (if_pos ((ownWindow_iff t w x i).2 hown)))
  · refine (give_eq h hw).trans (congrArg _ ?_)
    rw [if_neg (mt (ownWindow_iff t w x i).1 hown), if_pos ((early_iff d t b).2 hearly)]
  · refine (give_eq h hw).trans (congrArg _ ?_)
    rw [if_neg (mt (ownWindow_iff t w x i).1 hown), if_neg (mt (early_iff d t b).1 hearly), if_pos hbusy]

/-! ## The effect of a GIVE -/

/-- The giver and the target once the window has moved: its own is empty, the target's pending, the increment placed. -/
def emptied (lt w j : Nat) (v : Tile) : Tile := if lt = j then v.setWin w .empty else v
def promised (tgt x b : Nat) (k : BitVec 4) (o : SemOp) (j : Nat) (v : Tile) : Tile :=
  if tgt = j then { v.setWin x (.pend b) with sems := upd v.sems k.toNat (fun l => insertSem l o) } else v

theorem windowsMoved_tile? (e : Domain) (lt tgt w x b : Nat) (k : BitVec 4) (o : SemOp) {j : Nat} {v : Tile} (hv : e.tile? j = some v) :
    (windowsMoved e lt tgt w x b k o).tile? j = some (promised tgt x b k o j (emptied lt w j v)) := by
  unfold windowsMoved Domain.semOp promised emptied
  simp only [tile?_updTile, hv]
  split <;> split <;> rfl

theorem emptied_s (lt w j : Nat) (v : Tile) : (emptied lt w j v).s = v.s := by
  unfold emptied
  split <;> rfl

theorem emptied_sems (lt w j : Nat) (v : Tile) : (emptied lt w j v).sems = v.sems := by
  unfold emptied
  split <;> rfl

theorem emptied_length (lt w j : Nat) (v : Tile) : (emptied lt w j v).wins.length = v.wins.length := by
  unfold emptied
  split
  · rw [Tile.setWin_wins, upd_eq_set _ _ _ .empty, List.length_set]
  · rfl

variable {tgt n : Nat} {o : SemOp} {v : Tile}

theorem promised_s (tgt x b : Nat) (k : BitVec 4) (o : SemOp) (j : Nat) (v : Tile) : (promised tgt x b k o j v).s = v.s := by
  unfold promised
  split <;> rfl

/-- The giver's window is empty, unless it gives that window to itself. -/
theorem giver_window {lt m : Nat} (hn : n < v.wins.length) (h : tgt ≠ lt ∨ m ≠ n) :
    (promised tgt m b k o lt (emptied lt n lt v)).wins.getD n .empty = .empty := by
  have hempty : (emptied lt n lt v).wins.getD n .empty = .empty := by
    rw [emptied, if_pos rfl]
    exact upd_getD_same _ _ _ _ hn
  unfold promised
  split
  · next ht => exact (upd_getD_other _ _ _ (Ne.symm (h.resolve_left (fun hne => hne ht)))).trans hempty
  · exact hempty

theorem target_window {lt m : Nat} (hm : m < v.wins.length) :
    (promised tgt m b k o tgt (emptied lt n tgt v)).wins.getD m .empty = .pend b := by
  rw [promised, if_pos rfl]
  exact upd_getD_same _ _ _ _ (by rwa [emptied_length])

theorem target_sems {lt m : Nat} :
    (promised tgt m b k o tgt (emptied lt n tgt v)).sems = upd v.sems k.toNat (fun l => insertSem l o) := by
  rw [promised, if_pos rfl, emptied_sems]

theorem give_passes (h : s.At d t) (hw : t.wins.getD w.toNat .empty = .att b) (hown : t.lt / 4 * 4 + i.toNat ≠ t.lt ∨ x ≠ w)
    (hlate : ¬Early d t b) (hfree : d.winBusy (t.lt / 4 * 4 + i.toNat) x.toNat = false) : exec (.give g w i x k) s =
      .next (s.updDom s.cur.dom (fun e => given d t s.cur.lt (t.lt / 4 * 4 + i.toNat) w x k b (bankClosed d t s.cur.lt b e))) := by
  have hother : ¬OwnWindow t w x i := fun ho => hown.elim (fun hne => hne ho.1) (fun hne => hne ho.2)
  refine (give_eq h hw).trans (congrArg _ ?_)
  rw [if_neg (mt (ownWindow_iff t w x i).1 hother), if_neg (mt (early_iff d t b).1 hlate),
    if_neg (by rw [hfree]; exact Bool.false_ne_true)]

@[simp] theorem withAttach_seq (a : Attach) (e : Domain) : (withAttach a e).seq = e.seq := rfl
@[simp] theorem withAttach_attaches (a : Attach) (e : Domain) : (withAttach a e).attaches = e.attaches ++ [a] := rfl
@[simp] theorem withAttach_tile? (a : Attach) (e : Domain) (j : Nat) : (withAttach a e).tile? j = e.tile? j := rfl
@[simp] theorem giveOrdered_seq (tgt : Nat) (e : Domain) : (giveOrdered d t tgt b e).seq = e.seq := rfl
@[simp] theorem giveOrdered_attaches (tgt : Nat) (e : Domain) : (giveOrdered d t tgt b e).attaches = e.attaches := rfl
@[simp] theorem giveOrdered_tile? (tgt : Nat) (e : Domain) (j : Nat) : (giveOrdered d t tgt b e).tile? j = e.tile? j := rfl
@[simp] theorem windowsMoved_seq (e : Domain) (lt tgt w x b : Nat) (k : BitVec 4) (o : SemOp) :
    (windowsMoved e lt tgt w x b k o).seq = e.seq := rfl
@[simp] theorem windowsMoved_attaches (e : Domain) (lt tgt w x b : Nat) (k : BitVec 4) (o : SemOp) :
    (windowsMoved e lt tgt w x b k o).attaches = e.attaches := rfl

theorem given_seq (lt tgt : Nat) (e : Domain) : (given d t lt tgt w x k b e).seq = e.seq := by simp [given]

theorem given_attaches (lt tgt : Nat) (e : Domain) :
    (given d t lt tgt w x k b e).attaches = e.attaches ++ [giveAttach d t tgt w x k b] := by simp [given]

theorem given_tile? (lt tgt : Nat) (e : Domain) (j : Nat) : (given d t lt tgt w x k b e).tile? j =
    (windowsMoved e lt tgt w.toNat x.toNat b k (giveSignal d t)).tile? j := by simp [given]

theorem bankClosed_holdings (d : Domain) (t : Tile) (lt b : Nat) (e : Domain) : SameHoldings e (bankClosed d t lt b e) :=
  sameHoldings_ackWhere _ _ _ _

/-- A tile after a give: acknowledgements aside, only windows and a semaphore have changed. -/
theorem given_tile (lt : Nat) {j : Nat} (hv : d.tile? j = some v) : ∃ v', v'.s = v.s ∧ v'.wins = v.wins ∧ v'.sems = v.sems ∧
    (given d t lt tgt w x k b (bankClosed d t lt b d)).tile? j =
      some (promised tgt x.toNat b k (giveSignal d t) j (emptied lt w.toNat j v')) := by
  obtain ⟨v', hv', hs, hwins, hsems⟩ := (bankClosed_holdings d t lt b d).tile? hv
  exact ⟨v', hs, hwins, hsems, (given_tile? _ _ _ _).trans (windowsMoved_tile? _ _ _ _ _ _ _ _ hv')⟩

theorem give_moves (h : s.At d t) (hlt : t.lt = s.cur.lt) (hw : t.wins.getD w.toNat .empty = .att b)
    (hu : d.tile? (t.lt / 4 * 4 + i.toNat) = some u) (ht8 : t.wins.length = 8) (hu8 : u.wins.length = 8)
    (hown : t.lt / 4 * 4 + i.toNat ≠ t.lt ∨ x ≠ w) (hlate : ¬Early d t b) (hfree : d.winBusy (t.lt / 4 * 4 + i.toNat) x.toNat = false) :
    let dest := t.lt / 4 * 4 + i.toNat
    Completes (exec (.give g w i x k) s) (fun s' => s'.mem = s.mem ∧ s'.clusters = s.clusters ∧ ∃ d' t', s'.At d' t' ∧
      t'.wins.getD w.toNat .empty = .empty ∧ t'.s = t.s ∧
      ∃ a u' id, d'.attaches = d.attaches ++ [a] ∧ a.due = d.dtick + 32 ∧ a.target = dest ∧ a.win = x.toNat ∧ a.bank = b ∧
        a.sem = k ∧ a.evs = [id] ∧ d'.tile? dest = some u' ∧ u'.wins.getD x.toNat .empty = .pend b ∧
        u'.sems = upd u.sems k.toNat (fun l => insertSem l ⟨d.dtick + 32, t.lt, .give, .add 1, false, false, id⟩)) := by
  intro dest
  obtain ⟨t₁, hs₁, hwins₁, -, ht₁⟩ := given_tile (t := t) (tgt := dest) (w := w) (x := x) (k := k) (b := b) s.cur.lt h.2
  obtain ⟨u₁, -, hwins₂, hsems₂, hu₁⟩ := given_tile (t := t) (tgt := dest) (w := w) (x := x) (k := k) (b := b) s.cur.lt hu
  have hseq : ∀ e, (given d t s.cur.lt dest w x k b (bankClosed d t s.cur.lt b e)).seq = e.seq :=
    fun e => (given_seq _ _ _).trans (bankClosed_holdings d t s.cur.lt b e).seq
  have hattaches : (given d t s.cur.lt dest w x k b (bankClosed d t s.cur.lt b d)).attaches = d.attaches ++ [giveAttach d t dest w x k b] := by
    rw [given_attaches, (bankClosed_holdings d t s.cur.lt b d).attaches]
  refine ⟨_, give_passes h hw hown hlate hfree, rfl, rfl, _, _, at_updDom h hseq ht₁, ?_, ?_,
    giveAttach d t dest w x k b, _, d.nextId + 1, hattaches, rfl, rfl, rfl, rfl, rfl, rfl, hu₁, ?_, ?_⟩
  · exact giver_window (by rw [hwins₁, ht8]; exact w.isLt) (hown.imp (fun hne => hlt ▸ hne) (fun hne hx => hne (BitVec.eq_of_toNat_eq hx)))
  · rw [promised_s, emptied_s, hs₁]
  · exact target_window (by rw [hwins₂, hu8]; exact x.isLt)
  · rw [target_sems, hsems₂]
    rfl

/-! ## The attach -/

/-- The domain once the first of its attaches is done: the bank attached, the increment of its event arrived (04 R96, R97). -/
def attached (a : Attach) (rest : List Attach) (e : Domain) : Domain :=
  (({ e with attaches := rest } : Domain).updTile a.target (fun t => t.setWin a.win (.att a.bank))).semArrive a.target a.sem (a.evs.headD 0)

theorem giveAttach_eq {a : Attach} {rest : List Attach} (hd : s.dom? s.cur.dom = some d) (ha : d.attaches = a :: rest) :
    exec .giveAttach s = .next (s.updDom s.cur.dom (attached a rest)) := by
  show execGiveAttach s = _
  rw [execGiveAttach, hd]
  simp only [ha]
  rw [← dom?_seq hd]
  rfl

theorem attached_tile? {a : Attach} {rest : List Attach} (hu : d.tile? a.target = some u) :
    (attached a rest d).tile? a.target = some { u.setWin a.win (.att a.bank) with sems := upd u.sems a.sem.toNat (fun l =>
      l.map (fun o => if o.ev = a.evs.headD 0 then { o with arrived := true } else o)) } := by
  have hu' : ({ d with attaches := rest } : Domain).tile? a.target = some u := hu
  unfold attached Domain.semArrive
  rw [tile?_updTile, if_pos rfl, tile?_updTile, if_pos rfl, hu']
  rfl

theorem giveMovesTheWindow : Claims.GiveMovesTheWindow := by
  constructor
  · intro s d t u b h hlt g w x i k dest hw hu ht8 hu8 hown hlate hfree
    refine give_moves h hlt hw hu ht8 hu8 hown (fun ⟨r, hr, htick, hnames⟩ => ?_) hfree
    rw [hlate r hr htick] at hnames
    exact Bool.false_ne_true hnames
  · intro s d a rest u hd ha hu hwin
    refine ⟨_, giveAttach_eq hd ha, rfl, _, _, dom?_updDom hd (fun _ => rfl), rfl, attached_tile? hu, ?_, rfl, rfl, fun id hid => ?_⟩
    · exact upd_eq_set _ _ _ .empty
    · rw [hid]
      rfl

/-- Settles O21: the windows and the semaphore of giver and target after the acknowledgements, the attach, and the checks in order. -/
theorem giveMovesTheWindowOrRaises : Obligations.GiveMovesTheWindowOrRaises := by
  unfold Obligations.GiveMovesTheWindowOrRaises
  exact ⟨giveMovesTheWindow, giveChecksRaise⟩

end Sys2Proof.Banks
end

section
/-!
SUPPORT. Gathers and scatters of unflawed banks: the element of each lane, and the words of lanes written in ascending order
(04 R105, R106, 13 R332, R333). The proof that settles O30.
-/

namespace Sys2Proof.Gathers

open Sys2Proof Sys2Proof.Machine Sys2Proof.Laws Sys2Proof.Access Sys2Proof.Translation Sys2Proof.Waits

variable {s : State} {d : Domain} {t : Tile} {g c i : BitVec 4} {v : VSpec} {b : SSpec} {k n : Nat}

/-! ## Elements -/

theorem number_lt (s : State) (n : Nat) : ∀ a : Nat, Claims.number s a n < 256 ^ n := by
  induction n with
  | zero => exact fun _ => Nat.one_pos
  | succ n ih =>
    intro a
    rw [number_succ, Nat.pow_succ']
    have := (s.readByte a).isLt
    have := ih (a + 1)
    omega

/-- A byte as a signed number (08 R186, INT8). -/
theorem signExtend_byte {x : Nat} (hx : x < 256) :
    (BitVec.ofNat 8 x).signExtend 32 = BitVec.ofInt 32 (if x < 128 then (x : Int) else x - 256) := by
  have hint : (BitVec.ofNat 8 x).toInt = if x < 128 then (x : Int) else x - 256 := by
    rw [BitVec.toInt_eq_toNat_cond, BitVec.toNat_ofNat, Nat.mod_eq_of_lt (by omega)]
    split <;> split <;> omega
  rw [BitVec.signExtend, hint]

/-- One element decodes as its format says. -/
theorem decodeElem_eq_element {q : Nat × Nat} (hq : q ∈ (0, 4) :: Claims.forms) {x : Nat} (hx : x < 256 ^ q.2) :
    decodeElem q.1 x = Claims.element q.1 x := by
  simp only [Claims.forms, List.mem_cons, List.not_mem_nil, or_false] at hq
  rcases hq with rfl | rfl | rfl | rfl | rfl | rfl | rfl | rfl | rfl
  case inr.inr.inr.inr.inr.inr.inl => exact signExtend_byte hx
  all_goals rfl

/-! ## Gathers -/

/-- The lanes that a gather reads. -/
def gathered (s : State) (t : Tile) (b : SSpec) (k f n : Nat) (y : Lanes) : Lanes :=
  (y.map (laneOffset t b n)).map (fun a => Claims.element f (Claims.number s (locBank t.cluster k a) n))

theorem gathered_eq {q : Nat × Nat} (hq : q ∈ (0, 4) :: Claims.forms) (y : Lanes) : gathered s t b k q.1 q.2 y =
    (y.map (laneOffset t b q.2)).map (fun a => decodeElem q.1 (s.readLE (locBank t.cluster k a) q.2)) :=
  List.map_congr_left (fun a _ => by rw [readLE_eq_number, decodeElem_eq_element hq (number_lt _ _ _)])

theorem sound_of_unflawed (h : s.flawed = []) (rs : List (Nat × Nat)) : s.sound rs = true := by
  rw [State.sound, State.flawsIn, h]
  rfl

theorem mergeSound_of_unflawed (h : s.flawed = []) (r : Nat × Nat) : s.mergeSound r = true := by
  rw [State.mergeSound, State.flawsIn, h]
  rfl

theorem ldsG_unflawed (h : s.At d t) (hb : Based t b k) (hs : s.flawed = []) {q : Nat × Nat} (hq : q ∈ (0, 4) :: Claims.forms)
    (hG : Claims.Tagged (s.tagOf t.cluster k) q.1) (ha : (t.sval b).toNat % 2 ^ 19 % q.2 = 0) :
    exec (.ldsG g c v b) s = .next ((s.put ((counted t b q.2 (t.vval v)).send
      (vectorFlight t d.dtick 7 .ls .ls (gathered s t b k q.1 q.2 (t.vval v)) []))).access d t c spK
      (bankTag t.cluster k :: lanesBytes t b k q.2 (t.vval v)) []) := by
  obtain ⟨m, hf⟩ := elemForm_gather hq hG
  show execLdsG c v b s = _
  rw [execLdsG, onDom_at h]
  simp only [gatherAt_based hb, hf, ha, bne_self_eq_false, Bool.false_eq_true, if_false, gatherOffsets_eq, lanesBytes_eq,
    State.deliverSound, sound_of_unflawed hs, if_true, hG.1, ← gathered_eq hq]
  rfl

theorem ldsG_gathers (h : s.At d t) (hb : Based t b k) (hs : s.flawed = []) {q : Nat × Nat} (hq : q ∈ (0, 4) :: Claims.forms)
    (hG : Claims.Tagged (s.tagOf t.cluster k) q.1) (ha : (t.sval b).toNat % 2 ^ 19 % q.2 = 0)
    (hquiet : Claims.Quiet s d t (bankTag t.cluster k :: lanesBytes t b k q.2 (t.vval v))) :
    Completes (exec (.ldsG g c v b) s) (fun s' => s'.mem = s.mem ∧ ∃ d', s'.At d' ((counted t b q.2 (t.vval v)).send
      (vectorFlight t d.dtick 7 .ls .ls (gathered s t b k q.1 q.2 (t.vval v)) []))) := by
  have hstaged := (Staged.refl h).put (u := (counted t b q.2 (t.vval v)).send
    (vectorFlight t d.dtick 7 .ls .ls (gathered s t b k q.1 q.2 (t.vval v)) [])) rfl
  refine ⟨_, ldsG_unflawed h hb hs hq hG ha, rfl, _, hstaged.access_quiet hquiet c (fun r hr => by simpa using hr) (fun r hr => ?_)⟩
  rcases List.mem_cons.1 hr with rfl | hr
  · exact region_le_bankTag _ _
  · exact lanesBytes_place _ _ _ _ _ r hr

/-! ## Scatters -/

/-- Stores of words, the last of its place and those behind it apart, leave its word there. -/
theorem number_storeAll {α : Type} (cl : Nat) (f : α → Nat) (w : α → W32) (pre : List α) (p : α) {post : List α}
    (hpost : ∀ q ∈ post, f q + 4 ≤ f p ∨ f p + 4 ≤ f q) {s : State} (hm : s.memOk) :
    Claims.number ((pre ++ p :: post).foldl (fun s q => s.storeLocal cl (f q) (toLE 4 (w q).toNat)) s) (f p) 4 = (w p).toNat := by
  rw [List.foldl_append, List.foldl_cons]
  have hpre : (pre.foldl (fun s q => s.storeLocal cl (f q) (toLE 4 (w q).toNat)) s).memOk :=
    memOk_foldl _ (fun _ _ h => memOk_storeLocal h _ _ _) _ _ hm
  generalize pre.foldl (fun s q => s.storeLocal cl (f q) (toLE 4 (w q).toNat)) s = s₁ at hpre
  have hword := (w p).isLt
  rw [number_of_bytes (x := (w p).toNat), Nat.mod_eq_of_lt (show _ < 256 ^ 4 from hword)]
  intro j hj
  have hkeeps := keepsOutside_storeAll cl 4 f (fun q => toLE 4 (w q).toNat) (fun q => length_toLE 4 _) post
    (wr := post.map (fun q => (f q, 4))) (s₁.storeLocal cl (f p) (toLE 4 (w p).toNat)) (fun q hq => List.mem_map_of_mem hq) (f p + j)
  rw [hkeeps]
  · refine (State.readByte_writeBytes_in _ hpre (Nat.le_add_right _ _) ?_).trans (by rw [Nat.add_sub_cancel_left])
    rw [length_toLE]
    omega
  · intro r hr
    obtain ⟨q, hq, rfl⟩ := List.mem_map.1 hr
    have := hpost q hq
    dsimp only
    omega

theorem scattered_unflawed (hs : s.flawed = []) (idx y : Lanes) : scattered s t b k idx y = ((idx.map (laneOffset t b 4)).zip y).foldl
    (fun s p => s.storeLocal t.cluster (locBank t.cluster k p.1) (toLE 4 p.2.toNat)) (s.put (counted t b 4 idx)) := by
  unfold scattered
  rw [List.filter_eq_self.2 (fun p _ => mergeSound_of_unflawed hs _)]

theorem laneOffset_aligned (ha : (t.sval b).toNat % 2 ^ 19 % 4 = 0) (w : W32) : laneOffset t b 4 w % 4 = 0 := by
  unfold laneOffset
  omega

/-- Words at different offsets of a bank share no byte. -/
theorem words_apart {cl x y : Nat} (hx : x % 4 = 0) (hy : y % 4 = 0) (hne : x ≠ y) :
    locBank cl k x + 4 ≤ locBank cl k y ∨ locBank cl k y + 4 ≤ locBank cl k x := by
  unfold locBank
  omega

/-- The word of the last lane that names an offset stands there. -/
theorem number_scattered (hm : s.memOk) (hs : s.flawed = []) (ha : (t.sval b).toNat % 2 ^ 19 % 4 = 0) {idx y : Lanes}
    (hidx : idx.length = 32) (hy : y.length = 32) {l : Nat} (hl : l < 32)
    (hlast : ∀ m, l < m → m < 32 → (idx.map (laneOffset t b 4)).getD m 0 ≠ (idx.map (laneOffset t b 4)).getD l 0) :
    Claims.number (scattered s t b k idx y) (locBank t.cluster k ((idx.map (laneOffset t b 4)).getD l 0)) 4 = (y.getD l 0).toNat := by
  have hofs : (idx.map (laneOffset t b 4)).length = 32 := by rw [List.length_map, hidx]
  have haligned : ∀ x ∈ idx.map (laneOffset t b 4), x % 4 = 0 := fun x hx => by
    obtain ⟨w, -, rfl⟩ := List.mem_map.1 hx
    exact laneOffset_aligned ha w
  rw [scattered_unflawed hs]
  generalize idx.map (laneOffset t b 4) = ofs at hofs haligned hlast
  have hlen : (ofs.zip y).length = 32 := by rw [List.length_zip, hofs, hy, Nat.min_self]
  have hpair : ∀ m (hm : m < 32), (ofs.zip y)[m]'(hlen.symm ▸ hm) = (ofs.getD m 0, y.getD m 0) := fun m hm => by
    rw [List.getElem_zip, List.getD_eq_getElem _ _ (hofs.symm ▸ hm), List.getD_eq_getElem _ _ (hy.symm ▸ hm)]
  have hmem : ∀ m < 32, ofs.getD m 0 ∈ ofs := fun m hm => by
    rw [List.getD_eq_getElem _ _ (hofs.symm ▸ hm)]
    exact List.getElem_mem _
  rw [← List.take_append_drop l (ofs.zip y), List.drop_eq_getElem_cons (hlen.symm ▸ hl), hpair l hl]
  refine number_storeAll t.cluster (fun p : Nat × W32 => locBank t.cluster k p.1) (fun p => p.2) _ (ofs.getD l 0, y.getD l 0)
    (fun q hq => ?_) (memOk_put hm _)
  obtain ⟨j, hj, rfl⟩ := List.getElem_of_mem hq
  rw [List.length_drop, hlen] at hj
  rw [List.getElem_drop, hpair _ (by omega)]
  exact words_apart (haligned _ (hmem _ (by omega))) (haligned _ (hmem _ hl)) (hlast _ (by omega) (by omega))

theorem spoiled_unflawed (hs : s.flawed = []) (idx : Lanes) : spoiled s t b k idx = [] :=
  List.filter_eq_nil_iff.2 (fun a _ => by rw [mergeSound_of_unflawed hs]; decide)

theorem stsS_scatters (h : s.At d t) (hm : s.memOk) (hb : Based t b k) (hs : s.flawed = []) (ha : (t.sval b).toNat % 2 ^ 19 % 4 = 0)
    (hidx : (t.vreg i).length = 32) (hv : (t.vval v).length = 32) (hquiet : Claims.Quiet s d t (lanesBytes t b k 4 (t.vreg i))) :
    let ofs := (t.vreg i).map (laneOffset t b 4)
    let spot (l : Nat) : Nat := locBank t.cluster k (ofs.getD l 0)
    Completes (exec (.stsS g c v b i) s) (fun s' => (∃ d', s'.At d' (counted t b 4 (t.vreg i))) ∧
      (∀ l < 32, (∀ m, l < m → m < 32 → ofs.getD m 0 ≠ ofs.getD l 0) → Claims.number s' (spot l) 4 = ((t.vval v).getD l 0).toNat) ∧
      ∀ a, (∀ l < 32, a < spot l ∨ spot l + 4 ≤ a) → s'.readByte a = s.readByte a) := by
  intro ofs spot
  obtain ⟨hstaged, hkeeps⟩ := scattered_staged (b := b) h k (t.vreg i) (t.vval v)
  refine ⟨_, execStsS_sound h hb ha (spoiled_unflawed hs _),
    ⟨_, hstaged.access_quiet hquiet c (fun r hr => hr) (lanesBytes_place _ _ _ _ _)⟩,
    fun l hl hlast => number_scattered hm hs ha hidx hv hl hlast, fun a hout => ?_⟩
  refine hkeeps a (fun r hr => ?_)
  rw [← lanesBytes_eq] at hr
  obtain ⟨x, hx, rfl⟩ := List.mem_map.1 (List.mem_of_mem_filter hr)
  obtain ⟨l, hl, rfl⟩ := List.getElem_of_mem hx
  rw [← List.getD_eq_getElem _ 0 hl]
  exact hout l (by rwa [List.length_map, hidx] at hl)

/-- Settles O30: a gather's lanes decode one by one, and of the stores of a scatter the last to a word stands. -/
theorem gatherAndScatter : Obligations.GatherAndScatter := by
  unfold Obligations.GatherAndScatter
  intro s d t h hm g c i v b k base start tag off good lines counted hs
  constructor
  · intro q hq hG ⟨hlow, hwin, ha⟩ ofs hquiet
    rw [show ofs.map (fun a => (locBank t.cluster k a, q.2)) = lanesBytes t b k q.2 (t.vval v) from lanesBytes_eq ..] at hquiet
    exact ldsG_gathers h ⟨Nat.not_le.2 hlow, hwin⟩ hs hq hG ha hquiet
  · intro ⟨hlow, hwin, ha⟩ hidx hv ofs spot hquiet
    rw [show ofs.map (fun a => (locBank t.cluster k a, 4)) = lanesBytes t b k 4 (t.vreg i) from lanesBytes_eq ..] at hquiet
    exact stsS_scatters h hm ⟨Nat.not_le.2 hlow, hwin⟩ hs ha hidx hv hquiet

end Sys2Proof.Gathers
end

section
/-!
SUPPORT. Widths of floating-point results: what an operation of RS makes fits the pattern of its format (08 R182, R184, 12 R301, R302).
-/

namespace Sys2Proof.Widths

open Sys2Proof Sys2Proof.Machine

variable {f : FpFormat} {a b : Nat}

/-- The patterns of a format. -/
def Fits (f : FpFormat) (x : Nat) : Prop := x < 2 ^ (f.ebits + f.fbits + 1)

theorem infBits_lt (f : FpFormat) : f.infBits < 2 ^ (f.ebits + f.fbits) := by
  rw [FpFormat.infBits, Nat.pow_add]
  exact Nat.mul_lt_mul_of_pos_right (Nat.sub_lt (Nat.two_pow_pos _) Nat.one_pos) (Nat.two_pow_pos _)

/-- A sign and a magnitude make a pattern. -/
theorem fits_signed (neg : Bool) {m : Nat} (hm : m < 2 ^ (f.ebits + f.fbits)) : Fits f (f.signBits neg + m) := by
  unfold Fits FpFormat.signBits
  rw [Nat.pow_succ]
  split <;> omega

theorem fits_sign (neg : Bool) : Fits f (f.signBits neg) := fits_signed (m := 0) neg (Nat.two_pow_pos _)

theorem fits_inf (neg : Bool) : Fits f (f.signBits neg + f.infBits) := fits_signed neg (infBits_lt f)

theorem fits_round (mode : Rm) (neg : Bool) (m : Nat) (e : Int) (sticky : Bool) : Fits f (f.round mode neg m e sticky).1 := by
  have hinf := infBits_lt f
  have htop (p : Bool) : (if p = true then f.infBits else f.infBits - 1) < 2 ^ (f.ebits + f.fbits) := by
    split <;> omega
  unfold FpFormat.round
  split
  · exact fits_sign neg
  · dsimp only
    split
    · exact fits_signed neg (htop _)
    · next hmag => exact fits_signed neg (by omega)

theorem fits_roundSum (mode : Rm) (n1 n2 : Bool) (x : Machine.Dyadic) : Fits f (f.roundSum mode n1 n2 x).1 := by
  unfold FpFormat.roundSum
  split
  · exact fits_sign _
  · exact fits_round _ _ _ _ _

theorem quiet_lt {n x : Nat} (hf : f.fbits - 1 < n) (hx : x < 2 ^ n) : f.quiet x < 2 ^ n :=
  Nat.or_lt_two_pow hx (Nat.pow_lt_pow_right (by decide) hf)

theorem fits_quiet (ha : Fits f a) : Fits f (f.quiet a) := quiet_lt (by omega) ha

theorem fits_canonical (hf : 0 < f.ebits) (hfrac : 0 < f.fbits) : Fits f f.canonical := by
  have hinf : f.infBits < 2 ^ (f.ebits + f.fbits) := infBits_lt f
  have hquiet : f.quietBit < 2 ^ (f.ebits + f.fbits) := Nat.pow_lt_pow_right (by decide) (by omega)
  unfold Fits FpFormat.canonical
  rw [Nat.pow_succ]
  omega

theorem fits_firstNan (ha : Fits f a) (hb : Fits f b) {r : Nat} (h : f.firstNan [a, b] = some r) : Fits f r := by
  obtain ⟨x, hx, rfl⟩ := Option.map_eq_some_iff.1 h
  have hmem := List.mem_of_find?_eq_some hx
  simp only [List.mem_cons, List.not_mem_nil, or_false] at hmem
  rcases hmem with rfl | rfl
  · exact fits_quiet ha
  · exact fits_quiet hb

theorem fits_add (he : 0 < f.ebits) (hf : 0 < f.fbits) (ha : Fits f a) (hb : Fits f b) (mode : Rm) (sub : Bool) :
    Fits f (f.add mode sub a b).1 := by
  unfold FpFormat.add
  split
  · next r hr => exact fits_firstNan ha hb hr
  · split
    · exact fits_roundSum _ _ _ _
    · split
      · exact ha
      · exact fits_canonical he hf
    · exact ha
    · exact fits_inf _
    · exact fits_canonical he hf

theorem fits_minmax (ha : Fits f a) (hb : Fits f b) (max : Bool) : Fits f (f.minmax max a b).1 := by
  unfold FpFormat.minmax
  split
  · next r hr => exact fits_firstNan ha hb hr
  · dsimp only
    split
    · exact hb
    · exact ha

/-- A fraction cut to a narrower format stays a fraction. -/
theorem fits_convert {g : FpFormat} (hg : f.fbits ≤ g.fbits) (hf : 0 < f.fbits) (mode : Rm) (x : Nat) : Fits f (f.convert g mode x).1 := by
  unfold FpFormat.convert
  split
  · next s fr hx =>
    have hfr : fr < 2 ^ g.fbits := by
      unfold FpFormat.decode at hx
      dsimp only at hx
      split at hx
      · split at hx <;> cases hx
        exact Nat.mod_lt _ (Nat.two_pow_pos _)
      · split at hx <;> cases hx
    have hcut : fr / 2 ^ (g.fbits - f.fbits) < 2 ^ f.fbits := by
      rw [Nat.div_lt_iff_lt_mul (Nat.two_pow_pos _), ← Nat.pow_add, Nat.add_sub_cancel' hg]
      exact hfr
    dsimp only
    rw [if_pos hg]
    refine fits_signed s (quiet_lt (by omega) ?_)
    have hinf : f.infBits = 2 ^ (f.ebits + f.fbits) - 2 ^ f.fbits := by
      rw [FpFormat.infBits, Nat.sub_mul, Nat.one_mul, Nat.pow_add]
    have := Nat.pow_le_pow_right (n := 2) (by decide) (Nat.le_add_left f.fbits f.ebits)
    omega
  · exact fits_inf _
  · exact fits_round _ _ _ _ _

end Sys2Proof.Widths
end

section
/-!
SUPPORT. Bytes and words of lists: blocks of one length, the words of a byte list, and the reduction of RS word by word (16 R403, R404).
-/

namespace Sys2Proof.Chorus

open Sys2Proof Sys2Proof.Machine Sys2Proof.Laws Sys2Proof.Access Sys2Proof.Translation Sys2Proof.Waits Sys2Proof.Widths

variable {α β : Type} {s : State} {a n p : Nat}

/-! ## Blocks -/

theorem length_blocks {f : α → List β} {c : Nat} {l : List α} (hf : ∀ x ∈ l, (f x).length = c) : (l.flatMap f).length = l.length * c := by
  rw [List.length_flatMap, List.map_congr_left hf, List.map_const', List.sum_replicate, smul_eq_mul]

/-- Element i of block q of blocks of one length. -/
theorem getD_blocks {f : α → List β} {c i : Nat} (hi : i < c) (y : β) : ∀ {l : List α} {q : Nat} {x : α}, (∀ z ∈ l, (f z).length = c) →
    l[q]? = some x → (l.flatMap f).getD (q * c + i) y = (f x).getD i y
  | [], q, x, _, hx => by simp at hx
  | z :: l, q, x, hf, hx => by
    have hz : (f z).length = c := hf z List.mem_cons_self
    rw [List.flatMap_cons]
    cases q with
    | zero =>
      obtain rfl : z = x := by simpa using hx
      rw [Nat.zero_mul, Nat.zero_add, List.getD_append _ _ _ _ (hz ▸ hi)]
    | succ q =>
      have hx : l[q]? = some x := by simpa using hx
      have hofs : (q + 1) * c + i - c = q * c + i := by rw [Nat.succ_mul]; omega
      rw [List.getD_append_right _ _ _ _ (by rw [hz, Nat.succ_mul]; omega), hz, hofs]
      exact getD_blocks hi y (fun w hw => hf w (List.mem_cons_of_mem z hw)) hx

/-! ## Bytes read -/

theorem length_readBytes (s : State) (n : Nat) : ∀ a : Nat, (s.readBytes a n).length = n := by
  induction n with
  | zero => exact fun _ => rfl
  | succ n ih => exact fun a => congrArg (· + 1) (ih (a + 1))

theorem readBytes_succ (s : State) (a n : Nat) : s.readBytes a (n + 1) = s.readByte a :: s.readBytes (a + 1) n := rfl

theorem getD_readBytes (s : State) {n i : Nat} : ∀ {a : Nat}, i < n → (s.readBytes a n).getD i 0 = s.readByte (a + i) := by
  induction n generalizing i with
  | zero => exact fun h => absurd h (Nat.not_lt_zero _)
  | succ n ih =>
    intro a h
    rw [readBytes_succ]
    cases i with
    | zero => rfl
    | succ i => exact (ih (Nat.lt_of_succ_lt_succ h)).trans (by rw [Nat.add_right_comm]; rfl)

/-- A part of what is read is read from its place. -/
theorem readBytes_part (s : State) (a : Nat) {n i j : Nat} (h : i + j ≤ n) : ((s.readBytes a n).drop i).take j = s.readBytes (a + i) j := by
  refine List.ext_getElem (by simp only [List.length_take, List.length_drop, length_readBytes]; omega) (fun x h₁ h₂ => ?_)
  rw [length_readBytes] at h₂
  rw [List.getElem_take, List.getElem_drop, ← List.getD_eq_getElem _ 0, ← List.getD_eq_getElem _ 0, getD_readBytes s (by omega),
    getD_readBytes s h₂, Nat.add_assoc]

/-! ## Words -/

/-- The words of a byte list, the last of them maybe of fewer bytes. -/
theorem getElem?_wordsOf (hn : 0 < n) : ∀ (fuel : Nat) {l : List Byte} {p : Nat}, l.length ≤ fuel →
    (wordsOf n fuel l)[p]? = if n * p < l.length then some (fromLE ((l.drop (n * p)).take n)) else none
  | 0, l, p, h => by simp [wordsOf, Nat.le_zero.1 h]
  | fuel + 1, [], p, _ => by simp [wordsOf]
  | fuel + 1, b :: l, p, h => by
    rw [wordsOf, if_neg (by simp)]
    cases p with
    | zero => simp
    | succ p =>
      have hlen : ((b :: l).drop n).length ≤ fuel := by simp only [List.length_drop, List.length_cons] at h ⊢; omega
      rw [List.getElem?_cons_succ, getElem?_wordsOf hn fuel hlen, List.drop_drop, List.length_drop, Nat.mul_succ,
        Nat.add_comm n]
      exact if_congr (by omega) rfl rfl

/-- A whole word of what is read is the number at its place. -/
theorem word_readBytes (s : State) (a : Nat) {c : Nat} (hn : 0 < n) (hp : n * p + n ≤ c) :
    (wordsOf n (s.readBytes a c).length (s.readBytes a c))[p]? = some (Claims.number s (a + n * p) n) := by
  rw [getElem?_wordsOf hn _ le_rfl, length_readBytes, if_pos (by omega), readBytes_part s a hp, ← readLE_eq_number]
  rfl

/-- Place p of lists combined in turn. -/
theorem getElem?_foldl_zipWith (g : α → α → α) {p : Nat} {r : List (List α)} {as : List α} (h : List.Forall₂ (fun l x => l[p]? = some x) r as) :
    ∀ {v : List α} {x : α}, v[p]? = some x → (r.foldl (fun a b => List.zipWith g a b) v)[p]? = some (as.foldl g x) := by
  induction h with
  | nil => exact fun hv => hv
  | cons hl _ ih => exact fun hv => ih (by rw [List.getElem?_zipWith, hv, hl])

/-! ## The reduction -/

/-- The bytes of a word of RS: 2 where it adds BF16, else 4 (16 R404). -/
def rsWidth (op : Nat) : Nat := if op = 1 then 2 else 4

/-- A word of RS over the members' words, widened, in member order. -/
def rsWord (op : Nat) : List Nat → Nat
  | [] => 0
  | v :: r => if op = 1 then (bf16F.convert fp32F .rne (r.foldl (rsStep op) v)).1 else r.foldl (rsStep op) v

def rsWiden (op x : Nat) : Nat := if op = 1 then x * 2 ^ 16 else x

theorem rsWiden_lt (op : Nat) {x : Nat} (hx : x < 256 ^ rsWidth op) : rsWiden op x < 2 ^ 32 := by
  unfold rsWiden
  split
  · next hop =>
    rw [rsWidth, if_pos hop] at hx
    omega
  · next hop => rwa [rsWidth, if_neg hop] at hx

theorem rsStep_lt (op : Nat) {x y : Nat} (hx : x < 2 ^ 32) (hy : y < 2 ^ 32) : rsStep op x y < 2 ^ 32 := by
  unfold rsStep
  split
  · exact Nat.mod_lt _ (Nat.two_pow_pos _)
  split
  · exact fits_minmax (f := fp32F) hx hy true
  · exact fits_add (f := fp32F) (by decide) (by decide) hx hy .rne false

theorem foldl_rsStep_lt (op : Nat) {r : List Nat} (hr : ∀ y ∈ r, y < 2 ^ 32) : ∀ {x : Nat}, x < 2 ^ 32 → r.foldl (rsStep op) x < 2 ^ 32 := by
  induction r with
  | nil => exact id
  | cons y r ih => exact fun hx => ih (fun z hz => hr z (List.mem_cons_of_mem y hz)) (rsStep_lt op hx (hr y List.mem_cons_self))

theorem rsWord_lt (op : Nat) {l : List Nat} (hl : ∀ y ∈ l, y < 2 ^ 32) : rsWord op l < 256 ^ rsWidth op := by
  cases l with
  | nil => exact Nat.pow_pos (by decide)
  | cons v r =>
    by_cases hop : op = 1
    · rw [rsWord, if_pos hop, rsWidth, if_pos hop]
      exact fits_convert (f := bf16F) (g := fp32F) (by decide) (by decide) .rne _
    · rw [rsWord, if_neg hop, rsWidth, if_neg hop]
      exact foldl_rsStep_lt op (fun y hy => hl y (List.mem_cons_of_mem v hy)) (hl v List.mem_cons_self)

/-- Word p of a reduction stands in its place, little-endian. -/
theorem getD_rsReduce (op : Nat) {blocks : List (List Byte)} {p : Nat} {xs : List Nat} (hne : blocks ≠ [])
    (h : List.Forall₂ (fun b x => (wordsOf (rsWidth op) b.length b)[p]? = some x) blocks xs) {j : Nat} (hj : j < rsWidth op) :
    rsWidth op * p + j < (rsReduce op blocks).length ∧
    (rsReduce op blocks).getD (rsWidth op * p + j) 0 = (toLE (rsWidth op) (rsWord op (xs.map (rsWiden op)))).getD j 0 := by
  cases h with
  | nil => exact absurd rfl hne
  | @cons b x bs xs hb hbs =>
    have hwords : List.Forall₂ (fun l x => l[p]? = some x) (bs.map (fun b => (wordsOf (rsWidth op) b.length b).map (rsWiden op)))
        (xs.map (rsWiden op)) := by
      rw [List.forall₂_map_left_iff, List.forall₂_map_right_iff]
      exact hbs.imp (fun l x hl => by rw [List.getElem?_map, hl]; rfl)
    have hfold := getElem?_foldl_zipWith (rsStep op) hwords (v := (wordsOf (rsWidth op) b.length b).map (rsWiden op)) (x := rsWiden op x)
      (by rw [List.getElem?_map, hb]; rfl)
    have heq : rsReduce op (b :: bs) = ((bs.map (fun b => (wordsOf (rsWidth op) b.length b).map (rsWiden op))).foldl
        (fun a b => List.zipWith (rsStep op) a b) ((wordsOf (rsWidth op) b.length b).map (rsWiden op))).flatMap
        (fun x => toLE (rsWidth op) (if op = 1 then (bf16F.convert fp32F .rne x).1 else x)) := rfl
    rw [heq]
    constructor
    · rw [length_flatMap_toLE]
      have hp := (List.getElem?_eq_some_iff.1 hfold).1
      calc rsWidth op * p + j < rsWidth op * (p + 1) := by rw [Nat.mul_succ]; omega
        _ ≤ _ := by rw [Nat.mul_comm]; exact Nat.mul_le_mul_right _ hp
    · rw [Nat.mul_comm, getD_blocks hj 0 (fun _ _ => length_toLE _ _) hfold]
      rfl

end Sys2Proof.Chorus
end

section
/-!
SUPPORT. Writes of engines made one after another: where each lands, and what the others leave. The end of the members' records.
-/

namespace Sys2Proof.Chorus

open Sys2Proof Sys2Proof.Machine Sys2Proof.Laws Sys2Proof.Access Sys2Proof.Translation

variable {s s' : State} {d : Domain} {t : Tile} {z : Nat}

/-! ## Writes -/

/-- A write of an engine leaves the byte at z. -/
def Avoids (w : Nat × Nat × List Byte) (z : Nat) : Prop := z < w.2.1 ∨ w.2.1 + w.2.2.length ≤ z

/-- The writes of several members, in turn. -/
def stored (ws : List (Nat × Nat × List Byte)) (s : State) : State := ws.foldl (fun s x => s.storeEngine x.1 x.2.1 x.2.2) s

theorem readByte_storeEngine_other {w : Nat × Nat × List Byte} (h : Avoids w z) (s : State) :
    (s.storeEngine w.1 w.2.1 w.2.2).readByte z = s.readByte z := State.readByte_writeBytes_other s _ h

theorem readByte_stored_other {ws : List (Nat × Nat × List Byte)} : ∀ {s : State}, (∀ w ∈ ws, Avoids w z) →
    (stored ws s).readByte z = s.readByte z := by
  induction ws with
  | nil => exact fun _ => rfl
  | cons w ws ih => exact fun h => (ih (fun v hv => h v (List.mem_cons_of_mem w hv))).trans (readByte_storeEngine_other (h w List.mem_cons_self) _)

/-- A byte of one of the writes, which the others leave, is that write's. -/
theorem readByte_stored_in {ws : List (Nat × Nat × List Byte)} {w : Nat × Nat × List Byte} (hlo : w.2.1 ≤ z)
    (hhi : z < w.2.1 + w.2.2.length) : ∀ {s : State}, s.memOk → w ∈ ws → (∀ v ∈ ws, v = w ∨ Avoids v z) →
    (stored ws s).readByte z = w.2.2.getD (z - w.2.1) 0 := by
  induction ws with
  | nil => exact fun _ hw _ => absurd hw List.not_mem_nil
  | cons v ws ih =>
    intro s hm hw hothers
    have hrest := fun x hx => hothers x (List.mem_cons_of_mem v hx)
    by_cases hmem : w ∈ ws
    · exact ih (memOk_storeEngine hm _ _ _) hmem hrest
    · obtain rfl : w = v := (List.mem_cons.1 hw).resolve_right hmem
      have havoid : ∀ x ∈ ws, Avoids x z := fun x hx => (hrest x hx).resolve_left (fun he => hmem (he ▸ hx))
      exact (readByte_stored_other havoid).trans (State.readByte_writeBytes_in _ hm hlo hhi)

theorem stored_contexts (ws : List (Nat × Nat × List Byte)) (s : State) : SameContexts s (stored ws s) :=
  SameContexts.foldl (fun s (x : Nat × Nat × List Byte) => s.storeEngine x.1 x.2.1 x.2.2) (fun _ _ => ⟨rfl, rfl, rfl⟩) ws s

/-! ## The records of a collective that ends -/

/-- A member's record once its collective has ended. -/
def endedRec (bad : Option Bad) (r : Rec) : Rec := { r with stage := .written, fault := bad }

/-- The members' records, ended in turn. -/
def endRecords (bad : Option Bad) (ms : List (Tile × Rec)) (d : Domain) : Domain :=
  ms.foldl (fun d x => d.setRec x.1.lt (endedRec bad x.2)) d

theorem endRecords_kept (bad : Option Bad) (ms : List (Tile × Rec)) : ∀ d : Domain,
    (endRecords bad ms d).seq = d.seq ∧ (endRecords bad ms d).causes = d.causes := by
  induction ms with
  | nil => exact fun _ => ⟨rfl, rfl⟩
  | cons x ms ih => exact fun d => ih (d.setRec x.1.lt (endedRec bad x.2))

theorem setRec_tile?_other (d : Domain) {lt k : Nat} (r : Rec) (h : lt ≠ k) : (d.setRec lt r).tile? k = d.tile? k := by
  rw [Domain.setRec, tile?_updTile, if_neg h]

/-- The record put in place of one of its identifier stands. -/
theorem mem_setRec {l : List Rec} {r r' : Rec} (hr : r ∈ l) (hid : r.id = r'.id) : r' ∈ l.map (fun x => if x.id = r'.id then r' else x) :=
  List.mem_map.2 ⟨r, hr, if_pos hid⟩

/-- The record of a member that shares its tile with no other stands ended. -/
theorem endRecords_mem (bad : Option Bad) (x : Tile × Rec) : ∀ {ms : List (Tile × Rec)} {d : Domain} {u : Tile},
    (∀ y ∈ ms, y.1.lt = x.1.lt → y = x) → d.tile? x.1.lt = some u → (endedRec bad x.2 ∈ u.recs ∨ x ∈ ms ∧ x.2 ∈ u.recs) →
    ∃ u', (endRecords bad ms d).tile? x.1.lt = some u' ∧ endedRec bad x.2 ∈ u'.recs := by
  intro ms
  induction ms with
  | nil => exact fun _ hu hor => ⟨_, hu, hor.resolve_right (fun h => absurd h.1 List.not_mem_nil)⟩
  | cons y ms ih =>
    intro d u hone hu hor
    have hrest := fun z hz => hone z (List.mem_cons_of_mem y hz)
    by_cases hy : y.1.lt = x.1.lt
    · obtain rfl := hone y List.mem_cons_self hy
      refine ih hrest (setRec_tile? hu (endedRec bad y.2)) (.inl ?_)
      exact hor.elim (fun h => mem_setRec h rfl) (fun h => mem_setRec h.2 rfl)
    · refine ih hrest ((setRec_tile?_other d _ hy).trans hu) (hor.imp_right (fun ⟨hmem, hr⟩ => ⟨?_, hr⟩))
      exact (List.mem_cons.1 hmem).resolve_left (fun he => hy (he ▸ rfl))

/-- What the end of a collective leaves: no cause, and every member's record, on a tile of its own, ended. -/
def Ended (s s' : State) (d : Domain) (ms : List (Tile × Rec)) (bad : Option Bad) : Prop :=
  ∃ d', s'.dom? s.cur.dom = some d' ∧ d'.causes = d.causes ∧
    ∀ x ∈ ms, (∀ y ∈ ms, y.1.lt = x.1.lt → y = x) → (∃ u, d.tile? x.1.lt = some u ∧ x.2 ∈ u.recs) →
      ∃ u', d'.tile? x.1.lt = some u' ∧ { x.2 with stage := .written, fault := bad } ∈ u'.recs

theorem endCollective_ended (h : SameContexts s s') (hd : s.dom? s.cur.dom = some d) (ms : List (Tile × Rec)) (g i : Nat) (bad : Option Bad) :
    Ended s (s'.updDom s.cur.dom (fun e => e.endCollective ms g i bad)) d ms bad := by
  refine ⟨_, dom?_updDom ((h.dom? _).trans hd) (fun e => (endRecords_kept bad ms e).1), (endRecords_kept bad ms d).2, ?_⟩
  intro x hx hone ⟨u, hu, hr⟩
  exact endRecords_mem bad x hone hu (.inr ⟨hx, hr⟩)

end Sys2Proof.Chorus
end

section
/-!
SUPPORT. What the members of a collective receive, and where it stands after a commit (16 R403-R405).
-/

namespace Sys2Proof.Chorus

open Sys2Proof Sys2Proof.Machine Sys2Proof.Laws Sys2Proof.Access Sys2Proof.Translation Sys2Proof.Waits Sys2Proof.Gathers

variable {s s' : State} {d : Domain} {t : Tile} {r : Rec} {ms : List (Tile × Rec)} {m : Nat} {x : Tile × Rec} {b z : Nat}

/-! ## A member's windows -/

/-- A member's source, and its destination, is in a window attached to a bank. -/
def SrcIn (x : Tile × Rec) (b : Nat) : Prop := x.1.wins.getD (fieldAt x.2.bits 72 3) .empty = .att b
def DstIn (x : Tile × Rec) (b : Nat) : Prop := x.1.wins.getD (fieldAt x.2.bits 94 3) .empty = .att b

theorem bank?_eq_some_iff {w : Nat} : t.bank? w = some b ↔ t.wins.getD w .empty = .att b := by
  refine ⟨fun h => ?_, bank?_eq_some⟩
  unfold Tile.bank? Tile.win at h
  split at h
  · next hb => rw [hb, Option.some.inj h]
  · cases h
  · cases h

theorem srcBytes_attached (h : SrcIn x b) (ofs n : Nat) : srcBytes s x ofs n = s.readBytes (Claims.chorusSrc x b ofs) n := by
  unfold srcBytes
  rw [bank?_eq_some h]
  rfl

theorem length_srcBytes (s : State) (x : Tile × Rec) (ofs n : Nat) : (srcBytes s x ofs n).length = n := by
  unfold srcBytes
  split
  · exact length_readBytes _ _ _
  · exact List.length_replicate

theorem chorusSrc_add (x : Tile × Rec) (b ofs i : Nat) : Claims.chorusSrc x b ofs + i = Claims.chorusSrc x b (ofs + i) := by
  unfold Claims.chorusSrc locBank
  omega

theorem getD_srcBytes (h : SrcIn x b) {ofs n i : Nat} (hi : i < n) :
    (srcBytes s x ofs n).getD i 0 = s.readByte (Claims.chorusSrc x b (ofs + i)) := by
  rw [srcBytes_attached h, getD_readBytes s hi, chorusSrc_add]

/-! ## What a member receives, by its kind -/

theorem received_ag (h : r.kindCode = 0x40) : received s ms m r = ms.flatMap (fun x => srcBytes s x 0 r.count) := by simp [received, h, kAg]
theorem received_rs (h : r.kindCode = 0x41) :
    received s ms m r = rsReduce r.op (ms.map (fun x => srcBytes s x (m * r.count) r.count)) := by simp [received, h, kAg, kRs]
theorem received_a2a (h : r.kindCode = 0x42) : received s ms m r = ms.flatMap (fun x => srcBytes s x (m * r.count) r.count) := by
  simp [received, h, kAg, kRs, kA2a]
theorem received_send (h : r.kindCode = 0x44) : received s ms m r = [] := by simp [received, h, kAg, kRs, kA2a, kRecv, kBcast]
theorem received_recv (h : r.kindCode = 0x45) (hx : ms.find? (fun x => x.2.kindCode == kSend) = some x) :
    received s ms m r = srcBytes s x 0 r.count := by simp [received, h, hx, kAg, kRs, kA2a, kRecv]
theorem received_bcast (h : r.kindCode = 0x46) : received s (x :: ms) m r = srcBytes s x 0 r.count := by
  simp [received, h, kAg, kRs, kA2a, kRecv, kBcast]

/-! ## The writes of a commit -/

/-- Member m's write: its destination and what it receives. -/
def delivery (s : State) (ms : List (Tile × Rec)) (m : Nat) (x : Tile × Rec) (b : Nat) : Nat × Nat × List Byte :=
  (x.1.cluster, Claims.chorusDst x b, received s ms m x.2)

theorem mem_deliveries {w : Nat × Nat × List Byte} : w ∈ deliveries s ms ↔
    ∃ m x b, ms[m]? = some x ∧ DstIn x b ∧ received s ms m x.2 ≠ [] ∧ w = delivery s ms m x b := by
  unfold deliveries
  rw [List.mem_filterMap]
  constructor
  · rintro ⟨⟨x, m⟩, hx, hw⟩
    dsimp only at hw
    split at hw
    · next b hb =>
      split at hw
      · cases hw
      · next hne => exact ⟨m, x, b, List.mem_zipIdx_iff_getElem?.1 hx, bank?_eq_some_iff.1 hb, by simpa using hne, (Option.some.inj hw).symm⟩
    · cases hw
  · rintro ⟨m, x, b, hx, hb, hne, rfl⟩
    refine ⟨(x, m), List.mem_zipIdx_iff_getElem?.2 hx, ?_⟩
    dsimp only
    rw [bank?_eq_some hb]
    exact if_neg (by simpa using hne)

/-- No member's destination holds the byte at z. -/
def Apart (s : State) (ms : List (Tile × Rec)) (z : Nat) : Prop :=
  ∀ (m : Nat) (x : Tile × Rec) (b : Nat), ms[m]? = some x → DstIn x b → Avoids (delivery s ms m x b) z

/-- The state once a collective's bytes are delivered. -/
def delivered (s : State) (ms : List (Tile × Rec)) : State := stored (deliveries s ms) s

theorem readByte_delivered_apart (h : Apart s ms z) : (delivered s ms).readByte z = s.readByte z := by
  refine readByte_stored_other (fun w hw => ?_)
  obtain ⟨m, x, b, hx, hb, -, rfl⟩ := mem_deliveries.1 hw
  exact h m x b hx hb

/-- A byte of a member's destination that no other member's holds is the member's. -/
theorem readByte_delivered (hm : s.memOk) (hx : ms[m]? = some x) (hb : DstIn x b) {i : Nat} (hi : i < (received s ms m x.2).length)
    (hothers : ∀ q y c, q ≠ m → ms[q]? = some y → DstIn y c → Avoids (delivery s ms q y c) (Claims.chorusDst x b + i)) :
    (delivered s ms).readByte (Claims.chorusDst x b + i) = (received s ms m x.2).getD i 0 := by
  have hne : received s ms m x.2 ≠ [] := fun h => by rw [h] at hi; exact Nat.not_lt_zero _ hi
  refine (readByte_stored_in (w := delivery s ms m x b) (Nat.le_add_right _ _) (Nat.add_lt_add_left hi _) hm
    (mem_deliveries.2 ⟨m, x, b, hx, hb, hne, rfl⟩) (fun v hv => ?_)).trans (congrArg (fun n => List.getD _ n 0) (Nat.add_sub_cancel_left _ _))
  obtain ⟨q, y, c, hy, hc, -, rfl⟩ := mem_deliveries.1 hv
  by_cases hq : q = m
  · subst hq
    obtain rfl : y = x := Option.some.inj (hy.symm.trans hx)
    obtain rfl : c = b := Win.att.inj (hc.symm.trans hb)
    exact .inl rfl
  · exact .inr (hothers q y c hq hy hc)

/-! ## A SEND and its RECV -/

theorem getElem?_pair {α : Type} {x y w : α} {q : Nat} (h : [x, y][q]? = some w) : q = 0 ∧ w = x ∨ q = 1 ∧ w = y := by
  match q with
  | 0 => exact .inl ⟨rfl, (Option.some.inj h).symm⟩
  | 1 => exact .inr ⟨rfl, (Option.some.inj h).symm⟩
  | q + 2 => exact absurd h (by simp)

/-- A pair's receiver takes the sender's bytes, and nothing else is written. -/
theorem pair_delivers (hm : s.memOk) {x y : Tile × Rec} {b c : Nat} (hx : x.2.kindCode = 0x44) (hy : y.2.kindCode = 0x45)
    (hsrc : SrcIn x b) (hdst : DstIn y c) : let n := fieldAt y.2.bits 128 24
    Claims.Only s (delivered s [x, y]) [(Claims.chorusDst y c, n)] ∧
      ∀ i < n, (delivered s [x, y]).readByte (Claims.chorusDst y c + i) = s.readByte (Claims.chorusSrc x b i) := by
  intro n
  have hsent (q : Nat) : received s [x, y] q x.2 = [] := received_send hx
  have hrecv : received s [x, y] 1 y.2 = srcBytes s x 0 n := received_recv hy (by simp [hx, kSend])
  have hempty (c z : Nat) : Avoids (delivery s [x, y] 0 x c) z := by
    unfold Avoids delivery
    rw [hsent]
    exact Nat.lt_or_ge _ _
  constructor
  · intro z hz
    refine readByte_delivered_apart (fun q w e hw he => ?_)
    obtain ⟨rfl, rfl⟩ | ⟨rfl, rfl⟩ := getElem?_pair hw
    · exact hempty e z
    · obtain rfl : e = c := Win.att.inj (he.symm.trans hdst)
      unfold Avoids delivery
      rw [hrecv, length_srcBytes]
      exact hz _ List.mem_cons_self
  · intro i hi
    rw [readByte_delivered (m := 1) hm (by rfl) hdst (by rwa [hrecv, length_srcBytes]), hrecv, getD_srcBytes hsrc hi, Nat.zero_add]
    intro q w e hq hw he
    obtain ⟨rfl, rfl⟩ | ⟨rfl, -⟩ := getElem?_pair hw
    · exact hempty e _
    · exact absurd rfl hq

/-! ## The other kinds -/

/-- No other member's destination meets member m's. -/
def AloneAt (s : State) (ms : List (Tile × Rec)) (m : Nat) (x : Tile × Rec) (bd : Nat) : Prop :=
  ∀ (q : Nat) (z : Tile × Rec) (bz : Nat), q ≠ m → ms[q]? = some z → DstIn z bz →
    Claims.chorusDst z bz + (received s ms q z.2).length ≤ Claims.chorusDst x bd ∨
      Claims.chorusDst x bd + (received s ms m x.2).length ≤ Claims.chorusDst z bz

theorem readByte_alone (hm : s.memOk) (hx : ms[m]? = some x) (hb : DstIn x b) (halone : AloneAt s ms m x b) {i : Nat}
    (hi : i < (received s ms m x.2).length) :
    (delivered s ms).readByte (Claims.chorusDst x b + i) = (received s ms m x.2).getD i 0 := by
  refine readByte_delivered hm hx hb hi (fun q y c hq hy hc => ?_)
  have := halone q y c hq hy hc
  unfold Avoids delivery
  dsimp only
  omega

/-- Every member's source is in a bank of its own. -/
def SrcsIn (ms : List (Tile × Rec)) (bs : Nat → Nat) : Prop := ∀ (q : Nat) (z : Tile × Rec), ms[q]? = some z → SrcIn z (bs q)

variable {bs : Nat → Nat} {q : Nat} {y : Tile × Rec}

/-- Byte i of block q, for the kinds that gather the members' blocks. -/
theorem block_delivered (hm : s.memOk) (hx : ms[m]? = some x) (hb : DstIn x b) (halone : AloneAt s ms m x b) (hbs : SrcsIn ms bs)
    {ofs : Nat} (hr : received s ms m x.2 = ms.flatMap (fun y => srcBytes s y ofs x.2.count)) (hy : ms[q]? = some y) {i : Nat}
    (hi : i < x.2.count) : (delivered s ms).readByte (Claims.chorusDst x b + q * x.2.count + i) =
      s.readByte (Claims.chorusSrc y (bs q) (ofs + i)) := by
  have hblocks : ∀ z ∈ ms, (srcBytes s z ofs x.2.count).length = x.2.count := fun _ _ => length_srcBytes _ _ _ _
  have hlt : q * x.2.count + i < (received s ms m x.2).length := by
    rw [hr, length_blocks hblocks]
    have hq := (List.getElem?_eq_some_iff.1 hy).1
    calc q * x.2.count + i < (q + 1) * x.2.count := by rw [Nat.succ_mul]; omega
      _ ≤ _ := Nat.mul_le_mul_right _ hq
  rw [Nat.add_assoc, readByte_alone hm hx hb halone hlt, hr, getD_blocks hi 0 hblocks hy, getD_srcBytes (hbs q y hy) hi]

/-- Word p of a member's part of a reduction. -/
theorem word_delivered (hm : s.memOk) (hx : ms[m]? = some x) (hb : DstIn x b) (halone : AloneAt s ms m x b) (hbs : SrcsIn ms bs)
    (hk : x.2.kindCode = 0x41) {p : Nat} (hp : rsWidth x.2.op * p + rsWidth x.2.op ≤ x.2.count) :
    Claims.number (delivered s ms) (Claims.chorusDst x b + rsWidth x.2.op * p) (rsWidth x.2.op) =
      rsWord x.2.op (ms.zipIdx.map (fun z => rsWiden x.2.op (Claims.number s
        (Claims.chorusSrc z.1 (bs z.2) (m * x.2.count + rsWidth x.2.op * p)) (rsWidth x.2.op)))) := by
  have hw : 0 < rsWidth x.2.op := by unfold rsWidth; split <;> decide
  have hparts : List.Forall₂ (fun b v => (wordsOf (rsWidth x.2.op) b.length b)[p]? = some v)
      (ms.map (fun z => srcBytes s z (m * x.2.count) x.2.count)) (ms.zipIdx.map (fun z => Claims.number s
        (Claims.chorusSrc z.1 (bs z.2) (m * x.2.count + rsWidth x.2.op * p)) (rsWidth x.2.op))) := by
    conv in ms.map _ => rw [← List.zipIdx_map_fst 0 ms, List.map_map]
    rw [List.forall₂_map_left_iff, List.forall₂_map_right_iff, List.forall₂_same]
    intro z hz
    rw [Function.comp_apply, srcBytes_attached (hbs z.2 z.1 (List.mem_zipIdx_iff_getElem?.1 hz)), word_readBytes s _ hw hp, chorusSrc_add]
  have hne : ms.map (fun z => srcBytes s z (m * x.2.count) x.2.count) ≠ [] := fun h => by
    rw [List.map_eq_nil_iff.1 h] at hx
    cases hx
  have hval : rsWord x.2.op (ms.zipIdx.map (fun z => rsWiden x.2.op (Claims.number s
      (Claims.chorusSrc z.1 (bs z.2) (m * x.2.count + rsWidth x.2.op * p)) (rsWidth x.2.op)))) < 256 ^ rsWidth x.2.op := by
    refine rsWord_lt x.2.op (fun v hv => ?_)
    obtain ⟨z, -, rfl⟩ := List.mem_map.1 hv
    exact rsWiden_lt _ (number_lt _ _ _)
  rw [number_of_bytes, Nat.mod_eq_of_lt hval]
  intro j hj
  obtain ⟨hlt, hget⟩ := getD_rsReduce x.2.op hne hparts hj
  rw [← received_rs hk] at hlt hget
  rw [Nat.add_assoc, readByte_alone hm hx hb halone hlt, hget, List.map_map]
  rfl

end Sys2Proof.Chorus
end

section
/-!
SUPPORT. COLLECTIVE_COMMIT and COLLECTIVE_FAILURE at a place that stands (16 R403-R407).
-/

namespace Sys2Proof.Chorus

open Sys2Proof Sys2Proof.Machine Sys2Proof.Laws Sys2Proof.Access Sys2Proof.Translation

variable {s s' : State} {d : Domain} {t : Tile} {r : Rec} {ms : List (Tile × Rec)} {m : Nat} {x : Tile × Rec} {b z : Nat}

theorem onCollective_at (h : s.At d t) (hr : t.current .ch = some r) (hms : d.members (fieldAt r.bits 64 8) r.coll = some ms)
    (f : Domain → Nat → Nat → List (Tile × Rec) → Out) : onCollective s f = f d (fieldAt r.bits 64 8) r.coll ms := by
  have hms' : d.members r.group r.coll = some ms := hms
  unfold onCollective
  simp only [h.1, h.2, Option.bind_some, hr, hms']
  rfl

/-! ## The commit -/

theorem commit_eq (h : s.At d t) (hr : t.current .ch = some r) (hms : d.members (fieldAt r.bits 64 8) r.coll = some ms) :
    exec .collectiveCommit s = .next ((delivered s ms).updDom s.cur.dom (fun e =>
      e.endCollective ms (fieldAt r.bits 64 8) r.coll none)) := by
  show execCollectiveCommit s = _
  rw [execCollectiveCommit, onCollective_at h hr hms, ← At.seq h]
  rfl

theorem delivered_contexts (s : State) (ms : List (Tile × Rec)) : SameContexts s (delivered s ms) := stored_contexts _ _

/-- A member alone at its destination has what its kind gives it of the sources (16 R403, R404). -/
theorem delivered_by_kind (hm : s.memOk) (hx : ms[m]? = some x) (hb : DstIn x b) (halone : AloneAt s ms m x b) {bs : Nat → Nat}
    (hbs : SrcsIn ms bs) (hmem : s'.mem = (delivered s ms).mem) : Claims.Delivered s s' ms m x b bs := by
  have hread : ∀ a, s'.readByte a = (delivered s ms).readByte a := fun a => congrArg (fun l => readCells l a) hmem
  have hnumber : ∀ a n, Claims.number s' a n = Claims.number (delivered s ms) a n := fun a n => by
    simp only [Claims.number, hread]
  unfold Claims.Delivered
  intro c kind at_ op w part step
  refine ⟨fun q z hz i hi => ⟨fun hk => ?_, fun hk => ?_, fun hk hq => ?_⟩, fun hk p hp => ?_⟩
  · have hblock := block_delivered hm hx hb halone hbs (received_ag hk) hz hi
    rwa [Nat.zero_add, ← hread] at hblock
  · rw [hread]
    exact block_delivered hm hx hb halone hbs (received_a2a hk) hz hi
  · subst hq
    obtain ⟨rest, rfl⟩ : ∃ rest, ms = z :: rest := by
      rw [← List.head?_eq_getElem?] at hz
      exact ⟨_, (List.head?_eq_some_iff.1 hz).choose_spec⟩
    have hr : received s (z :: rest) m x.2 = srcBytes s z 0 x.2.count := received_bcast hk
    rw [hread, readByte_alone hm hx hb halone (by rwa [hr, length_srcBytes]), hr, getD_srcBytes (hbs 0 z hz) (show i < x.2.count from hi),
      Nat.zero_add]
  · have hparts : ms.zipIdx.map (part p) = ms.zipIdx.map (fun z => rsWiden x.2.op (Claims.number s
        (Claims.chorusSrc z.1 (bs z.2) (m * x.2.count + rsWidth x.2.op * p)) (rsWidth x.2.op))) := by
      refine List.map_congr_left (fun z _ => ?_)
      show _ * (if x.2.op = 1 then 2 ^ 16 else 1) = _
      unfold rsWiden
      split
      · rfl
      · exact Nat.mul_one _
    rw [hnumber, hparts]
    refine (word_delivered hm hx hb halone hbs hk hp).trans ?_
    generalize ms.zipIdx.map _ = words
    cases words <;> rfl

/-! ## The failure -/

theorem tickFresh_contexts (h : SameContexts s s') : SameContexts s s'.tickFresh := h.trans ⟨rfl, rfl, rfl⟩

theorem deliverSome_contexts (s₀ : State) (ms : List (Tile × Rec)) (m : Nat) (x : Tile × Rec) (loc : Nat) (fuel : Nat) :
    ∀ (ofs : Nat) (bs : List Byte) (s : State), SameContexts s (deliverSome s₀ ms m x loc fuel ofs bs s) := by
  induction fuel with
  | zero => exact fun _ _ s => .refl s
  | succ n ih =>
    intro ofs bs s
    rw [deliverSome]
    split
    · exact .refl s
    · dsimp only
      refine SameContexts.trans (tickFresh_contexts (SameContexts.ite ?_ (.refl s))) (ih _ _ _)
      exact ⟨rfl, rfl, rfl⟩

/-- What may land of a member's bytes lies in its destination. -/
theorem deliverSome_outside (s₀ : State) (ms : List (Tile × Rec)) (m : Nat) (x : Tile × Rec) (loc : Nat) (fuel : Nat) :
    ∀ (ofs : Nat) (bs : List Byte) (s : State), (z < loc + ofs ∨ loc + ofs + bs.length ≤ z) →
      (deliverSome s₀ ms m x loc fuel ofs bs s).readByte z = s.readByte z := by
  induction fuel with
  | zero => exact fun _ _ _ _ => rfl
  | succ n ih =>
    intro ofs bs s hz
    rw [deliverSome]
    split
    · rfl
    · dsimp only
      rw [ih _ _ _ (by rw [List.length_drop]; omega)]
      show State.readByte (ite _ _ _) z = _
      split
      · exact State.readByte_writeBytes_other s _ (by rw [List.length_take]; omega)
      · rfl

theorem deliverPart_contexts (s₀ : State) (ms : List (Tile × Rec)) (m : Nat) (x : Tile × Rec) (s : State) :
    SameContexts s (deliverPart s₀ ms m x s) := by
  unfold deliverPart
  split
  · exact deliverSome_contexts _ _ _ _ _ _ _ _ _
  · exact .refl s

theorem deliverPart_outside (s₀ : State) (ms : List (Tile × Rec)) (m : Nat) (x : Tile × Rec) (s : State)
    (h : ∀ b, DstIn x b → Avoids (delivery s₀ ms m x b) z) : (deliverPart s₀ ms m x s).readByte z = s.readByte z := by
  unfold deliverPart
  split
  · next r hr =>
    obtain ⟨b, hb, rfl⟩ := Option.map_eq_some_iff.1 hr
    exact deliverSome_outside s₀ ms m x _ _ 0 _ s (h b (bank?_eq_some_iff.1 hb))
  · rfl

/-- What has landed when a collective fails. -/
def landed (s : State) (ms : List (Tile × Rec)) (l : List ((Tile × Rec) × Nat)) (s₁ : State) : State :=
  l.foldl (fun s₁ x => deliverPart s ms x.2 x.1 s₁) s₁

theorem landed_contexts (s : State) (ms : List (Tile × Rec)) (l : List ((Tile × Rec) × Nat)) (s₁ : State) :
    SameContexts s₁ (landed s ms l s₁) :=
  SameContexts.foldl (fun s₁ (x : (Tile × Rec) × Nat) => deliverPart s ms x.2 x.1 s₁) (fun _ _ => deliverPart_contexts _ _ _ _ _) l s₁

theorem landed_outside (hz : Apart s ms z) : ∀ {l : List ((Tile × Rec) × Nat)} {s₁ : State}, (∀ x ∈ l, ms[x.2]? = some x.1) →
    (landed s ms l s₁).readByte z = s₁.readByte z := by
  intro l
  induction l with
  | nil => exact fun _ => rfl
  | cons x l ih =>
    exact fun hl => (ih (fun y hy => hl y (List.mem_cons_of_mem x hy))).trans
      (deliverPart_outside _ _ _ _ _ (fun b hb => hz x.2 x.1 b (hl x List.mem_cons_self) hb))

/-- The state that a failure for a reason leaves, the records aside. -/
def failed (s : State) (ms : List (Tile × Rec)) (reason : Nat) : State :=
  if reason = 4 then s else (landed s ms ms.zipIdx s).countFlaws (collectiveReads ms ++ collectiveMerges s ms)

theorem failed_contexts (s : State) (ms : List (Tile × Rec)) (reason : Nat) : SameContexts s (failed s ms reason) :=
  SameContexts.ite (.refl s) ((landed_contexts s ms _ s).trans (sameContexts_countFlaws _ _))

theorem failed_outside (hz : Apart s ms z) (reason : Nat) : (failed s ms reason).readByte z = s.readByte z := by
  unfold failed
  split
  · rfl
  · exact landed_outside hz (fun x hx => List.mem_zipIdx_iff_getElem?.1 hx)

theorem failure_eq (h : s.At d t) (hr : t.current .ch = some r) (hms : d.members (fieldAt r.bits 64 8) r.coll = some ms) {reason lt : Nat}
    (hf : collectiveFault s d (fieldAt r.bits 64 8) ms = some (reason, lt)) : exec .collectiveFailure s =
      .next ((failed s ms reason).updDom s.cur.dom (fun e =>
        e.endCollective ms (fieldAt r.bits 64 8) r.coll (some (14, reason * 2 ^ 12 + lt, 0)))) := by
  show execCollectiveFailure s = _
  rw [execCollectiveFailure, onCollective_at h hr hms, ← At.seq h]
  simp only [hf]
  rfl

end Sys2Proof.Chorus
end

section
/-!
SUPPORT. The start of a chorus record, and RECORD_COMPLETION (16 R402, R406, 04 R101, 13 R344, R345). The proof that settles O40.
-/

namespace Sys2Proof.Chorus

open Sys2Proof Sys2Proof.Machine Sys2Proof.Laws Sys2Proof.Access Sys2Proof.Translation Sys2Proof.Banks

variable {s s' : State} {d : Domain} {t : Tile} {r : Rec} {k b : Nat}

/-! ## The join -/

/-- The record of a tile once it has joined its collective. -/
def joined (t : Tile) (r : Rec) : Rec := { r with
  stage := .joined
  coll := (t.recs.filter (fun x => decide (0x40 ≤ fieldAt x.bits 0 8 ∧ fieldAt x.bits 0 8 ≤ 0x46) &&
    fieldAt x.bits 64 8 == fieldAt r.bits 64 8 && x.stage != .queued && x.stage != .squashed)).length }

theorem joins_eq (t : Tile) (r : Rec) : t.joins r.group = (joined t r).coll := by
  refine congrArg List.length (List.filter_congr (fun x _ => ?_))
  have hkind : isChorus x.kindCode = decide (0x40 ≤ fieldAt x.bits 0 8 ∧ fieldAt x.bits 0 8 ≤ 0x46) := (Bool.decide_and _ _).symm
  have hstage : x.stage.joinedYet = (x.stage != .queued && x.stage != .squashed) := by cases x.stage <;> rfl
  rw [hkind, hstage, ← Bool.and_assoc]
  rfl

theorem onRec_at (h : s.At d t) (hr : t.current s.cur.eng = some r) (f : Domain → Tile → Rec → Out) : onRec s f = f d t r := by
  simp only [onRec, h.1, h.2, hr]

theorem joinRecord_eq (h : Claims.Heads s d t r k) :
    joinRecord s k = .next (s.updDom s.cur.dom (fun e => (e.takeRec t.lt r).setRec t.lt (joined t r))) := by
  obtain ⟨hat, -, -, hr, -, hk, -, -⟩ := h
  have hk' : (r.kindCode != k) = false := bne_eq_false_iff_eq.2 hk
  rw [joinRecord, onRec_at hat hr, hk', joins_eq, ← At.seq hat]
  rfl

theorem takeRec_running (hlen : t.engines.length = 4) (h : d.tile? t.lt = some t) :
    ∃ u, (d.takeRec t.lt r).tile? t.lt = some u ∧ Running t r u :=
  ⟨_, takeRec_tile? rfl h, ⟨rfl, rfl, by dsimp only; rw [upd_getD_same _ _ _ _ (hlen ▸ engIdx_lt _)]⟩⟩

theorem chorus_joins (h : Claims.Heads s d t r k) : Completes (joinRecord s k) (fun s' => s'.mem = s.mem ∧ ∃ d' t', s'.At d' t' ∧
    d'.causes = d.causes ∧ { t' with engines := t.engines, recs := t.recs } = t ∧
    (t'.engines.getD (engIdx r.eng) ⟨[], none, none⟩).run = some r.id ∧ joined t r ∈ t'.recs) := by
  have hexec := joinRecord_eq h
  obtain ⟨hat, hlt, hlen, hr, -, -, -, -⟩ := h
  obtain ⟨u, hu, hrun⟩ := takeRec_running (r := r) hlen (hlt ▸ hat.2)
  have hplace := (congrArg _ hlt.symm).trans (setRec_tile? hu (joined t r))
  refine ⟨_, hexec, rfl, _, _, at_updDom (f := fun e => (e.takeRec t.lt r).setRec t.lt (joined t r)) hat (fun _ => rfl) hplace,
    rfl, hrun.same, hrun.run, mem_setRec (r := r) ?_ rfl⟩
  rw [hrun.recs]
  exact (current_stands hr).1

/-! ## The completion -/

/-- The domain once a record, as its arrival leaves it, is complete: its engine is free and its signal arrives. -/
def completed (t : Tile) (r r' : Rec) (e : Domain) : Domain :=
  let e1 := (e.setRec t.lt { r' with stage := .complete }).updTile t.lt (fun t => { t with
    engines := upd t.engines (engIdx r.eng) (fun q => { q with run := none }) })
  if r.sen then e1.semArrive t.lt r.ssem r.ev else e1

theorem completion_eq (h : s.At d t) (hr : t.current s.cur.eng = some r) : exec .recordCompletion s =
    .next ((arrive s t r).1.updDom s.cur.dom (completed t r (arrive s t r).2)) := by
  show execRecordCompletion s = _
  rw [execRecordCompletion, onRec_at h hr, ← At.seq h]
  rfl

theorem completed_kept (t : Tile) (r r' : Rec) (e : Domain) : (completed t r r' e).seq = e.seq ∧ (completed t r r' e).causes = e.causes := by
  unfold completed
  dsimp only
  split <;> exact ⟨rfl, rfl⟩

/-- The semaphores of a tile once a record's signal, if it has one, has arrived. -/
def signalled (t : Tile) (r : Rec) : List (List SemOp) :=
  if r.sen then t.sems.set (fieldAt r.bits 32 4) ((t.sems.getD (fieldAt r.bits 32 4) []).map
    (fun o => if o.ev = r.ev then { o with arrived := true } else o)) else t.sems

theorem completed_tile? (r' : Rec) (h : d.tile? t.lt = some t) : (completed t r r' d).tile? t.lt = some { t with
    recs := t.recs.map (fun x => if x.id = r'.id then { r' with stage := .complete } else x)
    engines := upd t.engines (engIdx r.eng) (fun q => { q with run := none })
    sems := signalled t r } := by
  have hrec := setRec_tile? h { r' with stage := .complete }
  have hfree : ((d.setRec t.lt { r' with stage := .complete }).updTile t.lt (fun t => { t with
      engines := upd t.engines (engIdx r.eng) (fun q => { q with run := none }) })).tile? t.lt = some { t with
        recs := t.recs.map (fun x => if x.id = r'.id then { r' with stage := .complete } else x)
        engines := upd t.engines (engIdx r.eng) (fun q => { q with run := none }) } := by
    rw [tile?_updTile, if_pos rfl, hrec]
    rfl
  unfold completed signalled
  dsimp only
  split
  · rw [Domain.semArrive, tile?_updTile, if_pos rfl, hfree, Option.map_some, upd_eq_set _ _ _ []]
    rfl
  · exact hfree

/-- What a completion leaves: no cause, the record complete with a fault or none, its engine free and its signal arrived. -/
def Done (s' : State) (d : Domain) (t : Tile) (r : Rec) (bad : Option Bad) : Prop := ∃ d' t', s'.At d' t' ∧ d'.causes = d.causes ∧
  { t' with engines := t.engines, recs := t.recs, sems := t.sems } = t ∧ { r with stage := .complete, fault := bad } ∈ t'.recs ∧
  (t'.engines.getD (engIdx r.eng) ⟨[], none, none⟩).run = none ∧ t'.sems = signalled t r

theorem completed_done (hctx : SameContexts s s') (h : s.At d t) (hlt : t.lt = s.cur.lt) (hlen : t.engines.length = 4)
    (hr : t.current s.cur.eng = some r) (bad : Option Bad) :
    Done (s'.updDom s.cur.dom (completed t r { r with fault := bad })) d t r bad := by
  have hplace := (congrArg (completed t r { r with fault := bad } d).tile? (hctx.cur ▸ hlt.symm)).trans
    (completed_tile? { r with fault := bad } (hlt ▸ h.2))
  have hat := at_updDom (f := completed t r { r with fault := bad }) (hctx.at_ h) (fun e => (completed_kept t r _ e).1) hplace
  rw [hctx.cur] at hat
  refine ⟨_, _, hat, (completed_kept t r _ d).2, rfl, mem_setRec (r := r) (current_stands hr).1 rfl, ?_, rfl⟩
  dsimp only
  rw [upd_getD_same _ _ _ _ (hlen ▸ engIdx_lt _)]

/-! ## The arrival word -/

/-- Where a record's arrival word stands, in bank b. -/
def wordAt (t : Tile) (r : Rec) (b : Nat) : Nat := locBank t.cluster b (fieldAt r.bits 214 10)

/-- The record with the fault that its arrival word met, unless it has one (assumption 103). -/
def withFault (r : Rec) (bad : Option Bad) : Rec := if r.fault.isSome then r else { r with fault := bad }

theorem withFault_eq (r : Rec) (bad : Option Bad) : withFault r bad = { r with fault := if r.fault.isSome then r.fault else bad } := by
  unfold withFault
  split <;> rfl

theorem withFault_none (r : Rec) : withFault r none = { r with fault := r.fault } := by
  unfold withFault
  split
  · rfl
  · next hf => rw [← Option.not_isSome_iff_eq_none.mp hf]

theorem arrive_absent (h : r.aen = false ∨ ∀ b, t.wins.getD (fieldAt r.bits 211 3) .empty ≠ .att b) : arrive s t r = (s, r) := by
  have hnone : (if r.aen then t.bank? r.awin else none) = none := by
    rcases h with h | h
    · rw [h]
      rfl
    · rw [show t.bank? r.awin = none from bank?_eq_none h, ite_self]
  rw [arrive, hnone]

theorem arrive_present (ha : r.aen = true) (hw : t.wins.getD (fieldAt r.bits 211 3) .empty = .att b) : arrive s t r =
    let x := storeStep t [(wordAt t r b, toLE 4 r.arrivalValue)] 0 s
    (x.1, withFault r x.2.2) := by
  rw [arrive, ha, if_pos rfl, show t.bank? r.awin = some b from bank?_eq_some hw]
  rfl

theorem arrive_sound (ha : r.aen = true) (hw : t.wins.getD (fieldAt r.bits 211 3) .empty = .att b)
    (hs : s.mergesSound [(wordAt t r b, 4)] = true) : arrive s t r =
      (s.storeAll t.cluster [(wordAt t r b, toLE 4 r.arrivalValue)], withFault r none) := by
  have hstep : storeStep t [(wordAt t r b, toLE 4 r.arrivalValue)] 0 s =
      (s.storeAll t.cluster [(wordAt t r b, toLE 4 r.arrivalValue)], 0, none) := if_pos hs
  rw [arrive_present ha hw, hstep]

theorem arrive_flawed (ha : r.aen = true) (hw : t.wins.getD (fieldAt r.bits 211 3) .empty = .att b)
    (hs : s.mergesSound [(wordAt t r b, 4)] = false) : ∃ a, arrive s t r =
      (s.countFlaws [(wordAt t r b, 4)], withFault r (some (6, 0, a))) := by
  have hstep : storeStep t [(wordAt t r b, toLE 4 r.arrivalValue)] 0 s = _ := if_neg (by rw [Bool.not_eq_true]; exact hs)
  rw [arrive_present ha hw, hstep]
  exact ⟨_, rfl⟩

/-- The bytes of the arrival word stand, and no other byte has changed. -/
theorem storeAll_stored (hm : s.memOk) (cl a x : Nat) : Claims.Stored s (s.storeAll cl [(a, toLE 4 x)]) a 4 x := by
  constructor
  · intro j hj
    refine (congrArg BitVec.toNat (State.readByte_writeBytes_in _ hm (Nat.le_add_right a j) (by rw [length_toLE]; omega))).trans ?_
    rw [Nat.add_sub_cancel_left, getD_toLE 4 x hj, BitVec.toNat_ofNat]
  · exact fun z hz => State.readByte_writeBytes_other s _ (by rwa [length_toLE])

/-- A change of a domain stores nothing. -/
theorem stored_updDom (x : State) (q : Nat) (f : Domain → Domain) {a n v : Nat} (h : Claims.Stored s x a n v) :
    Claims.Stored s (x.updDom q f) a n v := h

/-! ## The statement -/

/-- Settles O40: the join of each chorus kind; the deliveries of a commit and what may land of a failed collective, with the ends of the
members' records; and the completion by what becomes of its arrival word. -/
theorem chorusAndCompletion : Obligations.ChorusAndCompletion := by
  unfold Obligations.ChorusAndCompletion
  refine ⟨fun s d t r => ?_, ?_, ?_⟩
  · simp only [List.forall_mem_cons, List.not_mem_nil, false_imp_iff, implies_true, and_true]
    exact ⟨chorus_joins, chorus_joins, chorus_joins, chorus_joins, chorus_joins, chorus_joins, chorus_joins⟩
  · intro s d t r ms h hm hr hms ended apart
    refine ⟨⟨_, commit_eq h hr hms, endCollective_ended (delivered_contexts s ms) h.1 ms _ _ _, fun z hz => readByte_delivered_apart hz,
      ?_, fun m x bd bs hx hb hbs halone => delivered_by_kind hm hx hb halone hbs rfl⟩,
      fun reason lt hf => ⟨_, failure_eq h hr hms hf, endCollective_ended (failed_contexts s ms reason) h.1 ms _ _ _,
        fun z hz => failed_outside hz reason, fun hreason => ?_⟩⟩
    · intro x y b c n hpair hx hy hsrc hdst
      subst hpair
      exact pair_delivers hm hx hy hsrc hdst
    · rw [failed, if_pos hreason]
      rfl
  · intro s d t r h hlt hlen hm hr value done word
    refine ⟨fun habsent => ⟨_, completion_eq h hr, ?_⟩, fun b ha hw => ⟨fun hs => ⟨_, completion_eq h hr, ?_⟩,
      fun hs => ⟨_, completion_eq h hr, ?_⟩⟩⟩
    · rw [arrive_absent habsent]
      exact ⟨completed_done (.refl s) h hlt hlen hr r.fault, rfl⟩
    · rw [arrive_sound ha hw hs, withFault_none]
      exact ⟨completed_done (sameContexts_storeAll s _ _) h hlt hlen hr r.fault, stored_updDom _ _ _ (storeAll_stored hm _ _ _)⟩
    · obtain ⟨a, harrive⟩ := arrive_flawed ha hw hs
      rw [harrive, withFault_eq]
      exact ⟨rfl, a, completed_done (sameContexts_countFlaws s _) h hlt hlen hr _⟩

end Sys2Proof.Chorus
end

section
/-!
SUPPORT. What the storage reads after a range is cleared, copied or filtered, and what these operations leave of the rest of the state
(06 R136).
-/

namespace Sys2Proof.Shadow

open Sys2Proof Sys2Proof.Machine Sys2Proof.Laws Sys2Proof.Banks Sys2Proof.Chorus

variable {s : State}

/-- Storage that loses whole locations reads 0 there, and elsewhere as before. -/
theorem readCells_filter (p : Nat → Bool) (m : List Host.Cell) (a : Nat) :
    readCells (m.filter (fun x => p x.1)) a = if p a = true then readCells m a else unlisted := by
  induction m with
  | nil => exact (ite_self _).symm
  | cons x m ih =>
    obtain ⟨k, b⟩ := x
    by_cases hk : k = a
    · subst hk
      cases hp : p k
      · rw [List.filter_cons_of_neg (by simp [hp]), ih, hp, if_neg Bool.false_ne_true, if_neg Bool.false_ne_true]
      · rw [List.filter_cons_of_pos (by simp [hp]), if_pos rfl, readCells, readCells, if_pos rfl, if_pos rfl]
    · have hskip : readCells ((k, b) :: m) a = readCells m a := by rw [readCells, if_neg hk]
      rw [hskip, ← ih, List.filter_cons]
      split
      · rw [readCells, if_neg hk]
      · rfl

theorem readByte_clearRange (s : State) (a n x : Nat) :
    (s.clearRange a n).readByte x = if x < a ∨ a + n ≤ x then s.readByte x else 0 := by
  refine (readCells_filter (fun k => decide (k < a) || decide (a + n ≤ k)) s.mem x).trans ?_
  simp only [Bool.or_eq_true, decide_eq_true_eq]
  rfl

theorem moveFlaws_kept (s : State) (src dst n : Nat) : (s.moveFlaws src dst n).mem = s.mem ∧
    (s.moveFlaws src dst n).clusters = s.clusters ∧ (s.moveFlaws src dst n).domains = s.domains ∧
    (s.moveFlaws src dst n).fused = s.fused ∧ (s.moveFlaws src dst n).cur = s.cur ∧
    (s.moveFlaws src dst n).seqBases = s.seqBases := by
  unfold State.moveFlaws
  dsimp only
  split <;> exact ⟨rfl, rfl, rfl, rfl, rfl, rfl⟩

theorem readByte_moveFlaws (s : State) (src dst n x : Nat) : (s.moveFlaws src dst n).readByte x = s.readByte x :=
  congrArg (readCells · x) (moveFlaws_kept s src dst n).1

theorem copyOver_kept (s : State) (src dst n : Nat) : (s.copyOver src dst n).clusters = s.clusters ∧
    (s.copyOver src dst n).domains = s.domains ∧ (s.copyOver src dst n).fused = s.fused ∧ (s.copyOver src dst n).cur = s.cur ∧
    (s.copyOver src dst n).seqBases = s.seqBases :=
  (moveFlaws_kept (s.writeBytes dst (s.readBytes src n)) src dst n).2

theorem readByte_copyOver_other (s : State) {src dst n x : Nat} (h : x < dst ∨ dst + n ≤ x) :
    (s.copyOver src dst n).readByte x = s.readByte x := by
  rw [State.copyOver, readByte_moveFlaws, State.readByte_writeBytes_other _ _ (by rwa [length_readBytes])]

theorem readByte_copyOver_in (hm : s.memOk) (src dst : Nat) {n i : Nat} (h : i < n) :
    (s.copyOver src dst n).readByte (dst + i) = s.readByte (src + i) := by
  rw [State.copyOver, readByte_moveFlaws, State.readByte_writeBytes_in _ hm (by omega) (by rw [length_readBytes]; omega),
    Nat.add_sub_cancel_left, getD_readBytes s h]

theorem readByte_updCluster (s : State) (c : Nat) (f : Cluster → Cluster) (x : Nat) : (s.updCluster c f).readByte x = s.readByte x := rfl

/-- An update that only some clusters' shared lists take leaves a field that it does not change. -/
theorem cluster_of_clusters {s' : State} (h : s'.clusters = s.clusters) (k : Nat) : s'.cluster k = s.cluster k := by
  unfold State.cluster
  rw [h]

end Sys2Proof.Shadow
end

section
/-!
SUPPORT. The gating handshake of a cluster, step by step: each field of CPCTL with its condition, the wake, and the release of the quiesce
(05 R127-R129, 15 R390, 17 R410, R412).
-/

namespace Sys2Proof.Gating

open Sys2Proof Sys2Proof.Machine Sys2Proof.Laws Sys2Proof.Banks Sys2Proof.Chorus Sys2Proof.Shadow

variable {s : State} {cl : Nat}

/-! ## Fields of CPCTL -/

/-- A quiesce latches its request in a running domain of the cluster, and in no other. -/
theorem quiesceRequest_eq (on : Bool) (d : Domain) : (if on then d.request cQuiesce else d) =
    if on = true ∧ d.phase = .running then d.raise ⟨d.dtick, 0, 8, 34, 0⟩ 0 else d := by
  cases on
  · simp
  · simp [Domain.request, cQuiesce]

theorem qreqSet_eq (s : State) (cl : Nat) : exec (.cpctlQreqSet cl) s = .next { (s.updCluster cl (fun k => { k with cpctl := k.cpctl ||| 1 })) with
    domains := s.domains.map (fun d => if s.onCluster d cl = true ∧ d.phase = .running then d.raise ⟨d.dtick, 0, 8, 34, 0⟩ 0 else d) } := by
  simp only [← quiesceRequest_eq]
  rfl

theorem clkgateSet_eq (s : State) (cl : Nat) : exec (.cpctlClkgateSet cl) s =
    .next (if (s.cluster cl).qack = true ∧ (s.cluster cl).cpctl.getLsbD 1 = false
      then s.updCluster cl (fun k => { k with cpctl := k.cpctl ||| 2, capturing := true }) else s) := by
  show Host.Outcome.next (s.clkgateSet cl) = _
  simp only [State.clkgateSet, Cluster.clkgate, Bool.and_eq_true, Bool.not_eq_true', clkgateBit]

theorem clkgateClear_eq (s : State) (cl : Nat) : exec (.cpctlClkgateClear cl) s =
    .next (if (s.cluster cl).qack = true ∧ (s.cluster cl).rail ≠ .off
      then s.updCluster cl (fun k => { k with cpctl := k.cpctl &&& ~~~2, capturing := false, clkoff := false }) else s) := by
  show Host.Outcome.next (s.clkgateClear cl) = _
  simp only [State.clkgateClear, Bool.and_eq_true, bne_iff_ne, clkgateBit]

theorem railOff_eq (s : State) (cl : Nat) : exec (.cpctlRailOff cl) s =
    .next (if (s.cluster cl).clkoff = true ∧ (s.cluster cl).sealed = true ∧ (s.cluster cl).rail ≠ .off
      then s.updCluster cl (fun k => { k with cpctl := (k.cpctl &&& ~~~12) ||| 8, before := k.rail, switching := some .off }) else s) := by
  show Host.Outcome.next (s.railOff cl) = _
  simp only [State.railOff, Bool.and_eq_true, bne_iff_ne, and_assoc]
  rfl

theorem railSelect_eq (s : State) (cl : Nat) (vl : Bool) : exec (.cpctlRailSelect cl vl) s =
    .next (if ¬((s.cluster cl).rail = .off ∨ (s.cluster cl).switching = some .off ∨ (s.cluster cl).wakepend = true)
      then s.updCluster cl (fun k => { k with cpctl := (k.cpctl &&& ~~~12) ||| (if vl then 4 else 0) }) else s) := by
  show Host.Outcome.next (s.railSelect cl vl) = _
  simp only [State.railSelect, Bool.and_eq_true, bne_iff_ne, Bool.not_eq_true', not_or, and_assoc, Bool.not_eq_true]
  cases vl <;> rfl

theorem cpwake_eq (s : State) (cl : Nat) : exec (.cpwake cl) s =
    .next (if (s.cluster cl).rail = .off ∧ (s.cluster cl).cpctl.getLsbD 4 = true
      then s.updCluster cl (fun k => { k with wakepend := true, switching := some k.before }) else s) := by
  show Host.Outcome.next (s.wake cl) = _
  simp only [State.wake, Cluster.wakeen, Bool.and_eq_true, beq_iff_eq]

theorem railSwitchDone_eq {r : Rail} (h : (s.cluster s.cur.cluster).switching = some r) : exec .railSwitchDone s =
    .next (s.updCluster s.cur.cluster (fun k => { k with rail := r, switching := none })) := by
  refine congrArg (fun k => Host.Outcome.next (s.updCluster s.cur.cluster (fun _ => k))) ?_
  rw [h]

/-! ## The wake -/

/-- A bank that a launch uses, or that leaves one: a wake reloads it. -/
def Held (u : BankUse) : Prop := u = .used ∨ u = .leaving

/-- The counter of free values moved on. -/
def withFresh (n : Nat) (s : State) : State := { s with fresh := n }

theorem pooled_kept (s : State) (k a n : Nat) (l : List Byte) : (withFresh k ((s.clearRange a n).writeBytes a l)).clusters = s.clusters ∧
    (withFresh k ((s.clearRange a n).writeBytes a l)).domains = s.domains := ⟨rfl, rfl⟩

theorem readByte_withFresh (n : Nat) (s : State) (x : Nat) : (withFresh n s).readByte x = s.readByte x := rfl

theorem reloadBank_held {c b : Nat} (hu : Held ((s.cluster c).banks.getD b .free)) : s.reloadBank c b =
    (s.clearRange (locBank c b 0) (2 ^ 19)).copyOver (locShadow c (planeBank b)) (locBank c b 0) (2 ^ 19) := by
  rcases hu with hu | hu <;> simp only [State.reloadBank, hu, if_true]

theorem reloadBank_pool {c b : Nat} (hu : ¬Held ((s.cluster c).banks.getD b .free)) : s.reloadBank c b =
    withFresh (s.fresh + 2 ^ 19) ((s.clearRange (locBank c b 0) (2 ^ 19)).writeBytes (locBank c b 0) (freeBytes s.fresh (2 ^ 19))) := by
  unfold Held at hu
  generalize hb : (s.cluster c).banks.getD b .free = u at hu
  cases u <;> simp_all only [State.reloadBank, if_false, reduceCtorEq, or_false, or_true, not_true, Bool.false_eq_true, or_self, not_false_iff, withFresh]

theorem reloadBank_kept (s : State) (c b : Nat) : (s.reloadBank c b).clusters = s.clusters ∧ (s.reloadBank c b).domains = s.domains := by
  by_cases hu : Held ((s.cluster c).banks.getD b .free)
  · rw [reloadBank_held hu]
    exact ⟨(copyOver_kept _ _ _ _).1, (copyOver_kept _ _ _ _).2.1⟩
  · rw [reloadBank_pool hu]
    exact pooled_kept s _ _ _ _

theorem length_freeBytes (k n : Nat) : (freeBytes k n).length = n := by rw [freeBytes, List.length_map, List.length_range]

theorem readByte_reloadBank_other (s : State) {c b x : Nat} (h : x < locBank c b 0 ∨ locBank c b 0 + 2 ^ 19 ≤ x) :
    (s.reloadBank c b).readByte x = s.readByte x := by
  have hclear : (s.clearRange (locBank c b 0) (2 ^ 19)).readByte x = s.readByte x := by rw [readByte_clearRange, if_pos h]
  by_cases hu : Held ((s.cluster c).banks.getD b .free)
  · rw [reloadBank_held hu, readByte_copyOver_other _ h, hclear]
  · rw [reloadBank_pool hu, readByte_withFresh, State.readByte_writeBytes_other _ _ (by rwa [length_freeBytes]), hclear]

theorem readByte_reloadBank_held (hm : s.memOk) {c b i : Nat} (hc : c < 256) (hi : i < 2 ^ 19)
    (hu : Held ((s.cluster c).banks.getD b .free)) :
    (s.reloadBank c b).readByte (locBank c b i) = s.readByte (locShadow c (b * 2 ^ 19 + i)) := by
  have hsource : locShadow c (planeBank b) + i = locShadow c (b * 2 ^ 19 + i) := by simp only [locShadow, planeBank, Nat.add_assoc]
  have hapart : locBank c b 0 + 2 ^ 19 ≤ locShadow c (b * 2 ^ 19 + i) := by
    simp only [locBank, locShadow, region]
    omega
  have htarget : locBank c b i = locBank c b 0 + i := by
    unfold locBank
    omega
  rw [reloadBank_held hu, htarget, readByte_copyOver_in (memOk_clearRange hm _ _) _ _ hi, hsource, readByte_clearRange,
    if_pos (.inr hapart)]

/-- The banks of a list, one after another. -/
def reloaded (c : Nat) (bs : List Nat) (s : State) : State := bs.foldl (fun s b => s.reloadBank c b) s

theorem reloaded_kept (c : Nat) (bs : List Nat) : ∀ s : State, (reloaded c bs s).clusters = s.clusters ∧ (reloaded c bs s).domains = s.domains := by
  induction bs with
  | nil => exact fun _ => ⟨rfl, rfl⟩
  | cons b bs ih => exact fun s => ⟨(ih _).1.trans (reloadBank_kept s c b).1, (ih _).2.trans (reloadBank_kept s c b).2⟩

theorem readByte_reloaded_other {c x : Nat} {bs : List Nat} : ∀ {s : State}, (∀ b ∈ bs, x < locBank c b 0 ∨ locBank c b 0 + 2 ^ 19 ≤ x) →
    (reloaded c bs s).readByte x = s.readByte x := by
  induction bs with
  | nil => exact fun _ => rfl
  | cons b bs ih => exact fun h => (ih (fun d hd => h d (List.mem_cons_of_mem b hd))).trans (readByte_reloadBank_other _ (h b List.mem_cons_self))

theorem readByte_reloaded_held {c b i : Nat} (hc : c < 256) (hi : i < 2 ^ 19) {bs : List Nat} : ∀ {s : State}, s.memOk → bs.Nodup →
    (∀ d ∈ bs, d < 16) → b ∈ bs → Held ((s.cluster c).banks.getD b .free) →
    (reloaded c bs s).readByte (locBank c b i) = s.readByte (locShadow c (b * 2 ^ 19 + i)) := by
  induction bs with
  | nil => exact fun _ _ _ h => absurd h List.not_mem_nil
  | cons d bs ih =>
    intro s hm hnd hlt hb hu
    obtain ⟨hd, hnd⟩ := List.nodup_cons.1 hnd
    have hd16 := hlt d List.mem_cons_self
    rcases List.mem_cons.1 hb with rfl | hb
    · refine Eq.trans (readByte_reloaded_other (s := s.reloadBank c b) (bs := bs) (fun k hk => ?_)) (readByte_reloadBank_held hm hc hi hu)
      have hkb : k ≠ b := fun h => hd (h ▸ hk)
      simp only [locBank]
      omega
    · refine (ih (memOk_reloadBank hm c d) hnd (fun k hk => hlt k (List.mem_cons_of_mem d hk)) hb
        ((cluster_of_clusters (reloadBank_kept s c d).1 c).symm ▸ hu)).trans (readByte_reloadBank_other s ?_)
      simp only [locBank, locShadow, region]
      omega

theorem wakeRestoreDone_eq (s : State) : exec .wakeRestoreDone s =
    .next ((reloaded s.cur.cluster (List.range 16) s).updCluster s.cur.cluster (fun c => { c with
      cpctl := withRail c.cpctl (railCode c.before) &&& ~~~clkgateBit
      rail := c.before
      switching := none
      clkoff := false
      wakepend := false })) := rfl

theorem wake_restores (hc : s.cur.cluster < 256) (hm : s.memOk) : Completes (exec .wakeRestoreDone s) (fun s' => s'.domains = s.domains ∧
    (∃ k, k = s'.cluster s.cur.cluster ∧ k.rail = (s.cluster s.cur.cluster).before ∧ k.clkoff = false ∧ k.wakepend = false ∧
      k.banks = (s.cluster s.cur.cluster).banks ∧ k.cpctl.getLsbD 1 = false) ∧
    ∀ b < 16, Held ((s.cluster s.cur.cluster).banks.getD b .free) → ∀ i < 2 ^ 19,
      s'.readByte (locBank s.cur.cluster b i) = s.readByte (locShadow s.cur.cluster (b * 2 ^ 19 + i))) := by
  obtain ⟨hclusters, hdomains⟩ := reloaded_kept s.cur.cluster (List.range 16) s
  have hcl := cluster_of_clusters hclusters s.cur.cluster
  refine ⟨_, wakeRestoreDone_eq s, ?_, ⟨_, rfl, ?_⟩, fun b hb hu i hi => ?_⟩
  · rw [State.updCluster_domains, hdomains]
  · rw [cluster_updCluster, if_pos rfl, hcl]
    exact ⟨rfl, rfl, rfl, rfl, by simp [clkgateBit]⟩
  · rw [readByte_updCluster]
    exact readByte_reloaded_held hc hi hm List.nodup_range (fun d hd => List.mem_range.1 hd) (List.mem_range.2 hb) hu

/-! ## The release of the quiesce -/

/-- The condition under which a domain goes on once a cluster's quiesce ends (assumption 67). -/
def Resumes (s : State) (cl : Nat) (d : Domain) : Prop :=
  s.onCluster d cl = true ∧ d.phase = .halted ∧ d.parked = false ∧ s.contextsHeld d = true ∧
    (∀ x ∈ d.causes, x.code = 34) ∧ (∀ x ∈ d.tiles, ∀ f ∈ x.flights, f.owed = false) ∧
    ∀ k ∈ s.runsOn d, k = cl ∨ (s.cluster k).cpctl.getLsbD 0 = false

/-- The cluster whose quiesce is released. -/
def unquiesced (c : Cluster) : Cluster := { c with cpctl := c.cpctl &&& ~~~1, qack := false, sealed := false, sealReq := false }

/-- The model's test of a domain that goes on, by the clusters as the release leaves them. -/
def resumeTest (s : State) (cl : Nat) (d : Domain) : Bool :=
  s.onCluster d cl && s.requestsOnly d && d.causes.all (fun c => c.code == cQuiesce) &&
    (s.runsOn d).all (fun k => !((s.updCluster cl unquiesced).cluster k).qreq)

/-- The state that a release leaves. -/
def released (s : State) (cl : Nat) : State :=
  { s.updCluster cl unquiesced with domains := s.domains.map (fun d => if resumeTest s cl d then d.resumeHalted else d) }

theorem released_cluster (s : State) (cl : Nat) : (released s cl).cluster cl = unquiesced (s.cluster cl) :=
  (cluster_updCluster s cl unquiesced cl).trans (if_pos rfl)

theorem qreqClear_eq (s : State) (cl : Nat) : exec (.cpctlQreqClear cl) s =
    .next (if (s.cluster cl).wakepend = false ∧ (s.cluster cl).rail ≠ .off then released s cl else s) := by
  show Host.Outcome.next (s.qreqClear cl) = _
  by_cases h : (s.cluster cl).wakepend = false ∧ (s.cluster cl).rail ≠ .off
  · rw [if_pos h, State.qreqClear, if_pos (by simpa using h)]
    rfl
  · rw [if_neg h, State.qreqClear, if_neg (by simpa using h)]

theorem resumeTest_iff (s : State) (cl : Nat) (d : Domain) : resumeTest s cl d = true ↔ Resumes s cl d := by
  have hqreq (k : Nat) : ((s.updCluster cl unquiesced).cluster k).cpctl.getLsbD 0 = false ↔ k = cl ∨ (s.cluster k).cpctl.getLsbD 0 = false := by
    rw [cluster_updCluster]
    split
    · next h => simp [h, unquiesced]
    · next h => simp [h]
  have hrequest : (∀ x ∈ d.causes, requestCode x.code = true) ∧ (∀ x ∈ d.causes, x.code = 34) ↔ ∀ x ∈ d.causes, x.code = 34 :=
    ⟨fun h => h.2, fun h => ⟨fun x hx => by rw [h x hx]; rfl, h⟩⟩
  unfold Resumes resumeTest
  rw [← hrequest]
  simp only [State.requestsOnly, State.parkedOut, Cluster.qreq, Bool.and_eq_true, List.all_eq_true, Bool.not_eq_true', beq_iff_eq,
    Bool.or_eq_false_iff, Bool.not_eq_false', hqreq, cQuiesce]
  tauto

theorem qreqClear_releases (hw : (s.cluster cl).wakepend = false) (hr : (s.cluster cl).rail ≠ .off) :
    Completes (exec (.cpctlQreqClear cl) s) (fun s' => s'.mem = s.mem ∧
      (∃ k, k = s'.cluster cl ∧ k.cpctl = (s.cluster cl).cpctl &&& ~~~1 ∧ k.qack = false ∧ k.sealed = false ∧ k.sealReq = false) ∧
      ∀ d ∈ s.domains, (Resumes s cl d → Claims.resumed d ∈ s'.domains) ∧ (¬Resumes s cl d → d ∈ s'.domains)) := by
  refine ⟨released s cl, (qreqClear_eq s cl).trans (congrArg Host.Outcome.next (if_pos ⟨hw, hr⟩)), rfl, ⟨_, rfl, ?_⟩, fun d hd => ?_⟩
  · rw [released_cluster]
    exact ⟨rfl, rfl, rfl, rfl⟩
  · have hmem : (if resumeTest s cl d then d.resumeHalted else d) ∈ (released s cl).domains := List.mem_map_of_mem hd
    rw [← resumeTest_iff]
    exact ⟨fun h => by rwa [if_pos h] at hmem, fun h => by rwa [if_neg h] at hmem⟩

/-! ## The statement -/

/-- What a conditional step does where its condition holds. -/
theorem next_of_pos {p : Prop} [Decidable p] {o : Out} {x y : State} (h : o = .next (if p then x else y)) (hp : p) : o = .next x := by
  rw [h, if_pos hp]

theorem next_of_neg {p : Prop} [Decidable p] {o : Out} {x y : State} (h : o = .next (if p then x else y)) (hp : ¬p) : o = .next y := by
  rw [h, if_neg hp]

/-- Settles O46: each step of the handshake by its condition, the banks that a wake restores, and the domains that the end of a quiesce
resumes. -/
theorem gatingHandshake : Obligations.GatingHandshake := by
  unfold Obligations.GatingHandshake
  intro s cl vl
  exact ⟨qreqSet_eq s cl, rfl, fun h h' => next_of_pos (clkgateSet_eq s cl) ⟨h, h'⟩, next_of_neg (clkgateSet_eq s cl), rfl,
    fun h h' => next_of_pos (clkgateClear_eq s cl) ⟨h, h'⟩, next_of_neg (clkgateClear_eq s cl),
    fun h h' h'' => next_of_pos (railOff_eq s cl) ⟨h, h', h''⟩, next_of_neg (railOff_eq s cl), next_of_pos (railSelect_eq s cl vl),
    fun h => next_of_neg (railSelect_eq s cl vl) (not_not_intro h), fun r => railSwitchDone_eq,
    fun h h' => next_of_pos (cpwake_eq s cl) ⟨h, h'⟩, next_of_neg (cpwake_eq s cl), wake_restores, qreqClear_releases,
    next_of_neg (qreqClear_eq s cl)⟩

end Sys2Proof.Gating
end

section
/-!
SUPPORT. What a loss of power takes from storage and from the domains, and what every domain that its task's end has freed takes with it
(05, Unplanned loss and resume; 02 R49).
-/

namespace Sys2Proof.Recovery

open Sys2Proof Sys2Proof.Machine Sys2Proof.Laws Sys2Proof.Banks Sys2Proof.Chorus Sys2Proof.Shadow

variable {s : State} {cls : List Nat}

/-! ## Domains that leave -/

/-- Banks going back to the pool change no byte and no domain. -/
theorem poolBanks_kept (gone : List Domain) : ∀ s : State,
    let s1 := gone.foldl (fun s d => d.clusterList.foldl (fun s c => (d.heldBanks c).foldl (fun s b => s.setBank c b .clearing) s) s) s
    s1.mem = s.mem ∧ s1.domains = s.domains := by
  have hbanks (c : Nat) (bs : List Nat) (s : State) : (bs.foldl (fun s b => s.setBank c b .clearing) s).mem = s.mem ∧
      (bs.foldl (fun s b => s.setBank c b .clearing) s).domains = s.domains := by
    induction bs generalizing s with
    | nil => exact ⟨rfl, rfl⟩
    | cons b bs ih => exact ⟨(ih _).1, (ih _).2⟩
  have hclusters (d : Domain) (cs : List Nat) (s : State) :
      (cs.foldl (fun s c => (d.heldBanks c).foldl (fun s b => s.setBank c b .clearing) s) s).mem = s.mem ∧
      (cs.foldl (fun s c => (d.heldBanks c).foldl (fun s b => s.setBank c b .clearing) s) s).domains = s.domains := by
    induction cs generalizing s with
    | nil => exact ⟨rfl, rfl⟩
    | cons c cs ih => exact ⟨(ih _).1.trans (hbanks _ _ _).1, (ih _).2.trans (hbanks _ _ _).2⟩
  induction gone with
  | nil => exact fun _ => ⟨rfl, rfl⟩
  | cons d gone ih => exact fun s => ⟨(ih _).1.trans (hclusters d _ s).1, (ih _).2.trans (hclusters d _ s).2⟩

theorem releaseFreed_mem (s : State) : s.releaseFreed.mem = s.mem := (poolBanks_kept _ s).1

theorem readByte_releaseFreed (s : State) (x : Nat) : s.releaseFreed.readByte x = s.readByte x := congrArg (readCells · x) (releaseFreed_mem s)

/-- A domain stays unless one of its number has been freed. -/
theorem mem_releaseFreed {d : Domain} (hd : d ∈ s.domains) (hfreed : ∀ e ∈ s.domains, e.seq = d.seq → e.phase ≠ .freed) :
    d ∈ s.releaseFreed.domains := by
  refine List.mem_filter.2 ⟨(poolBanks_kept _ s).2.symm ▸ hd, ?_⟩
  simp only [Bool.not_eq_true', List.any_eq_false, List.mem_filter, Bool.and_eq_true, beq_iff_eq, and_imp]
  exact fun e he hphase _ hseq => hfreed e he hseq hphase

/-! ## The clusters that are struck -/

/-- A working cluster that the loss strikes. -/
def Hit (s : State) (cls : List Nat) (c : Nat) : Prop := c ∈ cls ∧ c ∉ s.fused ∧ (s.cluster c).rail ≠ .off ∧ (s.cluster c).wakepend = false

/-- A struck cluster, or a fused one whose host is struck (02 R49). -/
def Gone (s : State) (cls : List Nat) (c : Nat) : Prop := Hit s cls c ∨ (c ∈ s.fused ∧ ∃ h, hostNode s.fused c = some h ∧ Hit s cls h)

/-- The clusters that the model finds struck. -/
def hitList (s : State) (cls : List Nat) : List Nat := cls.filter (fun c => !s.fused.contains c && !s.keepsPower c)

def goneList (s : State) (cls : List Nat) : List Nat :=
  hitList s cls ++ s.fused.filter (fun f => match s.hostOf f with
    | some h => (hitList s cls).contains h
    | none => false)

theorem seatOf_working {c : Nat} (h : c ∉ s.fused) : s.seatOf c = c := by
  rw [State.seatOf, State.hostOf, if_neg (by simpa using h), Option.getD_none]

theorem mem_hitList {c : Nat} : c ∈ hitList s cls ↔ Hit s cls c := by
  unfold hitList Hit
  rw [List.mem_filter]
  refine and_congr_right fun _ => ?_
  simp only [Bool.and_eq_true, Bool.not_eq_true', List.contains_eq_mem, decide_eq_false_iff_not]
  refine and_congr_right fun hc => ?_
  simp [State.keepsPower, seatOf_working hc]

theorem mem_goneList {c : Nat} : c ∈ goneList s cls ↔ Gone s cls c := by
  unfold goneList Gone
  rw [List.mem_append, mem_hitList, List.mem_filter]
  refine or_congr_right (and_congr_right fun hc => ?_)
  rw [State.hostOf, if_pos (by simpa using hc)]
  cases hostNode s.fused c with
  | none => simp
  | some h => simp [mem_hitList]

/-! ## The loss -/

/-- A location whose storage the loss leaves. -/
def spared (s : State) (cls : List Nat) (x : Nat) : Bool := match liveCluster x with
  | some c => !(goneList s cls).contains c
  | none => true

theorem spared_iff {x : Nat} : spared s cls x = true ↔ ¬∃ c, liveCluster x = some c ∧ Gone s cls c := by
  unfold spared
  split
  · next c hc => simp [hc, mem_goneList]
  · next hc => simp [hc]

theorem readByte_losePower (s : State) (cls : List Nat) (x : Nat) : (s.losePower cls).readByte x =
    if spared s cls x = true then s.readByte x else 0 := readCells_filter (spared s cls) s.mem x

/-- What the loss makes of a domain. -/
def afterLoss (s : State) (cls : List Nat) (d : Domain) : Domain :=
  if !d.phase.over && d.clusterList.any (fun c => (goneList s cls).contains c)
    then { d with phase := .lost, parked := s.parkedOut d } else d

theorem losePower_domains (s : State) (cls : List Nat) : (s.losePower cls).domains = s.domains.map (afterLoss s cls) := rfl

theorem afterLoss_seq (s : State) (cls : List Nat) (d : Domain) : (afterLoss s cls d).seq = d.seq := by
  unfold afterLoss
  split <;> rfl

theorem afterLoss_struck {d : Domain} (hp : d.phase = .running) (hg : ∃ t ∈ d.tiles, Gone s cls t.cluster) :
    afterLoss s cls d = { d with phase := .lost, parked := s.parkedOut d } := by
  obtain ⟨t, ht, hg⟩ := hg
  have hany : d.clusterList.any (fun c => (goneList s cls).contains c) = true := List.any_eq_true.2
    ⟨t.cluster, by simpa [Domain.clusterList] using ⟨t, ht, rfl⟩, by simpa using mem_goneList.2 hg⟩
  rw [afterLoss, hp, hany]
  rfl

theorem powerLoss_strikes (s : State) (cls : List Nat) : Completes (exec (.unplannedPowerLoss cls) s) (fun s' =>
    (∀ x, (∃ c, liveCluster x = some c ∧ Gone s cls c) → s'.readByte x = 0) ∧
    (∀ x, (¬∃ c, liveCluster x = some c ∧ Gone s cls c) → s'.readByte x = s.readByte x) ∧
    ∀ d ∈ s.domains, d.phase = .running → (∃ t ∈ d.tiles, Gone s cls t.cluster) → (∀ e ∈ s.domains, e.seq = d.seq → e = d) →
      { d with phase := .lost, parked := s.parkedOut d } ∈ s'.domains) := by
  refine ⟨(s.losePower cls).releaseFreed, rfl, fun x hx => ?_, fun x hx => ?_, fun d hd hp hg halone => ?_⟩
  · rw [readByte_releaseFreed, readByte_losePower, if_neg (mt spared_iff.1 (not_not_intro hx))]
  · rw [readByte_releaseFreed, readByte_losePower, if_pos (spared_iff.2 hx)]
  · have hlost := afterLoss_struck hp hg
    refine mem_releaseFreed (losePower_domains s cls ▸ hlost ▸ List.mem_map_of_mem hd) (fun e he hseq => ?_)
    obtain ⟨e₀, he₀, rfl⟩ := List.mem_map.1 (losePower_domains s cls ▸ he)
    rw [halone e₀ he₀ ((afterLoss_seq s cls e₀).symm.trans hseq), hlost]
    exact nofun

end Sys2Proof.Recovery
end

section
/-!
SUPPORT. The stages of a boot and what each leaves of BOOTST, the reports of the firmware, the load of an image in RECOVERY and the links'
trainings (18 R428, R437, R439; 14 R364).
-/

namespace Sys2Proof.Recovery

open Sys2Proof Sys2Proof.Machine Sys2Proof.Laws Sys2Proof.Banks Sys2Proof.Chorus Sys2Proof.Shadow

variable {s : State} {m : Nat}

/-! ## Masters (18 R424, R426, R432) -/

theorem isHostMaster_iff (m : Nat) : isHostMaster m = true ↔ 0x3F0 ≤ m ∧ m ≤ 0x3FF := by simp [isHostMaster]

theorem isSupMaster_iff (m : Nat) : isSupMaster m = true ↔ m ∈ [0x10F, 0x11F, 0x12F, 0x13F] := by simp [isSupMaster, or_assoc]

theorem hostUp_iff (s : State) : s.hostUp = true ↔ s.linkUp 0 = true ∨ s.linkUp 1 = true := by simp [State.hostUp]

theorem reaches_iff (s : State) (m : Nat) : s.reaches m = true ↔ Claims.Heard s m := by
  unfold State.reaches Claims.Heard
  rw [Bool.or_eq_true, hostUp_iff, Bool.not_eq_true', ← and_imp, ← isHostMaster_iff]
  cases isHostMaster m <;> simp

theorem cfgAllowed_iff (s : State) (m : Nat) : s.cfgAllowed m = true ↔ Claims.CfgRight s m := by
  unfold State.cfgAllowed Claims.CfgRight
  rw [Bool.or_eq_true, isSupMaster_iff, Bool.and_eq_true]

theorem deny_eq (s : State) : s.deny = Claims.denied s := by
  have hfull : s.intst.extractLsb' 48 16 = 0xFFFF ↔ s.intst.toNat / 2 ^ 48 = 0xFFFF := by
    rw [← BitVec.toNat_inj, Translation.extract_toNat, Nat.mod_eq_of_lt (by have := s.intst.isLt; omega)]
    rfl
  unfold State.deny Claims.denied
  simp only [hfull]
  split <;> rfl

/-- A write that the "Written by" column leaves to the host: what each master's does. -/
theorem byHost_of {i : Instr} {f : State → State} {r : Reg} {P : Prop} (hr : ∀ w, mayWrite w r = (w == .host))
    (hi : exec i s = .next (s.window m (fun s => if mayWrite (whoOf m) r then f s else s))) (hP : exec i s = .next (f s) → P) :
    Claims.ByHost s m i P := by
  have hwho : (whoOf m == .host) = isHostMaster m := by
    unfold whoOf
    cases isHostMaster m <;> cases isSupMaster m <;> rfl
  rw [hr, hwho] at hi
  refine ⟨fun h => ?_, fun h h' => ?_, fun h h' h'' => ?_, fun h h' hlo hhi => hP ?_⟩
  · rw [hi, State.window, if_pos (by simpa using mt (reaches_iff s m).1 h)]
  all_goals rw [hi, State.window, if_neg (by simpa using (reaches_iff s m).2 h)]
  · rw [if_pos (by simpa using mt (cfgAllowed_iff s m).1 h'), deny_eq]
  all_goals rw [if_neg (by simpa using (cfgAllowed_iff s m).2 h')]
  · rw [if_neg (mt (isHostMaster_iff m).1 h'')]
  · rw [if_pos ((isHostMaster_iff m).2 ⟨hlo, hhi⟩)]

/-! ## BOOTST -/

theorem bootst_bootLast (s : State) (ok : Bool) : (s.bootLast ok).bootst.toNat = (if ok then 0 else 7) * 16 + 7 := by
  cases ok <;> rfl

theorem bootst_bootImage (s : State) (ok : Bool) : (s.bootImage ok).bootst.toNat =
    if s.imageOk (locFlash 0) = true then (if ok then 0 else 7) * 16 + 7 else 0x68 := by
  unfold State.bootImage
  split
  · exact bootst_bootLast _ ok
  · rfl

theorem stage_of_bootLast (s : State) (ok : Bool) : (s.bootLast ok).bootst.toNat % 16 = 7 := by
  rw [bootst_bootLast]
  cases ok <;> rfl

/-! ## What the boot leaves alone -/

/-- Everything but the links, BOOTST, the adopted image and the counter of free values. -/
structure SameModule (s s' : State) : Prop where
  mem : s'.mem = s.mem
  parts : s'.parts = s.parts
  macl : s'.macl = s.macl
  leases : s'.leases = s.leases
  queues : s'.queues = s.queues
  fused : s'.fused = s.fused
  nextSeq : s'.nextSeq = s.nextSeq
  seqBases : s'.seqBases = s.seqBases

theorem SameModule.refl (s : State) : SameModule s s := ⟨rfl, rfl, rfl, rfl, rfl, rfl, rfl, rfl⟩

theorem SameModule.trans {s' s'' : State} (h : SameModule s s') (k : SameModule s' s'') : SameModule s s'' :=
  ⟨k.mem.trans h.mem, k.parts.trans h.parts, k.macl.trans h.macl, k.leases.trans h.leases, k.queues.trans h.queues, k.fused.trans h.fused,
    k.nextSeq.trans h.nextSeq, k.seqBases.trans h.seqBases⟩

theorem sameModule_setBoot (s : State) (stage err : Nat) : SameModule s (s.setBoot stage err) := ⟨rfl, rfl, rfl, rfl, rfl, rfl, rfl, rfl⟩

theorem sameModule_tickFresh (s : State) : SameModule s s.tickFresh := ⟨rfl, rfl, rfl, rfl, rfl, rfl, rfl, rfl⟩

theorem sameModule_bootLast (s : State) (ok : Bool) : SameModule s (s.bootLast ok) := sameModule_setBoot s _ _

theorem sameModule_train (s : State) (l : Nat) (r : Training) : SameModule s (s.train l r) := by
  unfold State.train
  split
  · exact .refl s
  · exact ⟨rfl, rfl, rfl, rfl, rfl, rfl, rfl, rfl⟩

theorem bootst_train (s : State) (l : Nat) (r : Training) : (s.train l r).bootst = s.bootst := by
  unfold State.train
  split <;> rfl

theorem sameModule_adopt (s : State) (loc : Nat) : SameModule s (s.adopt loc) := by
  constructor <;> simp only [State.adopt]

theorem sameModule_bootImage (s : State) (ok : Bool) : SameModule s (s.bootImage ok) := by
  unfold State.bootImage
  split
  · exact (sameModule_adopt s _).trans (sameModule_setBoot _ _ _)
  · exact sameModule_setBoot s 8 6

theorem sameModule_boot (s : State) (b : BootInputs) : SameModule s (s.boot b) := by
  have htrained := (sameModule_train s 0 b.link0).trans (sameModule_train _ 1 b.link1)
  unfold State.boot
  dsimp only
  split
  · exact sameModule_setBoot s 3 3
  · split
    · exact sameModule_setBoot s 4 4
    · split
      · exact htrained.trans (sameModule_bootImage _ _)
      · exact htrained.trans (sameModule_setBoot _ 5 0)

/-! ## The numbers of a reset (14 R364) -/

theorem foldl_max_succ (l : List Nat) : ∀ x : Nat, (l.map (· + 1)).foldl max (x + 1) = l.foldl max x + 1 := by
  induction l with
  | nil => exact fun _ => rfl
  | cons y l ih => exact fun x => by rw [List.map_cons, List.foldl_cons, List.foldl_cons, ← ih, Nat.succ_max_succ]

theorem seqOf_nextSeq_of_sameModule {s' : State} (h : SameModule s s') : s'.seqOf s'.nextSeq = s.seqOf s.nextSeq := by
  unfold State.seqOf
  rw [h.nextSeq, h.seqBases]

/-- The number of the launch that comes first after a reset. -/
theorem seqOf_nextSeq_afterReset (s : State) : s.afterReset.seqOf s.afterReset.nextSeq = 1 := by
  let kept := (s.losePower (List.range 196)).domains.filter (fun d => d.phase == .lost || d.phase == .halted)
  have hnext : s.afterReset.nextSeq = (kept.map (fun d => d.seq)).foldl max 0 + 1 := by
    show (kept.map (fun d => d.seq + 1)).foldl max 1 = _
    rw [← foldl_max_succ, List.map_map]
    rfl
  have hbases : s.afterReset.seqBases = if kept.isEmpty then [] else (kept.map (fun d => d.seq)).foldl max 0 :: s.seqBases := rfl
  rw [State.seqOf, hnext, hbases]
  by_cases hk : kept = []
  · rw [hk]
    rfl
  · rw [if_neg (by simpa using hk), List.find?_cons_of_pos (by simp)]
    exact Nat.add_sub_cancel_left _ 1

/-! ## Resets -/

theorem boot_fuse {b : BootInputs} (h : b.fuseOk = false) (s : State) : s.boot b = s.setBoot 3 3 := by
  rw [State.boot, h]
  rfl

theorem boot_hbm {b : BootInputs} (h : b.fuseOk = true) (h' : b.hbmOk = false) (s : State) : s.boot b = s.setBoot 4 4 := by
  rw [State.boot, h, h']
  rfl

theorem boot_links {b : BootInputs} (h : b.fuseOk = true) (h' : b.hbmOk = true) (s : State) : s.boot b =
    if ((s.train 0 b.link0).train 1 b.link1).hostUp = true then ((s.train 0 b.link0).train 1 b.link1).bootImage b.selfTestOk
      else ((s.train 0 b.link0).train 1 b.link1).setBoot 5 0 := by
  rw [State.boot, h, h']
  rfl

theorem region_eq (r : Nat) : region r = r * 2 ^ 48 := by rw [region]

/-- A location above the accelerators' storage that no reset clears, and one of HBM, which it does. -/
theorem survives_shadow (s : State) {x : Nat} (h : 7 * 2 ^ 48 ≤ x) (h' : x < 8 * 2 ^ 48) : s.survives x = true := by
  have hlive : liveCluster x = none := by
    unfold liveCluster
    simp only [region_eq]
    rw [if_neg (by omega), if_neg (by omega), if_neg (by omega), if_neg (by omega), if_neg (by omega)]
  unfold State.survives
  rw [hlive]
  simp only [region_eq, Bool.or_eq_true, Bool.and_eq_true, decide_eq_true_eq]
  omega

theorem survives_hbm (s : State) {x : Nat} (h : x < 2 * 2 ^ 48) : s.survives x = false := by
  have hlive : liveCluster x = none := by
    unfold liveCluster
    rw [if_pos (by rw [region_eq]; omega)]
  unfold State.survives
  rw [hlive]
  simp only [region_eq, Bool.or_eq_false_iff, Bool.and_eq_false_iff, decide_eq_false_iff_not]
  omega

theorem readByte_afterReset (s : State) (x : Nat) : s.afterReset.readByte x = if s.survives x = true then s.readByte x else 0 :=
  readCells_filter s.survives s.mem x

theorem readByte_of_sameModule {s' : State} (h : SameModule s s') (x : Nat) : s'.readByte x = s.readByte x := congrArg (readCells · x) h.mem

/-- What a reset whose fuses fail leaves. -/
theorem coldReset_registers (s : State) (b : BootInputs) : Completes (exec (.coldReset b) s) (fun s' => s'.parts = State.reset.parts ∧
    s'.macl = State.reset.macl ∧ s'.leases = [] ∧ s'.queues = [] ∧ s'.fused = s.fused ∧ (∀ x < 2 * 2 ^ 48, s'.readByte x = 0) ∧
    ∀ x, 7 * 2 ^ 48 ≤ x → x < 8 * 2 ^ 48 → s'.readByte x = s.readByte x) := by
  have hboot := sameModule_boot s.afterReset b
  refine ⟨s.afterReset.boot b, rfl, hboot.parts, hboot.macl, hboot.leases, hboot.queues, hboot.fused, fun x hx => ?_, fun x hlo hhi => ?_⟩
  · rw [readByte_of_sameModule hboot, readByte_afterReset, survives_hbm s hx, if_neg Bool.false_ne_true]
  · rw [readByte_of_sameModule hboot, readByte_afterReset, survives_shadow s hlo hhi, if_pos rfl]

end Sys2Proof.Recovery
end

section
/-!
SUPPORT. The firmware's report: it is a move of the module exactly when the firmware runs and has yet to report, and it sets stage 9
(18 R439).
-/

namespace Sys2Proof.Recovery

open Sys2Proof Sys2Proof.Machine

variable {s : State}

/-! ## Moves that are no report -/

/-- No move of the list is the firmware's report. -/
def Unready (l : List Move) : Prop := Move.ready ∉ l

theorem unready_append {l k : List Move} (hl : Unready l) (hk : Unready k) : Unready (l ++ k) :=
  fun h => (List.mem_append.1 h).elim hl hk

theorem unready_flatMap {α : Type} {f : α → List Move} (hf : ∀ a, Unready (f a)) (l : List α) : Unready (l.flatMap f) :=
  fun h => by
    obtain ⟨a, -, ha⟩ := List.mem_flatMap.1 h
    exact hf a ha

theorem unready_map {α : Type} {f : α → Move} (hf : ∀ a, f a ≠ .ready) (l : List α) : Unready (l.map f) :=
  fun h => by
    obtain ⟨a, -, ha⟩ := List.mem_map.1 h
    exact hf a ha

theorem unready_filterMap {α : Type} {f : α → Option Move} (hf : ∀ a, f a ≠ some .ready) (l : List α) : Unready (l.filterMap f) :=
  fun h => by
    obtain ⟨a, -, ha⟩ := List.mem_filterMap.1 h
    exact hf a ha

theorem unready_ite {c : Prop} [Decidable c] {l k : List Move} (hl : Unready l) (hk : Unready k) : Unready (if c then l else k) := by
  split
  · exact hl
  · exact hk

theorem unready_nil : Unready [] := List.not_mem_nil

theorem unready_single {m : Move} (h : m ≠ .ready) : Unready [m] := fun hm => h (List.mem_singleton.1 hm).symm

theorem unready_if {c : Prop} [Decidable c] {m : Move} (h : m ≠ .ready) : Unready (if c then [m] else []) :=
  unready_ite (unready_single h) unready_nil

/-- An instruction at a place is no report. -/
theorem map_event_ne (o : Option Instr) (f : Instr → Move) (hf : ∀ i, f i ≠ .ready) : o.map f ≠ some .ready := by
  cases o with
  | none => exact nofun
  | some i => exact fun h => hf i (Option.some.inj h)

theorem unready_toList {o : Option Move} (h : o ≠ some .ready) : Unready o.toList := by
  cases o with
  | none => exact unready_nil
  | some m => exact unready_single (fun hm => h (congrArg some hm))

/-! ## The moves of a domain -/

theorem findSome_ne {α : Type} {f : α → Option Move} (hf : ∀ a, f a ≠ some .ready) (l : List α) : l.findSome? f ≠ some .ready :=
  fun h => by
    obtain ⟨a, -, ha⟩ := List.exists_of_findSome?_eq_some h
    exact hf a ha

theorem boundaryMove_ne (s : State) (d : Domain) : boundaryMove s d ≠ some .ready := by
  unfold boundaryMove
  split
  · exact nofun
  · refine findSome_ne (fun t => ?_) _
    dsimp only
    split
    · cases firstIdx _ t.loader <;> exact nofun
    · exact nofun

theorem heldMove_ne (s : State) (d : Domain) (h : Hold) : heldMove s d h ≠ .ready := by
  unfold heldMove
  split
  · exact nofun
  · split
    · split <;> exact nofun
    · have hb := boundaryMove_ne s d
      cases hm : boundaryMove s d with
      | none =>
        rw [Option.getD_none]
        repeat' split
        all_goals exact nofun
      | some m => exact fun h => hb (hm.trans (congrArg some h))

theorem arrivalMove_ne (s : State) (d : Domain) : arrivalMove s d ≠ some .ready := by
  unfold arrivalMove
  split
  · next m hm => exact fun h => boundaryMove_ne s d (hm.trans h)
  · repeat' split
    all_goals exact nofun

theorem openMove_ne (s : State) (d : Domain) : openMove s d ≠ some .ready := by
  unfold openMove
  repeat' split
  all_goals exact nofun

theorem wordMove_ne (d : Domain) : wordMove d ≠ some .ready := by
  refine findSome_ne (fun t => findSome_ne (fun c => ?_) _) _
  split
  · cases t.dueWord c <;> exact nofun
  · exact nofun

theorem sampleMove_ne (d : Domain) : sampleMove d ≠ some .ready := by
  unfold sampleMove
  cases List.find? _ d.tiles <;> exact nofun

theorem closeMove_ne (s : State) (d : Domain) : closeMove s d ≠ some .ready := by
  unfold closeMove
  repeat' split
  all_goals exact nofun

theorem orElse_ne {a b : Option Move} (ha : a ≠ some .ready) (hb : b ≠ some .ready) : a.orElse (fun _ => b) ≠ some .ready := by
  cases a with
  | none => exact hb
  | some m => exact ha

theorem domainMove_ne (s : State) (d : Domain) : domainMove s d ≠ some .ready := by
  unfold domainMove
  split
  · exact fun h => heldMove_ne s d _ (Option.some.inj h)
  · split
    · exact nofun
    · split
      · exact nofun
      · exact orElse_ne (arrivalMove_ne s d) (orElse_ne (openMove_ne s d) (orElse_ne (sampleMove_ne d) (orElse_ne (wordMove_ne d) (closeMove_ne s d))))

theorem tileMoves_unready (s : State) (d : Domain) (t : Tile) : Unready (tileMoves s d t) := by
  refine unready_append (unready_append (unready_append (unready_append (unready_filterMap (fun f => ?_) _) (unready_if nofun))
    (unready_if nofun)) (unready_filterMap (fun l => map_event_ne _ _ (fun _ => by nofun)) _))
    (unready_filterMap (fun g => map_event_ne _ _ (fun _ => by nofun)) _)
  split <;> exact nofun

theorem liveMoves_unready (s : State) (d : Domain) : Unready (liveMoves s d) :=
  unready_append (unready_append (unready_flatMap (tileMoves_unready s d) _)
    (unready_filterMap (fun g => map_event_ne _ _ (fun _ => by nofun)) _)) (unready_map (fun _ => by nofun) _)

theorem domainMoves_unready (s : State) (d : Domain) : Unready (domainMoves s d) := by
  refine unready_append (unready_if nofun) ?_
  split
  · exact unready_map (fun _ => by nofun) _
  · exact fun h => (List.mem_cons.1 h).elim nofun (liveMoves_unready s d)
  · exact unready_append (unready_ite (unready_toList (domainMove_ne s d)) unready_nil) (liveMoves_unready s d)
  · exact unready_append (unready_if nofun) (liveMoves_unready s d)
  all_goals exact unready_nil

/-! ## The moves of clusters and dies -/

theorem winMove_ne (s : State) (cl i p : Nat) : winMove s cl i p ≠ some .ready := by
  unfold winMove
  repeat' split
  all_goals exact nofun

theorem clusterMoves_unready (s : State) (cl : Nat) : Unready (clusterMoves s cl) := by
  refine unready_append (unready_append (unready_append (unready_append (unready_append (unready_append
    (unready_toList (map_event_ne _ _ (fun _ => by nofun))) (unready_if nofun)) (unready_if nofun)) (unready_if nofun)) (unready_if nofun))
    (unready_filterMap (fun b => ?_) _)) (unready_ite unready_nil (unready_flatMap (fun i => unready_filterMap (winMove_ne s cl i) _) _))
  split <;> exact nofun

theorem flitMove_ne (s : State) (die : Nat) (o : Nat × Port) : flitMove s die o ≠ some .ready := by
  unfold flitMove
  split <;> exact nofun

theorem dieMoves_unready (s : State) (q : Die) (die : Nat) : Unready (dieMoves s q die) :=
  unready_append (unready_append (unready_append (unready_if nofun) (unready_if nofun)) (unready_filterMap (flitMove_ne s die) _))
    (unready_map (fun _ => by nofun) _)

/-! ## The report -/

theorem firmwareBoots_iff (s : State) : s.firmwareBoots = true ↔ s.bootst.toNat % 256 = 7 := by
  rw [State.firmwareBoots, beq_iff_eq, ← BitVec.toNat_inj, Translation.extract_toNat, pow_zero, Nat.div_one]
  rfl

theorem ready_mem_moduleMoves (s : State) : Move.ready ∈ moduleMoves s ↔ s.firmwareBoots = true := by
  have hrest : ∀ l : List Move, Unready l → (Move.ready ∈ (if s.firmwareBoots then [Move.ready] else []) ++ l ↔ s.firmwareBoots = true) := by
    intro l hl
    rw [List.mem_append, or_iff_left hl]
    cases s.firmwareBoots <;> simp
  unfold moduleMoves
  simp only [List.append_assoc]
  refine hrest _ (unready_append (unready_if nofun) (unready_append (unready_filterMap (fun l => ?_) _)
    (unready_append (unready_filterMap (fun l => ?_) _) (unready_append ?_ (unready_if nofun)))))
  · split <;> exact nofun
  · split <;> exact nofun
  · split
    · exact unready_if nofun
    · exact unready_single nofun
    · exact unready_nil

theorem ready_mem_moves (s : State) : Move.ready ∈ moves s ↔ s.bootst.toNat % 256 = 7 := by
  have hclusters : Unready (s.clusters.flatMap (fun c => clusterMoves s c.1)) := by
    refine unready_flatMap ?_ _
    intro c
    exact clusterMoves_unready s c.1
  have hdies : Unready ((s.dies.zipIdx).flatMap (fun q => dieMoves s q.1 q.2)) := by
    refine unready_flatMap ?_ _
    intro q
    exact dieMoves_unready s q.1 q.2
  rw [moves, List.mem_append, or_iff_right (unready_append (unready_append (unready_flatMap (domainMoves_unready s) _) hclusters) hdies),
    ready_mem_moduleMoves, firmwareBoots_iff]

/-- The mailbox's control and the answers after a response. -/
def replied (s : State) (x : W64) (as : List Answer) : State := { s with mbctl := x, answers := as }

theorem bootst_replied (s : State) (x : W64) (as : List Answer) : (replied s x as).bootst = s.bootst := rfl

theorem respond_eq (s : State) (l : List Byte) (bad : Bool) : s.respond l bad = replied (s.writeBytes (locMail mailResponse) (l.take 256))
    (2 + (if bad then 4 else 0)) (s.answers ++ [.data l]) := rfl

theorem bootst_respond (s : State) (l : List Byte) (bad : Bool) : (s.respond l bad).bootst = s.bootst := by
  rw [respond_eq, bootst_replied, State.writeBytes_bootst]

theorem bootst_attestReply (s : State) (nonce : List Byte) : (s.attestReply nonce).bootst = s.bootst := by
  unfold State.attestReply
  dsimp only
  split
  · simp only [bootst_respond]
  · split
    · simp only [bootst_respond]
    · exact bootst_respond s _ _

theorem bootst_serveAttest (s : State) : s.serveAttest.bootst = s.bootst := by
  unfold State.serveAttest
  split
  · exact bootst_attestReply s _
  · rfl

theorem bootst_select (s : State) : s.select.bootst = s.bootst := by
  unfold State.select
  split <;> rfl

theorem bootst_reportReady (s : State) : s.reportReady.bootst.toNat = 9 := by
  rw [State.reportReady, bootst_select, bootst_serveAttest]
  rfl

end Sys2Proof.Recovery
end

section
/-!
SUPPORT. The image that RECOVERY takes, the links' trainings, and the statement about resets and recovery (18 R423, R428, R437, R439).
-/

namespace Sys2Proof.Recovery

open Sys2Proof Sys2Proof.Machine Sys2Proof.Laws Sys2Proof.Banks Sys2Proof.Chorus Sys2Proof.Shadow

variable {s : State}

/-! ## RECOVERY -/

theorem inRecovery_iff (s : State) : (s.bootst.extractLsb' 0 4 != 8) = false ↔ s.bootst.toNat % 16 = 8 := by
  rw [bne_eq_false_iff_eq, ← BitVec.toNat_inj, Translation.extract_toNat, pow_zero, Nat.div_one]
  rfl

theorem loadImage_outside (h : ¬s.bootst.toNat % 16 = 8) : s.loadImage8 = s := by
  rw [State.loadImage8, if_pos (by rw [← Bool.not_eq_false, inRecovery_iff]; exact h)]

theorem loadImage_bad (h : s.bootst.toNat % 16 = 8) (hbad : ¬s.imageOk (locRecovery 0) = true) :
    s.loadImage8 = s.clearRange (locRecovery 0) (2 ^ 19) := by
  rw [State.loadImage8, if_neg (by rw [Bool.not_eq_true, inRecovery_iff]; exact h), if_neg hbad]

/-- The state with the image in the flash. -/
def flashed (s : State) : State := s.writeBytes (locFlash 0) (s.readBytes (locRecovery 0) (s.imageLen (locRecovery 0)))

theorem loadImage_good (h : s.bootst.toNat % 16 = 8) (hok : s.imageOk (locRecovery 0) = true) :
    s.loadImage8 = (((flashed s).adopt (locFlash 0)).tickFresh).bootLast (bootInputs (Config.bootBits s.fresh)).selfTestOk := by
  rw [State.loadImage8, if_neg (by rw [Bool.not_eq_true, inRecovery_iff]; exact h), if_pos hok]
  rfl

theorem readByte_flashed (hm : s.memOk) {k : Nat} (hk : k < s.imageLen (locRecovery 0)) :
    (flashed s).readByte (locFlash 0 + k) = s.readByte (locRecovery 0 + k) := by
  rw [flashed, State.readByte_writeBytes_in _ hm (by omega) (by rw [length_readBytes]; omega), Nat.add_sub_cancel_left, getD_readBytes s hk]

theorem recovery_takes (hm : s.memOk) {m : Nat} (hi : exec (.recoveryLoad m) s = .next s.loadImage8) :
    (¬s.bootst.toNat % 16 = 8 → exec (.recoveryLoad m) s = .next s) ∧
    (s.bootst.toNat % 16 = 8 → Completes (exec (.recoveryLoad m) s) (fun s' => if s.imageOk (locRecovery 0) = true
      then s'.bootst.toNat % 16 = 7 ∧ ∀ k < s.imageLen (locRecovery 0), s'.readByte (locFlash 0 + k) = s.readByte (locRecovery 0 + k)
      else s'.bootst = s.bootst ∧
        ∀ x, s'.readByte x = if locRecovery 0 ≤ x ∧ x < locRecovery (2 ^ 19) then 0 else s.readByte x)) := by
  refine ⟨fun h => by rw [hi, loadImage_outside h], fun h => ⟨_, hi, ?_⟩⟩
  split
  · next hok =>
    rw [loadImage_good h hok]
    refine ⟨stage_of_bootLast _ _, fun k hk => ?_⟩
    have hkept := ((sameModule_adopt (flashed s) (locFlash 0)).trans (sameModule_tickFresh _)).trans
      (sameModule_bootLast _ (bootInputs (Config.bootBits s.fresh)).selfTestOk)
    exact (readByte_of_sameModule hkept _).trans (readByte_flashed hm hk)
  · next hbad =>
    rw [loadImage_bad h hbad]
    refine ⟨rfl, fun x => ?_⟩
    have hrange : (x < locRecovery 0 ∨ locRecovery 0 + 2 ^ 19 ≤ x) ↔ ¬(locRecovery 0 ≤ x ∧ x < locRecovery (2 ^ 19)) := by
      unfold locRecovery
      omega
    rw [readByte_clearRange]
    simp only [hrange, ite_not]

/-! ## The links -/

theorem waitsForLink_iff (s : State) : (s.bootst.extractLsb' 0 8 = 5) ↔ s.bootst.toNat % 256 = 5 := by
  rw [← BitVec.toNat_inj, Translation.extract_toNat, pow_zero, Nat.div_one]
  rfl

theorem linked_eq (s : State) : s.linked = if s.bootst.toNat % 256 = 5 ∧ s.hostUp = true then
    s.tickFresh.bootImage (bootInputs (Config.bootBits s.fresh)).selfTestOk else s := by
  unfold State.linked
  simp only [Bool.and_eq_true, decide_eq_true_eq, waitsForLink_iff]

theorem linkRetry_eq (s : State) (a b : Training) : exec (.linkRetryTimer a b) s =
    .next (if s.hostUp = true then s else ((s.train 0 a).train 1 b).linked) := rfl

theorem imageOk_tickFresh (s : State) (loc : Nat) : s.tickFresh.imageOk loc = s.imageOk loc := rfl

/-- Trained links send a boot that waits for them on; another stage stands. -/
theorem links_train (s : State) (a b : Training) (h0 : s.linkUp 0 = false) (h1 : s.linkUp 1 = false) :
    let s1 := (s.train 0 a).train 1 b
    let up : Prop := s1.linkUp 0 = true ∨ s1.linkUp 1 = true
    (s.bootst.toNat % 256 ≠ 5 ∨ ¬up → exec (.linkRetryTimer a b) s = .next s1) ∧
    (s.bootst.toNat % 256 = 5 → up → Completes (exec (.linkRetryTimer a b) s) (fun s' =>
      if s1.imageOk (locFlash 0) then s'.bootst.toNat % 16 = 7 else s'.bootst.toNat = 0x68)) := by
  intro s1 up
  have hdown : ¬s.hostUp = true := by simp [State.hostUp, h0, h1]
  have hstage : s1.bootst = s.bootst := (bootst_train _ 1 b).trans (bootst_train s 0 a)
  have hretry : exec (.linkRetryTimer a b) s = .next s1.linked := by rw [linkRetry_eq, if_neg hdown]
  have hup : s1.hostUp = true ↔ up := hostUp_iff s1
  rw [hretry, linked_eq, hstage]
  refine ⟨fun h => by rw [if_neg (by tauto)], fun h h' => ⟨_, congrArg Host.Outcome.next (if_pos ⟨h, hup.2 h'⟩), ?_⟩⟩
  dsimp only
  rw [bootst_bootImage, imageOk_tickFresh]
  split
  · split <;> rfl
  · rfl

/-! ## The statement -/

theorem coldReset_eq (s : State) (b : BootInputs) : exec (.coldReset b) s = .next (s.afterReset.boot b) := rfl

/-- Settles O51: what a loss of power takes; each end of a reset by its stage; the firmware's report; the image of RECOVERY; and the trainings
of the links. -/
theorem resetsAndRecovery : Obligations.ResetsAndRecovery := by
  unfold Obligations.ResetsAndRecovery
  refine ⟨powerLoss_strikes, fun s b m => ?_, fun s => ⟨ready_mem_moves s, bootst_reportReady s⟩, fun s m hm => ?_, fun s a b => ⟨fun h => ?_,
    links_train s a b⟩⟩
  · have hboot := sameModule_boot s.afterReset b
    refine ⟨⟨_, coldReset_eq s b, ?_⟩, fun h => ⟨_, coldReset_eq s b, ?_⟩, fun h h' => ⟨_, coldReset_eq s b, ?_⟩,
      fun h h' hdown => ⟨_, coldReset_eq s b, ?_⟩, fun h h' hup => ?_, fun _ => coldReset_registers s b,
      byHost_of (r := .resetc) (fun _ => rfl) rfl id⟩
    · exact (seqOf_nextSeq_of_sameModule hboot).trans (seqOf_nextSeq_afterReset s)
    · rw [boot_fuse h]
      rfl
    · rw [boot_hbm h h']
      rfl
    · rw [boot_links h h', if_neg (mt (hostUp_iff _).1 hdown)]
      rfl
    · have hend := bootst_bootImage ((s.afterReset.train 0 b.link0).train 1 b.link1) b.selfTestOk
      rw [← (boot_links h h' s.afterReset).trans (if_pos ((hostUp_iff _).2 hup))] at hend
      split
      · next hok => exact ⟨_, coldReset_eq s b, hend.trans (if_pos hok)⟩
      · next hbad => exact ⟨_, coldReset_eq s b, hend.trans (if_neg hbad)⟩
  · exact byHost_of (r := .resetc) (fun _ => rfl) rfl (recovery_takes hm)
  · rw [linkRetry_eq, if_pos ((hostUp_iff s).2 h)]

end Sys2Proof.Recovery
end

section
/-!
SUPPORT. Reads that a distributor makes leave a state in which every address still leads where it led: of the flawed granules some are gone,
and none is new (08 R199, 14 R368, 18 R434).
-/

namespace Sys2Proof.Tasks

open Sys2Proof Sys2Proof.Machine Sys2Proof.Laws Sys2Proof.Chorus

variable {s s' s'' : State}

/-- The same storage, tables, links and contexts, and no flawed granule but those that stood. -/
structure Cleaner (s s' : State) : Prop where
  mem : s'.mem = s.mem
  dies : s'.dies = s.dies
  egress : s'.egress = s.egress
  macl : s'.macl = s.macl
  lnkst : s'.lnkst = s.lnkst
  arrivals : s'.arrivals = s.arrivals
  stream : s'.stream = s.stream
  leases : s'.leases = s.leases
  domains : s'.domains = s.domains
  seqBases : s'.seqBases = s.seqBases
  flawed : ∀ f ∈ s'.flawed, f ∈ s.flawed

theorem Cleaner.refl (s : State) : Cleaner s s := ⟨rfl, rfl, rfl, rfl, rfl, rfl, rfl, rfl, rfl, rfl, fun _ h => h⟩

theorem Cleaner.trans (h : Cleaner s s') (k : Cleaner s' s'') : Cleaner s s'' :=
  ⟨k.mem.trans h.mem, k.dies.trans h.dies, k.egress.trans h.egress, k.macl.trans h.macl, k.lnkst.trans h.lnkst, k.arrivals.trans h.arrivals,
    k.stream.trans h.stream, k.leases.trans h.leases, k.domains.trans h.domains, k.seqBases.trans h.seqBases,
    fun f hf => h.flawed f (k.flawed f hf)⟩

theorem cleaner_countFlaws (s : State) (rs : List (Nat × Nat)) : Cleaner s (s.countFlaws rs) :=
  ⟨rfl, rfl, rfl, rfl, rfl, rfl, rfl, rfl, rfl, rfl, fun _ h => List.mem_of_mem_filter h⟩

theorem cleaner_countRead (s : State) (p : Nat) : Cleaner s (s.countRead p) := ⟨rfl, rfl, rfl, rfl, rfl, rfl, rfl, rfl, rfl, rfl, fun _ h => h⟩

theorem cleaner_countWalk (s : State) (va : W64) (w : Walk) : Cleaner s (s.countWalk va w) := by
  unfold State.countWalk
  split
  · exact cleaner_countFlaws s _
  · exact .refl s
  · exact .refl s

theorem cleaner_readGlobal (mode : WalkMode) (part m : Nat) (fuel : Nat) : ∀ (s : State) (va : W64) (len : Nat),
    Cleaner s (s.readGlobal mode part m fuel va len).1 := by
  induction fuel with
  | zero => exact fun s _ _ => .refl s
  | succ n ih =>
    intro s va len
    unfold State.readGlobal
    split
    · exact .refl s
    · dsimp only
      split
      · exact cleaner_countWalk s va _
      · split
        · exact .refl s
        · split
          · exact cleaner_countFlaws s _
          · refine Cleaner.trans ?_ (ih _ _ _)
            split
            · exact cleaner_countRead s part
            · exact .refl s

theorem cleaner_outputBytes (s : State) (mode : WalkMode) (part die : Nat) (outs : List (Nat × Nat)) :
    Cleaner s (s.outputBytes mode part die outs).1 := by
  have hfold (f : State × List Byte → Nat × Nat → State × List Byte) (hf : ∀ x o, Cleaner x.1 (f x o).1) (l : List (Nat × Nat)) :
      ∀ x : State × List Byte, Cleaner x.1 (l.foldl f x).1 := by
    induction l with
    | nil => exact fun x => .refl x.1
    | cons o l ih => exact fun x => (hf x o).trans (ih _)
  exact hfold _ (fun x o => cleaner_readGlobal mode part _ _ x.1 _ _) _ (s, [])

/-! ## Checks and translations -/

theorem Cleaner.flawsIn (h : Cleaner s s') {rs : List (Nat × Nat)} {f : Nat × Bool} (hf : f ∈ s'.flawsIn rs) : f ∈ s.flawsIn rs := by
  obtain ⟨hmem, hin⟩ := List.mem_filter.1 hf
  exact List.mem_filter.2 ⟨h.flawed f hmem, hin⟩

theorem Cleaner.sound (h : Cleaner s s') {rs : List (Nat × Nat)} (hs : s.sound rs = true) : s'.sound rs = true := by
  rw [State.sound, List.isEmpty_iff, List.eq_nil_iff_forall_not_mem] at hs ⊢
  exact fun f hf => hs f (h.flawsIn hf)

theorem Cleaner.mergeSound (h : Cleaner s s') {r : Nat × Nat} (hs : s.mergeSound r = true) : s'.mergeSound r = true := by
  rw [State.mergeSound, List.isEmpty_iff, List.eq_nil_iff_forall_not_mem] at hs ⊢
  intro f hf
  obtain ⟨hmem, hout⟩ := List.mem_filter.1 hf
  exact hs f (List.mem_filter.2 ⟨h.flawsIn hmem, hout⟩)

theorem Cleaner.cutOff (h : Cleaner s s') (loc : Nat) : s'.cutOff loc = s.cutOff loc := by
  simp only [State.cutOff, State.hostUp, State.linkUp, h.lnkst]

theorem Cleaner.readLE (h : Cleaner s s') (a n : Nat) : s'.readLE a n = s.readLE a n := by
  simp only [State.readLE, State.readBytes, h.mem]

/-- A walk that ends in a leaf meets no flaw, and ends in it where fewer granules are flawed. -/
theorem Cleaner.walkFrom (h : Cleaner s s') {die key va l b n : Nat} {mode : WalkMode} {e : W64} (fuel : Nat) : ∀ {level pa : Nat},
    walkFrom s die key va mode fuel level pa = .ok l e b n → walkFrom s' die key va mode fuel level pa = .ok l e b n := by
  induction fuel with
  | zero => exact fun hw => absurd hw (by rw [Machine.walkFrom]; exact nofun)
  | succ fuel ih =>
    intro level pa hw
    simp only [Machine.walkFrom, h.readLE] at hw ⊢
    by_cases hs : s.sound [(locHbm die (pa + 8 * (va / 2 ^ (39 - 9 * level) % 512)), 8)] = true
    · simp only [h.sound hs, hs, Bool.not_true, Bool.false_eq_true, if_false] at hw ⊢
      split_ifs at hw ⊢
      · exact ih hw
      · exact hw
    · rw [if_pos (by simpa using hs)] at hw
      exact absurd hw nofun

theorem Cleaner.walk (h : Cleaner s s') {die key va l b n : Nat} {mode : WalkMode} {e : W64} (hw : walk s die key va mode = .ok l e b n) :
    walk s' die key va mode = .ok l e b n := by
  have hdie : s'.die die = s.die die := by simp only [State.die, h.dies]
  unfold Machine.walk at hw ⊢
  rw [hdie]
  exact h.walkFrom 4 hw

/-- An address that leads to a place leads there still. -/
theorem Cleaner.resolve (h : Cleaner s s') {key m : Nat} {mode : WalkMode} {wr : Bool} {va : W64} {p : Place}
    (hr : resolve s key m mode wr va = .ok p) : resolve s' key m mode wr va = .ok p := by
  by_cases ho : ownerOf va < 4
  · unfold Machine.resolve at hr ⊢
    dsimp only at hr ⊢
    rw [if_pos ho] at hr ⊢
    split_ifs at hr ⊢
    split at hr
    · next hw => rwa [h.walk hw]
    · exact absurd hr nofun
  · rwa [Access.resolve_far h.egress h.macl ho]

end Sys2Proof.Tasks
end

section
/-!
SUPPORT. A task that ends: its completion record in storage, its domain, its task-end event, and the statement about both ends
(14 R364, R368, 15 R389, 09 R225, 08 R199).
-/

namespace Sys2Proof.Tasks

open Sys2Proof Sys2Proof.Machine Sys2Proof.Laws Sys2Proof.Chorus

variable {s s' : State} {d : Domain} {p : Place}

/-! ## The record's bytes -/

/-- The fields of a completion record, one after another. -/
def recordFields (pkt : List Byte) (seq status code tick hold : Nat) (digest : List Byte) : List (List Byte) :=
  [(pkt.drop 72).take 8, toLE 8 seq, toLE 1 status, toLE 1 code, toLE 2 0, toLE 4 tick, toLE 8 hold, (digest ++ List.replicate 32 0).take 32]

theorem completionBytes_eq (pkt : List Byte) (seq status code tick hold : Nat) (digest : List Byte) :
    completionBytes pkt seq status code tick hold digest = (recordFields pkt seq status code tick hold digest).flatten := by
  simp [completionBytes, recordFields]

/-- A byte of a field, in the bytes of all. -/
theorem getD_flatten {k : Nat} : ∀ {ls : List (List Byte)} {i : Nat}, k < (ls.getD i []).length →
    ls.flatten.getD ((ls.take i).flatten.length + k) 0 = (ls.getD i []).getD k 0 := by
  intro ls
  induction ls with
  | nil => exact fun h => absurd h (by simp)
  | cons l ls ih =>
    intro i hk
    cases i with
    | zero => simpa [List.getD_eq_getElem?_getD] using by rw [List.getElem?_append_left (by simpa using hk)]
    | succ i =>
      have hk' : k < (ls.getD i []).length := by simpa using hk
      rw [List.flatten_cons, List.take_succ_cons, List.flatten_cons, List.length_append, Nat.add_assoc,
        List.getD_append_right _ _ _ _ (Nat.le_add_right _ _), Nat.add_sub_cancel_left, ih hk']
      simp

/-- The record as storage holds it. -/
def Recorded (s' : State) (loc : Nat) (pkt : List Byte) (seq status code tick hold : Nat) (digest : List Byte) : Prop :=
  ∀ k < 64, s'.readByte (loc + k) = (recordFields pkt seq status code tick hold digest).flatten.getD k 0

variable {pkt digest : List Byte} {loc seq status code tick hold : Nat}

theorem Recorded.field (h : Recorded s' loc pkt seq status code tick hold digest) {i o n : Nat}
    (ho : ((recordFields pkt seq status code tick hold digest).take i).flatten.length = o)
    (hn : ((recordFields pkt seq status code tick hold digest).getD i []).length = n) (hle : o + n ≤ 64) :
    ∀ k < n, s'.readByte (loc + o + k) = ((recordFields pkt seq status code tick hold digest).getD i []).getD k 0 := by
  intro k hk
  rw [Nat.add_assoc, h _ (by omega), ← ho, getD_flatten (by omega)]

/-- The fields by their places (14 R368). -/
theorem Recorded.fields (hpkt : pkt.length = 128) (h : Recorded s' loc pkt seq status code tick hold digest) :
    (∀ k < 8, s'.readByte (loc + k) = pkt.getD (72 + k) 0) ∧ Claims.number s' (loc + 8) 8 = seq % 2 ^ 64 ∧
    Claims.number s' (loc + 16) 1 = status % 2 ^ 8 ∧ Claims.number s' (loc + 17) 1 = code % 2 ^ 8 ∧ Claims.number s' (loc + 18) 2 = 0 ∧
    Claims.number s' (loc + 20) 4 = tick % 2 ^ 32 ∧ Claims.number s' (loc + 24) 8 = hold % 2 ^ 64 ∧
    ∀ k < 32, s'.readByte (loc + 32 + k) = ((digest ++ List.replicate 32 0).take 32).getD k 0 := by
  have hlen : ((pkt.drop 72).take 8).length = 8 := by simp [hpkt]
  have htoLE (n x : Nat) : (toLE n x).length = n := Access.length_toLE n x
  refine ⟨fun k hk => ?_, ?_, ?_, ?_, ?_, ?_, ?_, fun k hk => ?_⟩
  · have hfirst := h.field (i := 0) (o := 0) (n := 8) rfl hlen (by decide) k hk
    rw [Nat.add_zero] at hfirst
    rw [hfirst]
    simp [recordFields, List.getD_eq_getElem?_getD, hk]
  · exact Translation.number_of_bytes (h.field (i := 1) (by simp [recordFields, hlen]) (htoLE _ _) (by decide))
  · exact Translation.number_of_bytes (h.field (i := 2) (by simp [recordFields, hlen, htoLE]) (htoLE _ _) (by decide))
  · exact Translation.number_of_bytes (h.field (i := 3) (by simp [recordFields, hlen, htoLE]) (htoLE _ _) (by decide))
  · exact Translation.number_of_bytes (h.field (i := 4) (by simp [recordFields, hlen, htoLE]) (htoLE _ _) (by decide))
  · exact Translation.number_of_bytes (h.field (i := 5) (by simp [recordFields, hlen, htoLE]) (htoLE _ _) (by decide))
  · exact Translation.number_of_bytes (h.field (i := 6) (by simp [recordFields, hlen, htoLE]) (htoLE _ _) (by decide))
  · exact h.field (i := 7) (by simp [recordFields, hlen, htoLE]) (by simp [recordFields]) (by decide) k hk

theorem length_completionBytes (hpkt : pkt.length = 128) : (completionBytes pkt seq status code tick hold digest).length = 64 := by
  simp [completionBytes, Access.length_toLE, hpkt]

/-! ## The write -/

/-- Bytes that lie in one page whose place stands are written there (14 R368). -/
theorem writeGlobal_page {part m n : Nat} {va : W64} {bs : List Byte} (hn : bs.length = n) (h0 : 0 < n) (hpage : va.toNat % 4096 + n ≤ 4096)
    (hr : resolve s part m .report true va = .ok p) (hd : p.discarded = false) (hc : s.cutOff p.loc = false)
    (hs : s.mergeSound (p.loc, n) = true) : s.writeGlobal part m 2 va bs = s.writeBytes p.loc bs := by
  have hlow : lowAddr va % 4096 = va.toNat % 4096 := by
    rw [Access.lowAddr_eq]
    omega
  have hmin : min bs.length (4096 - lowAddr va % 4096) = bs.length := by rw [hlow, hn]; omega
  have hne : bs.isEmpty = false := by cases bs with
    | nil => simp at hn; omega
    | cons => rfl
  rw [State.writeGlobal, hne]
  simp only [hmin, hr, hd, hc, hn ▸ hs, List.take_length, List.drop_length, Bool.false_eq_true, if_false, Bool.not_true]
  rw [State.writeGlobal]
  rfl

theorem writeCompletion_page (hpkt : pkt.length = 128) {part die : Nat}
    (hpage : (BitVec.ofNat 64 (Machine.field pkt 64 8)).toNat % 4096 + 64 ≤ 4096)
    (hr : resolve s part (0x101 + 16 * die) .report true (BitVec.ofNat 64 (Machine.field pkt 64 8)) = .ok p) (hd : p.discarded = false)
    (hc : s.cutOff p.loc = false) (hs : s.mergeSound (p.loc, 64) = true) : s.writeCompletion pkt part die seq status code tick hold digest =
      s.writeBytes p.loc (completionBytes pkt (s.seqOf seq) status code tick hold digest) :=
  writeGlobal_page (length_completionBytes hpkt) (by decide) hpage hr hd hc hs

theorem recorded_writeBytes (hm : s.memOk) (hpkt : pkt.length = 128) (hs' : ∀ x, s'.readByte x =
      (s.writeBytes loc (completionBytes pkt seq status code tick hold digest)).readByte x) :
    Recorded s' loc pkt seq status code tick hold digest := by
  intro k hk
  rw [hs', State.readByte_writeBytes_in _ hm (Nat.le_add_right _ _) (by rw [length_completionBytes hpkt]; omega), Nat.add_sub_cancel_left,
    completionBytes_eq]

/-! ## The domain that ends -/

/-- The domain of a task that has ended. -/
def ended (e : Domain) : Domain := { e with phase := .ended, haltAt := none, hold := none }

theorem leaveLease_kept (h : d.relaxed = true ∨ ∀ l ∈ s.leases, l.handle = d.handle → l.state ≠ .ending) : s.leaveLease d = s := by
  unfold State.leaveLease
  refine if_neg (fun hc => ?_)
  simp only [Bool.and_eq_true, Bool.not_eq_true', List.any_eq_true, beq_iff_eq] at hc
  obtain ⟨⟨hrelaxed, -⟩, l, hl, hhandle, hending⟩ := hc
  rcases h with h | h
  · exact Bool.false_ne_true (hrelaxed.symm.trans h)
  · exact h l hl hhandle hending

theorem freeFirmware_kept (s : State) (d : Domain) : (s.freeFirmware d).mem = s.mem ∧ (s.freeFirmware d).domains = s.domains ∧
    (s.freeFirmware d).arrivals = s.arrivals ∧ (s.freeFirmware d).stream = s.stream := by
  unfold State.freeFirmware
  split <;> exact ⟨rfl, rfl, rfl, rfl⟩

/-- What the end of a task leaves once its record is written: the module without the lease that it does not leave. -/
structure Ends (s₁ s' : State) (d : Domain) : Prop where
  domains : s'.domains = (s₁.updDom d.seq ended).domains
  mem : s'.mem = s₁.mem
  arrivals : s'.arrivals = s₁.arrivals ++ [.taskEnd d.homeCluster d.seq]
  stream : s'.stream = s₁.stream

theorem endTask_ends (hl : d.relaxed = true ∨ ∀ l ∈ s.leases, l.handle = d.handle → l.state ≠ .ending) {s₁ : State}
    (hw : s.writeCompletion d.pkt d.part d.homeDie d.seq status code tick d.holdcnt digest = s₁) (hleases : s₁.leases = s.leases) :
    Ends s₁ (s.endTask d status code tick digest) d := by
  have hstand : (s₁.updDom d.seq ended).leaveLease d = s₁.updDom d.seq ended := leaveLease_kept (by rwa [State.updDom_leases, hleases])
  obtain ⟨hmem, hdomains, harrivals, hstream⟩ := freeFirmware_kept (s₁.updDom d.seq ended) d
  have hend : s.endTask d status code tick digest = { (s₁.updDom d.seq ended).freeFirmware d with
      arrivals := ((s₁.updDom d.seq ended).freeFirmware d).arrivals ++ [.taskEnd d.homeCluster d.seq] } := by
    subst hw
    rw [State.endTask]
    dsimp only
    rw [show (fun e : Domain => { e with phase := .ended, haltAt := none, hold := none }) = ended from rfl, hstand]
  rw [hend]
  exact ⟨hdomains, hmem, congrArg (· ++ _) harrivals, hstream⟩

/-- Both ends: the record stands, the domain has ended, its event has gone to the port. -/
structure TaskOver (s s' : State) (d : Domain) (loc status code tick : Nat) (digest : List Byte) : Prop where
  domain : ∃ d', s'.dom? d.seq = some d' ∧ d'.phase = .ended
  arrivals : s'.arrivals = s.arrivals ++ [.taskEnd d.homeCluster d.seq]
  stream : s'.stream = s.stream
  recorded : Recorded s' loc d.pkt (s.seqOf d.seq) status code tick d.holdcnt digest
  outside : ∀ x, x < loc ∨ loc + 64 ≤ x → s'.readByte x = s.readByte x

theorem dom?_of_domains (h : s'.domains = s.domains) (k : Nat) : s'.dom? k = s.dom? k := by
  unfold State.dom?
  rw [h]

theorem endTask_over (hd : s.dom? d.seq = some d) (hm : s.memOk)
    (hl : d.relaxed = true ∨ ∀ l ∈ s.leases, l.handle = d.handle → l.state ≠ .ending) (hpkt : d.pkt.length = 128)
    (hpage : (BitVec.ofNat 64 (Machine.field d.pkt 64 8)).toNat % 4096 + 64 ≤ 4096)
    (hr : resolve s d.part (0x101 + 16 * d.homeDie) .report true (BitVec.ofNat 64 (Machine.field d.pkt 64 8)) = .ok p)
    (hdisc : p.discarded = false) (hc : s.cutOff p.loc = false) (hs : s.mergeSound (p.loc, 64) = true) :
    TaskOver s (s.endTask d status code tick digest) d p.loc status code tick digest := by
  have hends := endTask_ends (tick := tick) (status := status) (code := code) (digest := digest) hl
    (writeCompletion_page hpkt hpage hr hdisc hc hs) rfl
  have hread (x : Nat) := congrArg (readCells · x) hends.mem
  refine ⟨⟨ended d, ?_, rfl⟩, hends.arrivals, hends.stream, recorded_writeBytes hm hpkt hread, fun x hx => ?_⟩
  · rw [dom?_of_domains hends.domains]
    exact dom?_updDom (f := ended) hd (fun _ => rfl)
  · exact (hread x).trans (State.readByte_writeBytes_other s _ (by rwa [length_completionBytes hpkt]))

/-! ## Retirement -/

theorem foldl_stays {α β : Type} {f : α → β → α} {a : α} {l : List β} (h : ∀ x ∈ l, f a x = a) : l.foldl f a = a := by
  induction l with
  | nil => rfl
  | cons x l ih =>
    rw [List.foldl_cons, h x List.mem_cons_self]
    exact ih (fun y hy => h y (List.mem_cons_of_mem x hy))

/-- Records whose ends are told leave the domain as it is. -/
theorem tellAll_told (h : ∀ t ∈ d.tiles, ∀ r ∈ t.recs, r.stage = .complete → r.told = true) : d.tellAll = d :=
  foldl_stays (fun t ht => foldl_stays (fun r hr => if_neg (by simpa using h t ht r hr)))

/-- A domain put in its own place stands there. -/
theorem dom?_same {k : Nat} (h : s.dom? k = some d) : (s.updDom k (fun _ => d)).dom? k = some d := by
  have hk := dom?_seq h
  unfold State.dom? State.updDom at *
  generalize s.domains = l at *
  induction l with
  | nil => simp at h
  | cons x l ih =>
    by_cases hx : x.seq = k
    · simp [hx, hk]
    · have hskip : (x.seq == k) = false := by simpa using hx
      simp only [List.find?_cons, hskip] at h
      simp only [List.map_cons, hx, if_false, List.find?_cons, hskip]
      exact ih h

/-- The outputs of a domain as its retirement reads them: what the reads leave, and the bytes. -/
def outputs (s : State) (d : Domain) : State × List Byte :=
  (s.updDom d.seq (fun _ => d)).outputBytes (if d.relaxed then .report else .lease) d.part d.homeDie (descOutputs d.desc)

theorem taskRetire_eq (hd : s.dom? s.cur.dom = some d) (h : ∀ t ∈ d.tiles, ∀ r ∈ t.recs, r.stage = .complete → r.told = true) :
    exec .taskRetire s = .next ((outputs s d).1.endTask d 0 0 d.lastHalt (sha256 (outputs s d).2)) := by
  show execTaskRetire s = _
  rw [execTaskRetire, hd]
  dsimp only
  rw [tellAll_told h, if_neg (by simp)]
  rfl

theorem fatalTaskEnd_eq (hd : s.dom? s.cur.dom = some d) : exec .fatalTaskEnd s = .next (s.endTask d 1 d.fatalCodeOf d.dtick []) := by
  show execFatalTaskEnd s = _
  rw [execFatalTaskEnd, hd]

/-- What the reads of the outputs leave is the module with the domain in its place, cleaner. -/
theorem outputs_cleaner (s : State) (d : Domain) : Cleaner (s.updDom d.seq (fun _ => d)) (outputs s d).1 := cleaner_outputBytes _ _ _ _ _

theorem TaskOver.of_updDom {k : Nat} {f : Domain → Domain} {loc status code tick : Nat} {digest : List Byte}
    (hc : Cleaner (s.updDom k f) s'') (h : TaskOver s'' s' d loc status code tick digest) : TaskOver s s' d loc status code tick digest where
  domain := h.domain
  arrivals := h.arrivals.trans (congrArg (· ++ _) hc.arrivals)
  stream := h.stream.trans hc.stream
  recorded := by
    have hseq : s''.seqOf d.seq = s.seqOf d.seq := by simp only [State.seqOf, hc.seqBases, State.updDom_seqBases]
    rw [← hseq]
    exact h.recorded
  outside := fun x hx => (h.outside x hx).trans (congrArg (readCells · x) hc.mem)

/-! ## The statement -/

theorem digestField_whole {l : List Byte} (h : l.length = 32) : (l ++ List.replicate 32 0).take 32 = l := by
  rw [← h, List.take_left]

/-- The fields that the statement reads, of a task that is over. -/
theorem TaskOver.fields {loc status code tick : Nat} {digest field : List Byte} (h : TaskOver s s' d loc status code tick digest)
    (hpkt : d.pkt.length = 128) (hs : status < 2 ^ 8) (hfield : (digest ++ List.replicate 32 0).take 32 = field) :
    (∃ d', s'.dom? d.seq = some d' ∧ d'.phase = .ended) ∧ s'.arrivals = s.arrivals ++ [.taskEnd d.homeCluster d.seq] ∧ s'.stream = s.stream ∧
    (∀ k < 8, s'.readByte (loc + k) = d.pkt.getD (72 + k) 0) ∧ Claims.number s' (loc + 8) 8 = s.seqOf d.seq % 2 ^ 64 ∧
    Claims.number s' (loc + 16) 1 = status ∧ Claims.number s' (loc + 17) 1 = code % 256 ∧ Claims.number s' (loc + 18) 2 = 0 ∧
    Claims.number s' (loc + 20) 4 = tick % 2 ^ 32 ∧ Claims.number s' (loc + 24) 8 = d.holdcnt % 2 ^ 64 ∧
    (∀ k < 32, s'.readByte (loc + 32 + k) = field.getD k 0) ∧ ∀ x, x < loc ∨ loc + 64 ≤ x → s'.readByte x = s.readByte x := by
  obtain ⟨htag, hseq, hstatus, hcode, hzero, htick, hhold, hdigest⟩ := h.recorded.fields hpkt
  exact ⟨h.domain, h.arrivals, h.stream, htag, hseq, hstatus.trans (Nat.mod_eq_of_lt hs), hcode, hzero, htick, hhold, hfield ▸ hdigest,
    h.outside⟩

/-- Settles O43: the record of a fatal end and of a retirement, whose reads of the outputs leave every address where it led. -/
theorem tasksEndWithTheirRecord : Obligations.TasksEndWithTheirRecord := by
  unfold Obligations.TasksEndWithTheirRecord
  intro s d p i status code tick digest hd hm hl hpkt _ home va hr hdisc hpage hc hs hend
  have hk := dom?_seq hd
  have hhome : home = d.homeDie := rfl
  rw [hhome] at hr
  rcases hend with ⟨rfl, rfl, rfl, rfl, rfl⟩ | ⟨rfl, rfl, rfl, rfl, rfl, hlen, htold⟩
  · have hover := endTask_over (status := 1) (code := d.fatalCodeOf) (tick := d.dtick) (digest := []) (hk ▸ hd) hm hl hpkt hpage hr hdisc hc hs
    refine ⟨_, fatalTaskEnd_eq hd, ?_⟩
    rw [← hk]
    exact hover.fields hpkt (by decide) rfl
  · have hclean := outputs_cleaner s d
    have hstand : (outputs s d).1.dom? d.seq = some d := (dom?_of_domains hclean.domains _).trans (hk ▸ dom?_same hd)
    have hover := endTask_over (status := 0) (code := 0) (tick := d.lastHalt) (digest := sha256 (outputs s d).2) hstand
      (memOk_of_mem hm hclean.mem) (hclean.leases ▸ hl) hpkt hpage (hclean.resolve hr) hdisc ((hclean.cutOff _).trans hc) (hclean.mergeSound hs)
    have houtputs : (s.updDom s.cur.dom (fun _ => d)).outputBytes (if d.relaxed then .report else .lease) d.part home (descOutputs d.desc) =
        outputs s d := by rw [outputs, hk, hhome]
    rw [houtputs] at hlen ⊢
    refine ⟨_, taskRetire_eq hd htold, ?_⟩
    rw [← hk]
    exact (TaskOver.of_updDom hclean hover).fields hpkt (by decide) (digestField_whole hlen)

end Sys2Proof.Tasks
end

section
/-!
REFUTATION of O45. A part's control records stand in its journal between those of its slot and those of its banks, and their payloads are
68 pieces of 256 bytes of the control state of its image. The statement asks nothing of that image: of one whose tile lists no
registers, the last pieces are short, and what follows stands before its place.
-/

namespace Sys2Proof.ShortImage

open Sys2Proof Sys2Proof.Machine Sys2Proof.Chorus Sys2Proof.Shadow

/-! ## Lengths -/

theorem length_sized (n : Nat) (l : List Byte) : (sized n l).length = n := by
  rw [sized, List.length_take, List.length_append, List.length_replicate]
  omega

theorem length_areaBytes (area n : Nat) (content : List Nat) : (areaBytes area n content).length = n := by
  rw [areaBytes, List.length_map, List.length_range]

theorem length_controlBytes (d : Domain) (t : Tile) :
    (controlBytes d t).length = (t.s.flatMap (fun x => toLE 8 x.toNat)).length + (t.v.flatMap bytesOf).length + 15104 := by
  simp only [controlBytes, List.length_append, length_areaBytes, length_sized]
  omega

theorem length_lineRecord (seq : Nat) (nm : Nat × Nat × Nat × Nat) (payload : List Byte) :
    (lineRecord seq nm payload).length = 16 + payload.length := by
  simp only [lineRecord, List.length_append, Access.length_toLE]

theorem length_controlRecords {l : List Byte} (h : l.length = 15104) (seq : Nat) (name : Nat → Nat × Nat × Nat × Nat) :
    ((List.range 68).flatMap (fun j => lineRecord seq (name j) ((l.drop (256 * j)).take 256))).length = 16192 := by
  simp only [List.length_flatMap, length_lineRecord, List.length_take, List.length_drop, h]
  decide

/-- A line that lies in some tile's slot: its record precedes those of the control lines. -/
def inSlot (l : Nat) : Bool := decide (region 4 ≤ l) && decide (l < region 5)

/-- The record of a line in the journal. -/
def recordOf (s : State) (cl seq l : Nat) : List Byte := lineRecord seq (lineName cl l) (s.readBytes l 256)

/-- The records of the control lines of a part. -/
def controlRecords (seq : Nat) (p : EpochPart) (i : Image) : List Byte := (List.range 68).flatMap (fun j =>
  lineRecord seq (2, p.tile, p.slot.toNat, 512 + j) (((controlBytes i.base i.ctrl).drop (256 * j)).take 256))

theorem partRecords_eq (s : State) (cl seq : Nat) {p : EpochPart} {i : Image} (h : p.ctrl = some i) : partRecords s cl seq p =
    (p.lines.filter inSlot).flatMap (recordOf s cl seq) ++ controlRecords seq p i ++
      (p.lines.filter (fun l => !inSlot l)).flatMap (recordOf s cl seq) := by
  unfold partRecords
  rw [h]
  rfl

/-- A part of control lines whose registers are missing and of one line that lies in no slot. -/
structure Short (p : EpochPart) (i : Image) (l : Nat) : Prop where
  ctrl : p.ctrl = some i
  lines : p.lines = [l]
  s : i.ctrl.s = []
  v : i.ctrl.v = []
  outside : inSlot l = false

variable {p : EpochPart} {i : Image} {l : Nat}

/-- The records end 2304 bytes before 69 records of 272 bytes would. -/
theorem Short.length_records (h : Short p i l) (s : State) (cl seq : Nat) : (partRecords s cl seq p).length = 16192 + 272 := by
  have hlength : (controlBytes i.base i.ctrl).length = 15104 := by
    simp only [length_controlBytes, h.s, h.v, List.flatMap_nil, List.length_nil, Nat.zero_add]
  have hcontrol : (controlRecords seq p i).length = 16192 := length_controlRecords hlength seq _
  have hslot : p.lines.filter inSlot = [] := by simp [h.lines, h.outside]
  have hrest : p.lines.filter (fun l => !inSlot l) = [l] := by simp [h.lines, h.outside]
  have hrecord : (recordOf s cl seq l).length = 272 := by rw [recordOf, length_lineRecord, length_readBytes]
  rw [partRecords_eq s cl seq h.ctrl, hslot, hrest, List.flatMap_nil, List.nil_append, List.length_append, hcontrol,
    List.flatMap_singleton, hrecord]

/-! ## The journal of an epoch of one part -/

theorem journalFlaws_mem (s : State) (cl : Nat) (p : EpochPart) (j : Nat) : (s.journalFlaws cl p j).mem = s.mem := by
  unfold State.journalFlaws
  generalize p.recordLines.zipIdx = l
  induction l generalizing s with
  | nil => rfl
  | cons x l ih =>
    refine (ih _).trans ?_
    obtain ⟨l, k⟩ := x
    cases l with
    | none => rfl
    | some l => exact (moveFlaws_kept s l _ 256).1

variable {s : State} {e : Epoch} {rest : List Epoch}

theorem epochJournal_mem (he : (s.cluster s.cur.cluster).epochs = e :: rest) (hp : e.parts = [p]) (hd : e.domain = false)
    (hs : p.sem = none) : Completes (exec .epochJournal s) (fun s' => s'.mem = (s.commitPart s.cur.cluster e p 0
      (partRecords s s.cur.cluster (s.nextSealSeq s.cur.cluster p.tile p.slot) p)).mem) := by
  show Completes (execEpochJournal s) _
  unfold execEpochJournal
  simp only [Cluster.headEpoch, he, List.head?_cons, hp, hd, List.foldl_cons, List.foldl_nil, Bool.false_eq_true, if_false, State.durable, hs]
  exact ⟨_, rfl, journalFlaws_mem _ _ _ _⟩

/-- Neither the records nor the seal of a short part reach the last byte of the 69th record. -/
theorem Short.readByte_commitPart (h : Short p i l) (cl seq : Nat) (hseat : s.seatOf cl = cl) :
    (s.commitPart cl e p 0 (partRecords s cl seq p)).readByte (locShadow cl (planeJournal + 272 * 68 + 16) + 255) =
      s.readByte (locShadow cl (planeJournal + 272 * 68 + 16) + 255) := by
  unfold State.commitPart
  dsimp only
  rw [readByte_updCluster, State.readByte_writeBytes_other, State.readByte_writeBytes_other]
  · right
    rw [h.length_records]
    unfold locShadow planeJournal
    omega
  · left
    rw [hseat]
    unfold locShadow planeJournal planeSeal
    omega

/-! ## A state -/

/-- A tile without registers. -/
def tile : Tile := { placedTile 0 0 (placedBlock .sq []) 0 with s := [], v := [] }

def image : Image := ⟨0, false, tile, placedDomain false .sq [], [], [], []⟩

/-- The first line of bank 0. -/
def line : Nat := locBank 0 0 0

/-- An epoch of the tile's control lines and the line. -/
def part : EpochPart := ⟨0, false, 0, some image, none, 0, [line], 1, 0⟩
def epoch : Epoch := ⟨1, false, 12, 0, [part], .waiting, false⟩

/-- The epoch stands at the head of cluster 0's queue; the last byte of the line is 1. -/
def state : State := { State.reset.updCluster 0 (fun c => { c with epochs := [epoch] }) with
  domains := []
  cur := ⟨1, 0, .sq, .me, 0, 0, 0⟩
  mem := [(line + 255, 1)] }

theorem short_part : Short part image line := ⟨rfl, rfl, rfl, rfl, by decide⟩

theorem readByte_single {s : State} {k : Nat} {b : Byte} (h : s.mem = [(k, b)]) (x : Nat) : s.readByte x = if k = x then b else 0 := by
  unfold State.readByte
  rw [h]
  rfl

/-- The last byte of the record after the 68 of the control lines is 0 still. -/
theorem unwritten {s' : State} (h : exec .epochJournal state = .next s') :
    s'.readByte (locShadow 0 (planeJournal + 272 * 68 + 16) + 255) = 0 := by
  obtain ⟨t, hexec, hmem⟩ := epochJournal_mem (s := state) (e := epoch) (p := part) (rest := []) rfl rfl rfl rfl
  cases hexec.symm.trans h
  have hread := congrArg (readCells · (locShadow 0 (planeJournal + 272 * 68 + 16) + 255)) hmem
  have hseat : state.seatOf 0 = 0 := by decide
  have hkept := short_part.readByte_commitPart (s := state) (e := epoch) 0 (state.nextSealSeq 0 0 false) hseat
  refine hread.trans (hkept.trans ?_)
  rw [readByte_single (s := state) rfl, if_neg]
  unfold line locBank locShadow region
  omega

/-- Refutes O45: of an epoch whose image lists no registers, the journal does not hold the line's last byte where the statement has
it. -/
theorem not_epochsBecomeDurable : ¬ Obligations.EpochsBecomeDurable := by
  unfold Obligations.EpochsBecomeDurable
  intro h
  obtain ⟨⟨s', hexec, -, -, -, -, hpart⟩, -, -⟩ := h state epoch [] rfl
  obtain ⟨-, -, -, -, -, hlines⟩ := hpart (by decide : Memory.wf state.mem = true) part rfl
  have hline := hlines ⟨by decide, fun _ hd => by cases hd⟩ 68 line rfl (by decide) (by decide) 255 (by decide)
  have hone : state.readByte (line + 255) = 1 := (readByte_single (s := state) rfl _).trans (if_pos rfl)
  exact absurd ((unwritten hexec).symm.trans (hline.trans hone)) (by decide)

end Sys2Proof.ShortImage
end

section
/-!
REFUTATION of O19. PFENCE adds its cut to the cuts of its tile; the statement has the tile put back with the cut among its own. Of two
domains with one sequence number, both of which the word reaches, it thus has the tile of the first in the second.
-/

namespace Sys2Proof.SharedSequence

open Sys2Proof Sys2Proof.Machine

/-- The tile that issues the word, on cluster 0. -/
def tile : Tile := placedTile 0 0 (placedBlock .sq []) 0

def domain : Domain := { placedDomain false .sq [] with tiles := [tile] }

/-- A domain of the same sequence number, on cluster 1. -/
def other : Domain := { domain with tiles := [{ tile with cluster := 1 }] }

def state : State := { State.reset with domains := [domain, other], cur := ⟨1, 0, .sq, .me, 0, 0, 0⟩ }

/-- PFENCE of no scope, of agent TILE, to semaphore 0. -/
def word : Instr := .pfence 0 0 .tile 0

/-- The clusters of the domains of an answer. -/
def clusters : Out → List (List Nat)
  | .next s => s.domains.map (fun d => d.tiles.map (fun t => t.cluster))
  | .fault _ => []
  | .refused _ => []

/-- The word moves no tile. -/
theorem clusters_word : clusters (exec word state) = [[0], [1]] := by decide

/-- Refutes O19: with two domains of one sequence number, PFENCE leaves the tile of the second on its own cluster. -/
theorem not_markersRendezvousAndFences : ¬ Obligations.MarkersRendezvousAndFences := by
  unfold Obligations.MarkersRendezvousAndFences
  rintro ⟨-, hfences, -⟩
  obtain ⟨-, -, hpfence⟩ := hfences state domain tile ⟨rfl, rfl⟩ rfl 0 0 0 0 .tile 0
  have hmoved : clusters (exec word state) = [[0], [0]] := by
    rw [word, hpfence]
    decide
  exact absurd (clusters_word.symm.trans hmoved) (by decide)

end Sys2Proof.SharedSequence
end

section
/-!
SUPPORT. What the start of an epoch leaves, in its cluster, in the others and in the domains; and SEALED, which rises where no sealing
epoch waits (05 R114, R122, R129).
-/

namespace Sys2Proof.Sealing

open Sys2Proof Sys2Proof.Machine Sys2Proof.Laws Sys2Proof.Banks

variable {s s' s'' : State} {d x y : Domain} {cl c : Nat}

/-! ## The domain of an epoch -/

/-- Where a tile stands: in its domain, on the die, and in which slot. -/
def place (t : Tile) : Nat × Nat × Nat × Bool := (t.lt, t.cluster, t.idx, t.slot)

/-- A domain whose epochs alone have risen. -/
structure SameStay (x y : Domain) : Prop where
  seq : y.seq = x.seq
  phase : y.phase = x.phase
  dtick : y.dtick = x.dtick
  causes : y.causes = x.causes
  tiles : y.tiles.map place = x.tiles.map place

theorem SameStay.refl (x : Domain) : SameStay x x := ⟨rfl, rfl, rfl, rfl, rfl⟩

theorem SameStay.trans {z : Domain} (h : SameStay x y) (k : SameStay y z) : SameStay x z :=
  ⟨k.seq.trans h.seq, k.phase.trans h.phase, k.dtick.trans h.dtick, k.causes.trans h.causes, k.tiles.trans h.tiles⟩

/-- The clusters of the tiles, in order. -/
theorem SameStay.clusters (h : SameStay x y) : y.tiles.map (fun t => t.cluster) = x.tiles.map (fun t => t.cluster) := by
  have hmap := congrArg (List.map (fun p : Nat × Nat × Nat × Bool => p.2.1)) h.tiles
  rw [List.map_map, List.map_map] at hmap
  exact hmap

theorem SameStay.clusterList (h : SameStay x y) : y.clusterList = x.clusterList := congrArg List.eraseDups h.clusters

/-- The numbers of the tiles on a cluster. -/
theorem SameStay.onCluster (h : SameStay x y) (c : Nat) : (y.tiles.filter (fun t => t.cluster == c)).map (fun t => t.lt) =
    (x.tiles.filter (fun t => t.cluster == c)).map (fun t => t.lt) := by
  have hplaces (z : Domain) : (z.tiles.filter (fun t => t.cluster == c)).map (fun t => t.lt) =
      ((z.tiles.map place).filter (fun p => p.2.1 == c)).map (fun p => p.1) := by
    rw [List.filter_map, List.map_map]
    rfl
  rw [hplaces, hplaces, h.tiles]

theorem SameStay.tile? (h : SameStay x y) {k : Nat} {t : Tile} (ht : x.tile? k = some t) :
    ∃ u, y.tile? k = some u ∧ u.lt = t.lt := by
  have hmap := congrArg (·[k]?) h.tiles
  simp only [List.getElem?_map] at hmap
  unfold Domain.tile? at *
  rw [ht] at hmap
  obtain ⟨u, hu, hplace⟩ := Option.map_eq_some_iff.1 hmap
  exact ⟨u, hu, congrArg (·.1) hplace⟩

/-! ## The state that the start of epochs leaves -/

/-- Epochs have been added to the queues of clusters, for domains that stay where they are. -/
structure Begun (s s' : State) : Prop where
  mem : s'.mem = s.mem
  fused : s'.fused = s.fused
  domains : ∃ g, s'.domains = s.domains.map g ∧ ∀ x, SameStay x (g x)
  activeB : ∀ c, (s'.cluster c).activeB = (s.cluster c).activeB
  epochs : ∀ c, ∀ e ∈ (s.cluster c).epochs, e ∈ (s'.cluster c).epochs

theorem Begun.refl (s : State) : Begun s s :=
  ⟨rfl, rfl, ⟨id, (List.map_id _).symm, SameStay.refl⟩, fun _ => rfl, fun _ _ => id⟩

theorem Begun.trans (h : Begun s s') (k : Begun s' s'') : Begun s s'' where
  mem := k.mem.trans h.mem
  fused := k.fused.trans h.fused
  domains := by
    obtain ⟨g, hg, hsame⟩ := h.domains
    obtain ⟨f, hf, hsame'⟩ := k.domains
    exact ⟨f ∘ g, by rw [hf, hg, List.map_map], fun x => (hsame x).trans (hsame' (g x))⟩
  activeB := fun c => (k.activeB c).trans (h.activeB c)
  epochs := fun c e he => k.epochs c e (h.epochs c e he)

theorem Begun.dom? (h : Begun s s') {k : Nat} (hd : s.dom? k = some d) : ∃ e, s'.dom? k = some e ∧ SameStay d e := by
  obtain ⟨g, hg, hsame⟩ := h.domains
  have hseq : ((fun e : Domain => e.seq == k) ∘ g) = (fun e => e.seq == k) := funext (fun e => by
    rw [Function.comp_apply, (hsame e).seq])
  refine ⟨g d, ?_, hsame d⟩
  rw [State.dom?, hg, List.find?_map, hseq]
  exact congrArg (Option.map g) hd

theorem Begun.mem_domains (h : Begun s s') (hd : d ∈ s.domains) : ∃ e ∈ s'.domains, SameStay d e := by
  obtain ⟨g, hg, hsame⟩ := h.domains
  exact ⟨g d, hg ▸ List.mem_map_of_mem hd, hsame d⟩

theorem Begun.onCluster (h : Begun s s') (hs : SameStay x y) (c : Nat) : s'.onCluster y c = s.onCluster x c := by
  have hhost : s'.hostOf = s.hostOf := by
    unfold State.hostOf
    rw [h.fused]
  rw [State.onCluster, State.onCluster, State.runsOn, State.runsOn, hhost, hs.phase, hs.clusterList]

/-! ## One epoch -/

/-- Scope T takes scope A with it, and stays. -/
theorem scT_or_scA : ∀ sc : BitVec 4, (sc &&& scT != 0) = true → ((sc ||| scA) &&& scT != 0) = true := by decide

/-- A tile's part in an epoch of a scope: the tile's place, its epoch number risen by one, and a control image under scope T. -/
structure PartOf (sc : BitVec 4) (t : Tile) (p : EpochPart) : Prop where
  lt : p.lt = t.lt
  tile : p.tile = t.idx
  slot : p.slot = t.slot
  epoch : p.epoch = t.epoch + 1
  ctrl : (sc &&& scT != 0) = true → p.ctrl.isSome = true

/-- An epoch of some tiles of a domain. -/
structure EpochOf (d : Domain) (tiles : List Tile) (sc : BitVec 4) (wide sealing : Bool) (halt : Nat) (e : Epoch) : Prop where
  seq : e.seq = d.seq
  domain : e.domain = wide
  sealing : e.sealing = sealing
  scope : e.scope = if sc &&& scT != 0 then sc ||| scA else sc
  halt : e.halt = halt
  parts : List.Forall₂ (PartOf sc) tiles e.parts

theorem partOf_lts {sc : BitVec 4} {ts : List Tile} {ps : List EpochPart} (h : List.Forall₂ (PartOf sc) ts ps) :
    ps.map (fun p => p.lt) = ts.map (fun t => t.lt) := by
  induction h with
  | nil => rfl
  | cons h _ ih => rw [List.map_cons, List.map_cons, h.lt, ih]

section
variable (s d cl) (tiles : List (Tile × Option (BitVec 4))) (sc : BitVec 4) (wide sealing : Bool) (halt cutTick : Nat)

/-- The epoch joins its cluster's queue, and its domain stays. -/
theorem freeze_eq : ∃ f g, s.freeze d cl tiles sc wide sealing halt cutTick = (s.updCluster cl f).updDom d.seq g ∧
    (∃ e, EpochOf d (tiles.map (fun x => x.1)) sc wide sealing halt e ∧ ∀ k, (f k).epochs = k.epochs ++ [e]) ∧
    (∀ k, (f k).activeB = k.activeB) ∧ ∀ x, SameStay x (g x) := by
  unfold State.freeze
  refine ⟨_, _, rfl, ⟨_, ⟨rfl, rfl, rfl, rfl, rfl, ?_⟩, fun _ => rfl⟩, fun _ => rfl, fun x => ⟨rfl, rfl, rfl, rfl, ?_⟩⟩
  · rw [List.forall₂_map_left_iff, List.forall₂_map_right_iff, List.forall₂_same]
    refine fun x _ => ⟨rfl, rfl, rfl, rfl, fun hsc => ?_⟩
    dsimp only
    rw [if_pos hsc, if_pos (scT_or_scA sc hsc)]
    rfl
  · rw [List.map_map]
    refine List.map_congr_left (fun t _ => ?_)
    rw [Function.comp_apply]
    split <;> rfl

theorem freeze_epochs : ∃ e, ((s.freeze d cl tiles sc wide sealing halt cutTick).cluster cl).epochs = (s.cluster cl).epochs ++ [e] ∧
    EpochOf d (tiles.map (fun x => x.1)) sc wide sealing halt e := by
  obtain ⟨f, g, heq, ⟨e, he, hf⟩, -, -⟩ := freeze_eq s d cl tiles sc wide sealing halt cutTick
  refine ⟨e, ?_, he⟩
  rw [heq]
  exact (congrArg Cluster.epochs ((cluster_updCluster s cl f cl).trans (if_pos rfl))).trans (hf _)

theorem freeze_other (h : c ≠ cl) : (s.freeze d cl tiles sc wide sealing halt cutTick).cluster c = s.cluster c := by
  obtain ⟨f, g, heq, -⟩ := freeze_eq s d cl tiles sc wide sealing halt cutTick
  rw [heq]
  exact (cluster_updCluster s cl f c).trans (if_neg h)

theorem freeze_begun : Begun s (s.freeze d cl tiles sc wide sealing halt cutTick) := by
  obtain ⟨f, g, heq, ⟨e, -, hf⟩, hactive, hg⟩ := freeze_eq s d cl tiles sc wide sealing halt cutTick
  rw [heq]
  have hcluster (c : Nat) : ((s.updCluster cl f).updDom d.seq g).cluster c = if c = cl then f (s.cluster cl) else s.cluster c :=
    cluster_updCluster s cl f c
  refine ⟨rfl, rfl, ⟨_, rfl, fun x => ?_⟩, fun c => ?_, fun c e he => ?_⟩
  · split
    · exact hg x
    · exact .refl x
  · rw [hcluster]
    split
    · next h => rw [hactive, h]
    · rfl
  · rw [hcluster]
    split
    · next h => exact hf _ ▸ List.mem_append_left _ (h ▸ he)
    · exact he

end

/-! ## The epochs of a SEAL -/

/-- One epoch of a SEAL, of a tile of a parked domain. -/
def sealTile (d : Domain) (s : State) (t : Tile) : State :=
  match s.dom? d.seq with
  | some e => s.freeze e t.cluster (((e.tile? t.lt).map (fun t => (t, none))).toList) scAll false true d.dtick d.dtick
  | none => s

/-- One epoch of a SEAL, of the tiles of an active domain on one of its clusters. -/
def sealPart (d : Domain) (s : State) (c : Nat) : State :=
  match s.dom? d.seq with
  | some e => s.freeze e c ((e.tiles.filter (fun t => t.cluster == c)).map (fun t => (t, none))) scAll true true d.dtick d.dtick
  | none => s

theorem sealDomain_parked (h : s.parkedOut d = true) : s.sealDomain cl d = (s.tilesOn d cl).foldl (sealTile d) s := if_pos h

theorem sealDomain_active (h : s.parkedOut d = false) : s.sealDomain cl d = d.clusterList.foldl (sealPart d) s :=
  if_neg (by rw [h]; exact Bool.false_ne_true)

/-- A sealing epoch of a halted domain, of every scope, with the halt tick as its resume tick. -/
structure SealOf (d : Domain) (wide : Bool) (lts : List Nat) (e : Epoch) : Prop where
  seq : e.seq = d.seq
  domain : e.domain = wide
  sealing : e.sealing = true
  scope : e.scope = 15
  halt : e.halt = d.dtick
  lts : e.parts.map (fun p => p.lt) = lts

theorem EpochOf.sealOf {tiles : List Tile} {wide : Bool} {e : Epoch} (h : EpochOf x tiles scAll wide true d.dtick e) (hs : x.seq = d.seq) :
    SealOf d wide (tiles.map (fun t => t.lt)) e := ⟨h.seq.trans hs, h.domain, h.sealing, h.scope, h.halt, partOf_lts h.parts⟩

theorem sealTile_begun (d : Domain) (s : State) (t : Tile) : Begun s (sealTile d s t) := by
  unfold sealTile
  split
  · exact freeze_begun _ _ _ _ _ _ _ _ _
  · exact .refl s

theorem sealPart_begun (d : Domain) (s : State) (c : Nat) : Begun s (sealPart d s c) := by
  unfold sealPart
  split
  · exact freeze_begun _ _ _ _ _ _ _ _ _
  · exact .refl s

theorem foldl_begun {α : Type} {f : State → α → State} (h : ∀ s a, Begun s (f s a)) (l : List α) : ∀ s, Begun s (l.foldl f s) := by
  induction l with
  | nil => exact .refl
  | cons a l ih => exact fun s => (h s a).trans (ih _)

theorem sealDomain_begun (s : State) (cl : Nat) (d : Domain) : Begun s (s.sealDomain cl d) := by
  cases h : s.parkedOut d
  · exact sealDomain_active h ▸ foldl_begun (sealPart_begun d) _ s
  · exact sealDomain_parked h ▸ foldl_begun (sealTile_begun d) _ s

/-- The epoch of a tile of a parked domain. -/
theorem sealTile_epoch (hd : s.dom? d.seq = some x) (hs : SameStay d x) {t : Tile} (ht : d.tile? t.lt = some t) :
    ∃ e ∈ ((sealTile d s t).cluster t.cluster).epochs, SealOf d false [t.lt] e := by
  obtain ⟨u, hu, hlt⟩ := hs.tile? ht
  obtain ⟨e, he, hof⟩ := freeze_epochs s x t.cluster [(u, none)] scAll false true d.dtick d.dtick
  refine ⟨e, ?_, hlt ▸ hof.sealOf hs.seq⟩
  simp only [sealTile, hd, hu, Option.map_some, Option.toList_some]
  exact he ▸ List.mem_append_right _ List.mem_cons_self

theorem foldl_sealTile_epoch {t : Tile} (ht : d.tile? t.lt = some t) {l : List Tile} : ∀ {s x}, s.dom? d.seq = some x → SameStay d x →
    t ∈ l → ∃ e ∈ ((l.foldl (sealTile d) s).cluster t.cluster).epochs, SealOf d false [t.lt] e := by
  induction l with
  | nil => exact fun _ _ h => absurd h List.not_mem_nil
  | cons u l ih =>
    intro s x hd hs hmem
    have hbegun := sealTile_begun d s u
    rcases List.mem_cons.1 hmem with rfl | hmem
    · obtain ⟨e, he, hseal⟩ := sealTile_epoch hd hs ht
      exact ⟨e, (foldl_begun (sealTile_begun d) l _).epochs _ e he, hseal⟩
    · obtain ⟨y, hy, hsame⟩ := hbegun.dom? hd
      exact ih hy (hs.trans hsame) hmem

/-- The queue of a cluster that one epoch of a SEAL has joined. -/
theorem sealPart_epochs (hd : s.dom? d.seq = some x) (hs : SameStay d x) (c : Nat) : ∃ e,
    ((sealPart d s c).cluster c).epochs = (s.cluster c).epochs ++ [e] ∧
    SealOf d true ((d.tiles.filter (fun t => t.cluster == c)).map (fun t => t.lt)) e := by
  obtain ⟨e, he, hof⟩ := freeze_epochs s x c ((x.tiles.filter (fun t => t.cluster == c)).map (fun t => (t, none))) scAll true true
    d.dtick d.dtick
  refine ⟨e, ?_, ?_⟩
  · simp only [sealPart, hd, he]
  · have hseal := hof.sealOf hs.seq
    rw [List.map_map, List.map_map] at hseal
    exact hs.onCluster c ▸ hseal

theorem sealPart_other (d : Domain) (s : State) {c k : Nat} (h : k ≠ c) : (sealPart d s c).cluster k = s.cluster k := by
  unfold sealPart
  split
  · exact freeze_other _ _ _ _ _ _ _ _ _ h
  · rfl

theorem foldl_sealPart_other (d : Domain) {k : Nat} {l : List Nat} (h : k ∉ l) : ∀ s, ((l.foldl (sealPart d) s).cluster k) = s.cluster k := by
  induction l with
  | nil => exact fun _ => rfl
  | cons c l ih =>
    obtain ⟨hc, hl⟩ := not_or.1 (mt List.mem_cons.2 h)
    exact fun s => (ih hl _).trans (sealPart_other d s hc)

theorem nodup_eraseDups (l : List Nat) : l.eraseDups.Nodup := by
  match l with
  | [] => exact List.nodup_nil
  | a :: l =>
    rw [List.eraseDups_cons, List.nodup_cons]
    exact ⟨fun h => by simp at h, nodup_eraseDups (l.filter (fun b => !b == a))⟩
termination_by l.length
decreasing_by exact Nat.lt_succ_of_le (List.length_filter_le _ l)

theorem foldl_sealPart_epochs {k : Nat} {l : List Nat} (hl : l.Nodup) : ∀ {s x}, s.dom? d.seq = some x → SameStay d x → k ∈ l → ∃ e,
    ((l.foldl (sealPart d) s).cluster k).epochs = (s.cluster k).epochs ++ [e] ∧
    SealOf d true ((d.tiles.filter (fun t => t.cluster == k)).map (fun t => t.lt)) e := by
  induction l with
  | nil => exact fun _ _ h => absurd h List.not_mem_nil
  | cons c l ih =>
    intro s x hd hs hmem
    obtain ⟨hc, hl⟩ := List.nodup_cons.1 hl
    by_cases hk : k = c
    · subst hk
      rw [List.foldl_cons, foldl_sealPart_other d hc]
      exact sealPart_epochs hd hs k
    · obtain ⟨y, hy, hsame⟩ := (sealPart_begun d s c).dom? hd
      rw [← sealPart_other d s hk]
      exact ih hl hy (hs.trans hsame) ((List.mem_cons.1 hmem).resolve_left hk)

/-! ## SEALED -/

theorem assoc_map {α : Type} (f : Nat → α → α) {dflt : α} (hd : ∀ k, f k dflt = dflt) (l : List (Nat × α)) (k : Nat) :
    assoc (l.map (fun p => (p.1, f p.1 p.2))) k dflt = f k (assoc l k dflt) := by
  induction l with
  | nil => exact (hd k).symm
  | cons p l ih =>
    obtain ⟨a, y⟩ := p
    by_cases h : a = k
    · subst h
      simp only [List.map_cons, assoc, if_true]
    · simpa only [List.map_cons, assoc, if_neg h] using ih

/-- Some domain of a cluster has a sealing epoch that waits. -/
def waiting (s : State) (c : Nat) : Bool := s.domains.any (fun d => s.onCluster d c && s.sealPending d.seq)

/-- A cluster whose SEAL ends when no sealing epoch waits. -/
def settled (s : State) (c : Nat) (k : Cluster) : Cluster :=
  if k.sealReq && !waiting s c then { k with sealReq := false, sealed := k.qack } else k

theorem cluster_raiseSealed (s : State) (c : Nat) : s.raiseSealed.cluster c = settled s c (s.cluster c) := by
  have hmap : s.raiseSealed.clusters = s.clusters.map (fun p => (p.1, settled s p.1 p.2)) := by
    refine List.map_congr_left (fun p _ => ?_)
    unfold settled waiting
    split <;> rfl
  rw [State.cluster, hmap]
  exact assoc_map (settled s) (fun _ => rfl) _ _

theorem settled_epochs (s : State) (c : Nat) (k : Cluster) : (settled s c k).epochs = k.epochs := by
  unfold settled
  split <;> rfl

/-- The epochs that are read of a cluster stand in the list of clusters. -/
theorem sealPending_of_epoch {e : Epoch} (he : e ∈ (s.cluster c).epochs) (hs : e.sealing = true) : s.sealPending e.seq = true := by
  have hlisted : ∀ l : List (Nat × Cluster), e ∈ (assoc l c Cluster.reset).epochs → ∃ p ∈ l, e ∈ p.2.epochs := by
    intro l
    induction l with
    | nil => exact fun h => absurd h List.not_mem_nil
    | cons p l ih =>
      intro h
      unfold assoc at h
      split at h
      · exact ⟨p, List.mem_cons_self, h⟩
      · obtain ⟨q, hq, hmem⟩ := ih h
        exact ⟨q, List.mem_cons_of_mem p hq, hmem⟩
  obtain ⟨p, hp, hmem⟩ := hlisted s.clusters he
  unfold State.sealPending
  rw [List.any_eq_true]
  exact ⟨p, hp, List.any_eq_true.2 ⟨e, hmem, by simp [hs]⟩⟩

/-! ## SEAL -/

/-- The SEAL of a cluster is under way from now on. -/
def requested (k : Cluster) : Cluster := { k with sealed := false, sealReq := true }

/-- The state that a SEAL leaves, its epochs begun. -/
def requestSeal (s : State) (cl : Nat) : State := (s.updCluster cl requested).raiseSealed

theorem requestSeal_cluster (s : State) (cl : Nat) :
    (requestSeal s cl).cluster cl = settled (s.updCluster cl requested) cl (requested (s.cluster cl)) := by
  rw [requestSeal, cluster_raiseSealed, cluster_updCluster, if_pos rfl]

theorem requestSeal_epochs (s : State) (cl c : Nat) : ((requestSeal s cl).cluster c).epochs = (s.cluster c).epochs := by
  rw [requestSeal, cluster_raiseSealed, settled_epochs, cluster_updCluster]
  split
  · next h => rw [h]; rfl
  · rfl

/-- SEALED rises at once, or the SEAL goes on. -/
theorem requestSeal_settles (hq : (s.cluster cl).qack = true) :
    ((requestSeal s cl).cluster cl).sealed = true ∨ ((requestSeal s cl).cluster cl).sealReq = true := by
  rw [requestSeal_cluster]
  unfold settled
  split
  · exact .inl hq
  · exact .inr rfl

/-- SEALED stays down while a sealing epoch of a domain of the cluster waits. -/
theorem requestSeal_waits {e : Epoch} (hx : x ∈ s.domains) (hon : s.onCluster x cl = true) (he : e ∈ (s.cluster c).epochs)
    (hs : e.sealing = true) (hseq : e.seq = x.seq) :
    ((requestSeal s cl).cluster cl).sealed = false ∧ ((requestSeal s cl).cluster cl).sealReq = true := by
  have hstands : e ∈ ((s.updCluster cl requested).cluster c).epochs := by
    rw [cluster_updCluster]
    split
    · next h => exact h ▸ he
    · exact he
  have hwaits : waiting (s.updCluster cl requested) cl = true :=
    List.any_eq_true.2 ⟨x, hx, Bool.and_eq_true_iff.2 ⟨hon, hseq ▸ sealPending_of_epoch hstands hs⟩⟩
  rw [requestSeal_cluster, settled, hwaits]
  exact ⟨rfl, rfl⟩

/-- Some epoch that a SEAL of the cluster would begin is too great. -/
def overfull (s : State) (cl : Nat) : Bool :=
  (s.sealable cl).any (fun d => (s.sealVolumes cl d).any (fun v => decide (volumeLimit < v)))

/-- The state in which the epochs of a SEAL have begun. -/
def sealAll (s : State) (cl : Nat) : State := (s.sealable cl).foldl (fun s d => s.sealDomain cl d) s

theorem sealFault_eq {die : Nat} (hcl : cl < 192) (hdie : cl / 48 = die) (hq : (s.cluster cl).qack = true) :
    s.sealFault die cl = if overfull s cl = true then some 2 else none := by
  rw [State.sealFault, if_neg (by omega), hq]
  rfl

section
variable {t : Tile} {a : SSpec} (h : s.At d t) (hcl : (t.sval a).toNat < 192) (hdie : (t.sval a).toNat / 48 = dieOf t.cluster)
  (hq : (s.cluster (t.sval a).toNat).qack = true)
include h hcl hdie hq

/-- A SEAL of a cluster of the die whose quiesce is acknowledged is refused for its volumes alone. -/
theorem seal_refused (g : BitVec 4) (hv : overfull s (t.sval a).toNat = true) : exec (.seal g a) s = .next (svFault s t 2) := by
  show execSeal a s = _
  rw [execSeal, onDom_at h]
  dsimp only
  rw [sealFault_eq hcl hdie hq, if_pos hv]

theorem seal_taken (g : BitVec 4) (hv : overfull s (t.sval a).toNat = false) : exec (.seal g a) s =
    .next (requestSeal (sealAll s (t.sval a).toNat) (t.sval a).toNat) := by
  show execSeal a s = _
  rw [execSeal, onDom_at h]
  dsimp only
  rw [sealFault_eq hcl hdie hq, if_neg (by rw [hv]; exact Bool.false_ne_true)]
  rfl

end

theorem not_overfull (hf : ∀ e ∈ s.sealable cl, ∀ n ∈ s.sealVolumes cl e, n ≤ 4194304) : overfull s cl = false := by
  refine List.any_eq_false.2 (fun e he hany => ?_)
  obtain ⟨n, hn, hlt⟩ := List.any_eq_true.1 hany
  exact absurd (of_decide_eq_true hlt) (Nat.not_lt.2 (hf e he n hn))

theorem overfull_of {e : Domain} (he : e ∈ s.sealable cl) (hf : ¬∀ n ∈ s.sealVolumes cl e, n ≤ 4194304) : overfull s cl = true := by
  refine List.any_eq_true.2 ⟨e, he, ?_⟩
  by_contra hnone
  refine hf (fun n hn => Nat.not_lt.1 (fun hlt => hnone (List.any_eq_true.2 ⟨n, hn, decide_eq_true hlt⟩)))

/-! ## SLOT -/

/-- The slot of a tile that is active from now on. -/
def chosen (i : BitVec 2) (v : Bool) (k : Cluster) : Cluster := { k with activeB := upd k.activeB i.toNat (fun _ => v) }

/-- A context that SLOT takes from its tile parks. -/
def parkActive (s : State) (cl : Nat) (i : BitVec 2) : State :=
  match s.contextOn cl i.toNat (s.activeSlot cl i.toNat) with
  | some (d, u) => s.park d.seq u.lt
  | none => s

section
variable {t : Tile} {a : SSpec} {i : BitVec 2} {v : Bool} (h : s.At d t) (hcl : (t.sval a).toNat < 192)
  (hdie : (t.sval a).toNat / 48 = dieOf t.cluster) (hidle : s.tileIdle (t.sval a).toNat i.toNat = true)
  (hhost : v = true → s.hosting (t.sval a).toNat = false)
include h hcl hdie hidle hhost

theorem slot_eq (g : BitVec 4) : exec (.slotw g a i v) s = .next (if s.activeSlot (t.sval a).toNat i.toNat = v then s
    else (parkActive s (t.sval a).toNat i).updCluster (t.sval a).toNat (chosen i v)) := by
  have hfault : s.slotFault (dieOf t.cluster) (t.sval a).toNat i.toNat v = none := by
    have hv : (v && s.hosting (t.sval a).toNat) = false := by
      cases v
      · rfl
      · exact hhost rfl
    rw [State.slotFault, if_neg (by omega), hv, hidle]
    rfl
  show execSlotw a i v s = _
  rw [execSlotw, onDom_at h]
  dsimp only
  rw [hfault]
  rfl

theorem slot_kept (g : BitVec 4) (hv : s.activeSlot (t.sval a).toNat i.toNat = v) : exec (.slotw g a i v) s = .next s := by
  rw [slot_eq h hcl hdie hidle hhost, if_pos hv]

theorem slot_changed (g : BitVec 4) (hv : s.activeSlot (t.sval a).toNat i.toNat ≠ v) : exec (.slotw g a i v) s =
    .next ((parkActive s (t.sval a).toNat i).updCluster (t.sval a).toNat (chosen i v)) := by
  rw [slot_eq h hcl hdie hidle hhost, if_neg hv]

end

theorem chosen_active (i : BitVec 2) (v : Bool) {k : Cluster} (hlen : k.activeB.length = 4) :
    (chosen i v k).activeB.getD i.toNat false = v := by
  have hi : i.toNat < k.activeB.length := hlen ▸ i.isLt
  rw [chosen, List.getD_eq_getElem?_getD, upd_getElem?, if_pos rfl, List.getElem?_eq_getElem hi]
  rfl

theorem updCluster_chosen (s : State) (i : BitVec 2) (v : Bool) (hlen : (s.cluster cl).activeB.length = 4) :
    ((s.updCluster cl (chosen i v)).cluster cl).activeB.getD i.toNat false = v ∧
      ((s.updCluster cl (chosen i v)).cluster cl).epochs = (s.cluster cl).epochs := by
  rw [cluster_updCluster, if_pos rfl]
  exact ⟨chosen_active i v hlen, rfl⟩

/-- A context stands on its tile. -/
theorem contextOn_cluster {idx : Nat} {b : Bool} {u : Tile} (h : s.contextOn cl idx b = some (x, u)) : u.cluster = cl := by
  obtain ⟨e, -, he⟩ := List.exists_of_findSome?_eq_some h
  split at he
  · cases he
  · obtain ⟨w, hw, heq⟩ := Option.map_eq_some_iff.1 he
    cases heq
    have hplace := List.find?_some hw
    simp only [Bool.and_eq_true, beq_iff_eq] at hplace
    exact hplace.1.1

theorem halted_of_tileIdle {idx : Nat} {u : Tile} (hi : s.tileIdle cl idx = true)
    (h : s.contextOn cl idx (s.activeSlot cl idx) = some (x, u)) : x.phase = .halted := by
  rw [State.tileIdle, h] at hi
  exact beq_iff_eq.1 hi

/-- The epoch that a park begins: of scope T, of agent TILE, at the halt tick (assumption 55). -/
structure ParkOf (d : Domain) (u : Tile) (e : Epoch) : Prop where
  seq : e.seq = d.seq
  domain : e.domain = false
  sealing : e.sealing = false
  scope : e.scope.getLsbD 3 = true
  halt : e.halt = d.dtick
  part : ∃ p, e.parts = [p] ∧ PartOf scT u p

theorem park_eq {u : Tile} (hd : s.dom? d.seq = some d) (hu : d.tile? u.lt = some u) :
    s.park d.seq u.lt = s.freeze d u.cluster [(u, none)] scT false false d.dtick d.dtick := by
  rw [State.park, hd]
  dsimp only
  rw [hu]

theorem park_epochs {u : Tile} (hd : s.dom? d.seq = some d) (hu : d.tile? u.lt = some u) : ∃ e,
    ((s.park d.seq u.lt).cluster u.cluster).epochs = (s.cluster u.cluster).epochs ++ [e] ∧ ParkOf d u e := by
  obtain ⟨e, he, hof⟩ := freeze_epochs s d u.cluster [(u, none)] scT false false d.dtick d.dtick
  refine ⟨e, park_eq hd hu ▸ he, hof.seq, hof.domain, hof.sealing, hof.scope ▸ rfl, hof.halt, ?_⟩
  obtain ⟨p, ps, hp, hps, hparts⟩ := List.forall₂_cons_left_iff.1 hof.parts
  rw [List.forall₂_nil_left_iff.1 hps] at hparts
  exact ⟨p, hparts, hp⟩

theorem park_begun {u : Tile} (hd : s.dom? d.seq = some d) (hu : d.tile? u.lt = some u) : Begun s (s.park d.seq u.lt) :=
  park_eq hd hu ▸ freeze_begun _ _ _ _ _ _ _ _ _

/-! ## The statement -/

/-- The epochs of a SEAL of a cluster with one halted domain, active on it or parked. -/
theorem requestSeal_one {e : Domain} (hone : s.sealable cl = [e]) (hd : s.dom? e.seq = some e) :
    (requestSeal (sealAll s cl) cl).mem = s.mem ∧
    (s.parkedOut e = false → (e.tiles ≠ [] → ((requestSeal (sealAll s cl) cl).cluster cl).sealed = false ∧
        ((requestSeal (sealAll s cl) cl).cluster cl).sealReq = true) ∧
      ∀ c ∈ e.clusterList, ∃ x, ((requestSeal (sealAll s cl) cl).cluster c).epochs = (s.cluster c).epochs ++ [x] ∧
        SealOf e true ((e.tiles.filter (fun u => u.cluster == c)).map (fun u => u.lt)) x) ∧
    (s.parkedOut e = true → ∀ u ∈ e.tiles, e.tile? u.lt = some u → u.cluster = cl →
      (((requestSeal (sealAll s cl) cl).cluster cl).sealed = false ∧ ((requestSeal (sealAll s cl) cl).cluster cl).sealReq = true) ∧
      ∃ x ∈ ((requestSeal (sealAll s cl) cl).cluster cl).epochs, SealOf e false [u.lt] x) := by
  have hall : sealAll s cl = s.sealDomain cl e := by rw [sealAll, hone]; rfl
  have hbegun := sealDomain_begun s cl e
  obtain ⟨hmem, hhere⟩ := List.mem_filter.1 (hone ▸ List.mem_cons_self : e ∈ s.sealable cl)
  obtain ⟨e', he', hsame⟩ := hbegun.mem_domains hmem
  have hon : (s.sealDomain cl e).onCluster e' cl = true := (hbegun.onCluster hsame cl).trans (Bool.and_eq_true_iff.1 hhere).1
  have hwaits {c : Nat} {x : Epoch} {w : Bool} {lts : List Nat} (hx : x ∈ ((s.sealDomain cl e).cluster c).epochs)
      (hof : SealOf e w lts x) := requestSeal_waits he' hon hx hof.sealing (hof.seq.trans hsame.seq.symm)
  rw [hall]
  refine ⟨hbegun.mem, fun hp => ?_, fun hp u hu ht huc => ?_⟩
  · have hepochs (c : Nat) (hc : c ∈ e.clusterList) :=
      foldl_sealPart_epochs (l := e.clusterList) (nodup_eraseDups _) hd (.refl e) hc
    rw [← sealDomain_active (cl := cl) hp] at hepochs
    refine ⟨fun hne => ?_, fun c hc => ?_⟩
    · obtain ⟨u, hu⟩ := List.exists_mem_of_ne_nil _ hne
      obtain ⟨x, hx, hof⟩ := hepochs u.cluster (List.mem_eraseDups.2 (List.mem_map_of_mem hu))
      exact hwaits (hx ▸ List.mem_append_right _ List.mem_cons_self) hof
    · obtain ⟨x, hx, hof⟩ := hepochs c hc
      exact ⟨x, (requestSeal_epochs _ _ _).trans hx, hof⟩
  · have hin : u ∈ s.tilesOn e cl := List.mem_filter.2 ⟨hu, by simp [huc]⟩
    obtain ⟨x, hx, hof⟩ := foldl_sealTile_epoch ht hd (.refl e) hin
    rw [← sealDomain_parked hp, huc] at hx
    exact ⟨hwaits hx hof, x, (requestSeal_epochs _ _ _).symm ▸ hx, hof⟩

/-- Settles O24: the volumes alone refuse a SEAL; each epoch of it waits in its queue when SEALED is asked for; a SLOT that changes the
slot parks the context that was active. -/
theorem sealAndSlotTakeEffect : Obligations.SealAndSlotTakeEffect := by
  unfold Obligations.SealAndSlotTakeEffect
  intro s d t hat g i a v cl here fits started hcl hdie
  refine ⟨fun hq => ⟨fun hnone => ?_, fun e he hhere hf => ?_, fun e hone hd hf => ?_⟩,
    fun hidle hhost => ⟨fun hv => slot_kept hat hcl hdie hidle hhost g hv, fun hlen hctx => ?_, fun e u hlen hv hctx hd hu => ?_⟩⟩
  · have hempty : s.sealable cl = [] := List.filter_eq_nil_iff.2 (fun e he => Bool.eq_false_iff.1 (hnone e he))
    have hall : sealAll s cl = s := by rw [sealAll, hempty]; rfl
    have hfits : overfull s cl = false := not_overfull (hempty ▸ fun e he => absurd he List.not_mem_nil)
    refine ⟨_, seal_taken hat hcl hdie hq g hfits, ?_⟩
    rw [hall]
    exact ⟨rfl, rfl, requestSeal_settles hq⟩
  · exact seal_refused hat hcl hdie hq g (overfull_of (List.mem_filter.2 ⟨he, hhere⟩) hf)
  · have hfits : overfull s cl = false := not_overfull (fun x hx => by
      rw [show s.sealable cl = [e] from hone, List.mem_singleton] at hx
      exact hx ▸ hf)
    obtain ⟨hmem, hactive, hparked⟩ := requestSeal_one hone hd
    refine ⟨_, seal_taken hat hcl hdie hq g hfits, hmem, fun hp => ⟨(hactive hp).1, fun c hc => ?_⟩, fun hp u hu ht huc => ?_⟩
    · obtain ⟨x, hx, hof⟩ := (hactive hp).2 c hc
      exact ⟨x, ⟨hx ▸ List.mem_append_right _ List.mem_cons_self, hof.seq, hof.domain, hof.sealing, hof.scope, hof.halt⟩, hx, hof.lts⟩
    · obtain ⟨⟨hdown, hreq⟩, x, hx, hof⟩ := hparked hp u hu ht huc
      exact ⟨hdown, hreq, x, ⟨hx, hof.seq, hof.domain, hof.sealing, hof.scope, hof.halt⟩, hof.lts⟩
  · by_cases hv : s.activeSlot cl i.toNat = v
    · exact ⟨s, slot_kept hat hcl hdie hidle hhost g hv, rfl, rfl, hv⟩
    · have hpark : parkActive s cl i = s := by rw [parkActive, hctx]
      refine ⟨_, slot_changed hat hcl hdie hidle hhost g hv, ?_⟩
      rw [hpark]
      exact ⟨rfl, rfl, (updCluster_chosen s i v hlen).1⟩
  · have hpark : parkActive s cl i = s.park e.seq u.lt := by rw [parkActive, hctx]
    have huc := contextOn_cluster hctx
    have hbegun := park_begun hd hu
    obtain ⟨e', he', hsame⟩ := hbegun.dom? hd
    obtain ⟨x, hx, hof⟩ := park_epochs hd hu
    obtain ⟨p, hp, hpart⟩ := hof.part
    obtain ⟨hslot, hqueue⟩ := updCluster_chosen (s.park e.seq u.lt) i v ((hbegun.activeB cl).symm ▸ hlen)
    refine ⟨_, slot_changed hat hcl hdie hidle hhost g hv, ?_⟩
    rw [hpark]
    refine ⟨hbegun.mem, hslot, ⟨e', he', hsame.phase.trans (halted_of_tileIdle hidle hctx), hsame.dtick, hsame.causes⟩, x, p,
      hqueue.trans (huc ▸ hx), hof.seq, hof.domain, hof.sealing, hof.scope, hof.halt, hp, hpart.tile, hpart.slot, hpart.lt,
      hpart.ctrl rfl, hpart.epoch⟩

end Sys2Proof.Sealing
end

section
/-!
SUPPORT. A result that is due enters, or its trap is taken, and the guards of its tile are settled behind it (08 R189-R191, 09 R213,
10 R237). The proofs that settle O10 and O11.
-/

namespace Sys2Proof.Completions

open Sys2Proof Sys2Proof.Machine Sys2Proof.Laws Sys2Proof.Access

variable {s : State} {d d' d'' : Domain} {t : Tile} {lt : Nat} {f : Flight}

/-! ## The guards of a tile -/

/-- At most guards of tile lt have been resolved: its records, engines and semaphores may have gone on, and nothing else of it. -/
structure Settled (lt : Nat) (d d' : Domain) : Prop where
  seq : d'.seq = d.seq
  causes : d'.causes = d.causes
  haltAt : d'.haltAt = d.haltAt
  tile : ∀ {t}, d.tile? lt = some t → ∃ t', d'.tile? lt = some t' ∧
    { t' with recs := t.recs, engines := t.engines, sems := t.sems } = t

theorem Settled.refl (lt : Nat) (d : Domain) : Settled lt d d := ⟨rfl, rfl, rfl, fun h => ⟨_, h, rfl⟩⟩

theorem Settled.trans (h : Settled lt d d') (k : Settled lt d' d'') : Settled lt d d'' := by
  refine ⟨k.seq.trans h.seq, k.causes.trans h.causes, k.haltAt.trans h.haltAt, fun {t} ht => ?_⟩
  obtain ⟨u, hu, htu⟩ := h.tile ht
  obtain ⟨v, hv, huv⟩ := k.tile hu
  refine ⟨v, hv, ?_⟩
  rw [← huv] at htu
  exact htu

/-- A change of records, engines and semaphores alone. -/
theorem settled_updTile (d : Domain) {g : Tile → Tile}
    (hg : ∀ t, { g t with recs := t.recs, engines := t.engines, sems := t.sems } = t) : Settled lt d (d.updTile lt g) :=
  ⟨rfl, rfl, rfl, fun {t} ht => ⟨g t, by rw [tile?_updTile, if_pos rfl, ht]; rfl, hg t⟩⟩

theorem Settled.withEvs (h : Settled lt d d') (l : List Ev) : Settled lt d { d' with evs := l } := ⟨h.seq, h.causes, h.haltAt, h.tile⟩

theorem settled_squash (d : Domain) (lt : Nat) (r : Rec) (now : Nat) : Settled lt d (d.squash lt r now) := by
  unfold Domain.squash
  dsimp only
  split
  · exact ((settled_updTile d (by exact fun _ => rfl)).withEvs _).trans (settled_updTile _ (by exact fun _ => rfl))
  · exact (settled_updTile d (by exact fun _ => rfl)).withEvs _

theorem settled_settleGuards (d : Domain) (lt now : Nat) : Settled lt d (d.settleGuards lt now) := by
  unfold Domain.settleGuards
  split
  · exact .refl lt d
  · next t ht =>
    clear ht
    generalize t.recs = rs
    induction rs generalizing d with
    | nil => exact .refl lt d
    | cons r rs ih =>
      refine Settled.trans ?_ (ih _)
      dsimp only
      split
      · split
        · split
          · exact (settled_updTile d (by exact fun _ => rfl)).trans (settled_updTile _ (by exact fun _ => rfl))
          · exact settled_squash d lt r now
        · exact .refl lt d
      · exact .refl lt d

/-! ## The entry of a result -/

/-- The tile once the result has entered, its flags with it. -/
def entered (f : Flight) (t : Tile) : Tile :=
  ({ t with flags := t.flags ||| orFlags f.raised, flights := t.flights.erase f } : Tile).enter f

/-- The tile with the result suppressed into its latch by enabled flags. -/
def latched (f : Flight) (trap : Flg) (t : Tile) : Tile := { t with
  flags := t.flags ||| orFlags f.raised
  laneflg := laneflgOf trap f.raised
  flights := t.flights.map (fun g => if g = f then { g with cause := cFp, raised := [] } else g) }

/-- The guards of the tile are settled, unless another result of the tick has yet to enter. -/
theorem settled_behind (d : Domain) (lt now : Nat) : Settled lt d (match d.tile? lt with
    | some u => if u.dueFlight now then d else d.settleGuards lt now
    | none => d) := by
  split
  · split
    · exact .refl lt d
    · exact settled_settleGuards d lt now
  · exact .refl lt d

theorem complete_entering (h : d.tile? lt = some t) (htrap : t.trapen &&& orFlags f.raised = 0) :
    Settled lt (d.updTile lt (entered f)) (d.complete lt f) := by
  unfold Domain.complete
  simp only [h, htrap, bne_self_eq_false, Bool.false_eq_true, if_false]
  exact settled_behind _ lt d.dtick

theorem complete_trapping (h : d.tile? lt = some t) (htrap : t.trapen &&& orFlags f.raised ≠ 0) :
    Settled lt ((d.updTile lt (latched f (t.trapen &&& orFlags f.raised))).raise ⟨d.dtick, lt, colIdx f.col, cFp, 0⟩ 0)
      (d.complete lt f) := by
  unfold Domain.complete
  simp only [h, bne_iff_ne.2 htrap, if_true]
  exact settled_behind _ lt d.dtick

theorem complete_seq (d : Domain) (lt : Nat) (f : Flight) : (d.complete lt f).seq = d.seq := by
  cases h : d.tile? lt with
  | none => rw [Domain.complete, h]
  | some t =>
    by_cases htrap : t.trapen &&& orFlags f.raised = 0
    · exact (complete_entering h htrap).seq
    · exact (complete_trapping h htrap).seq.trans (sameOrder_raise _ _ _).seq

/-- COLUMN_RESULT_COMPLETION completes the result that is due. -/
theorem completion_eq (h : s.At d t) (hlt : t.lt = s.cur.lt) (hf : firstDue d.dtick t.flights = some f) :
    exec .columnResultCompletion s = .next (s.updDom s.cur.dom (fun e => e.complete s.cur.lt f)) := by
  show execColumnResultCompletion s = _
  rw [execColumnResultCompletion, onDom_at h, hf, At.seq h, hlt]

/-- The place after the completion, whose tile has gone on from u by its guards. -/
theorem completed_at (h : s.At d t) {e : Domain} {u : Tile} (hs : Settled s.cur.lt e (d.complete s.cur.lt f)) (hu : e.tile? s.cur.lt = some u) :
    ∃ t', (s.updDom s.cur.dom (fun e => e.complete s.cur.lt f)).At (d.complete s.cur.lt f) t' ∧
      { t' with recs := u.recs, engines := u.engines, sems := u.sems } = u := by
  obtain ⟨t', ht', hsame⟩ := hs.tile hu
  exact ⟨t', at_updDom (f := fun e => e.complete s.cur.lt f) h (fun e => complete_seq e _ _) ht', hsame⟩

/-- Settles O10: the result enters, and behind it only guards are settled. -/
theorem columnResultCompletes : Obligations.ColumnResultCompletes := by
  unfold Obligations.ColumnResultCompletes
  intro s d t f h hlt hf htrap
  have hs := complete_entering h.2 htrap
  obtain ⟨t', hat, hsame⟩ := completed_at (u := entered f t) h hs (by rw [tile?_updTile, if_pos rfl, h.2]; rfl)
  exact ⟨_, completion_eq h hlt hf, _, t', hat, hsame, hs.causes, rfl, rfl, rfl⟩

/-! ## The lanes of a trap -/

theorem laneMask_cons (cause : Flg) (i : Nat) (x : Flg) (l : List Flg) {k : Nat} (hk : k < 32) :
    (laneMask cause i (x :: l)).getLsbD k = ((decide (k = i) && decide (x &&& cause ≠ 0)) || (laneMask cause (i + 1) l).getLsbD k) := by
  rw [laneMask, BitVec.getLsbD_or]
  congr 1
  by_cases h : x &&& cause = 0#9
  · simp [h]
  · have hbit : Nat.testBit (1 <<< i) k = decide (k = i) := by
      rw [Nat.one_shiftLeft, Nat.testBit_two_pow]
      exact decide_eq_decide.2 eq_comm
    rw [if_pos (show (x &&& cause != 0) = true from bne_iff_ne.2 h), BitVec.natCast_eq_ofNat, BitVec.getLsbD_ofNat, hbit]
    simp [hk, h]

/-- Bit k of the mask is set when result lane k raised one of the flags. -/
theorem getLsbD_laneMask (cause : Flg) {k : Nat} (hk : k < 32) (l : List Flg) : ∀ i : Nat,
    (laneMask cause i l).getLsbD k = (decide (i ≤ k) && decide (l.getD (k - i) 0 &&& cause ≠ 0)) := by
  induction l with
  | nil => intro i; simp [laneMask]
  | cons x l ih =>
    intro i
    rw [laneMask_cons cause i x l hk, ih]
    rcases Nat.lt_trichotomy k i with hlt | rfl | hgt
    · simp [Nat.ne_of_lt hlt, Nat.not_le.2 hlt, Nat.not_le.2 (Nat.lt_succ_of_lt hlt)]
    · simp
    · obtain ⟨j, rfl⟩ : ∃ j, k = i + 1 + j := ⟨k - (i + 1), by omega⟩
      have hj : i + 1 + j - i = j + 1 := by omega
      simp [hj, Nat.ne_of_gt hgt, hgt.le]

theorem laneflgOf_lane (trap : Flg) (raised : List Flg) {k : Nat} (hk : k < 32) :
    (laneflgOf trap raised).getLsbD k = decide (raised.getD k 0 &&& trap ≠ 0) := by
  have hlane := getLsbD_laneMask trap hk raised 0
  rw [laneflgOf, BitVec.getLsbD_or, BitVec.getLsbD_shiftLeft]
  simp [-BitVec.getLsbD_eq_getElem, hk, hlane, show k < 64 by omega]

theorem laneflgOf_flags (trap : Flg) (raised : List Flg) : (laneflgOf trap raised).extractLsb' 32 9 = trap := by
  ext i hi
  have h64 : 32 + i < 64 := by omega
  simp [laneflgOf, h64, BitVec.getLsbD_eq_getElem hi]

/-- A result that is due is one of those under way. -/
theorem mem_of_firstDue {now : Nat} {fs : List Flight} (h : firstDue now fs = some f) : f ∈ fs := by
  have hfold : ∀ (l : List Flight) (m : Option Flight), (∀ g, m = some g → g ∈ fs) → (∀ g ∈ l, g ∈ fs) →
      ∀ g, l.foldl (fun m f => match m with
        | some g => if colIdx f.col < colIdx g.col then some f else some g
        | none => some f) m = some g → g ∈ fs := by
    intro l
    induction l with
    | nil => exact fun m hm _ => hm
    | cons x l ih =>
      intro m hm hl
      refine ih _ (fun g hg => ?_) (fun g hg => hl g (List.mem_cons_of_mem x hg))
      have hx := hl x List.mem_cons_self
      dsimp only at hg
      split at hg
      · split at hg
        · cases hg; exact hx
        · cases hg; exact hm _ rfl
      · cases hg; exact hx
  exact hfold _ none nofun (fun g hg => List.mem_of_mem_filter hg) f (Option.eq_some_of_filter_eq_some h)

/-- A floating-point cause halts its domain a lead later (15 R379). -/
theorem haltTickOf_fp (d : Domain) (lt src : Nat) : d.haltTickOf ⟨d.dtick, lt, src, cFp, 0⟩ = d.dtick + d.lead := by
  simp [Domain.haltTickOf, cFp, cDeadline, requestCode]

/-- Settles O11: the result stays in its latch, the cause is recorded, and behind it only guards are settled. -/
theorem floatingPointTrapSuppressesTheResult : Obligations.FloatingPointTrapSuppressesTheResult := by
  unfold Obligations.FloatingPointTrapSuppressesTheResult
  intro s d t f h hlt hf htrap trap
  have hs := complete_trapping h.2 htrap
  have hu : (d.updTile s.cur.lt (latched f trap)).tile? s.cur.lt = some (latched f trap t) := by
    rw [tile?_updTile, if_pos rfl, h.2]; rfl
  have hraise := tile?_raise (d.updTile s.cur.lt (latched f trap)) ⟨d.dtick, s.cur.lt, colIdx f.col, cFp, 0⟩ 0 hu
  rw [marked_other rfl] at hraise
  obtain ⟨t', hat, hsame⟩ := completed_at h hs hraise
  have hflags : t'.flags = t.flags ||| orFlags f.raised := (congrArg Tile.flags hsame :)
  have hlanes : t'.laneflg = laneflgOf trap f.raised := (congrArg Tile.laneflg hsame :)
  have hflights : t'.flights = (latched f trap t).flights := (congrArg Tile.flights hsame :)
  refine ⟨_, completion_eq h hlt hf, _, t', hat, hflags, by rw [hlanes, laneflgOf_flags], fun k hk => by rw [hlanes, laneflgOf_lane _ _ hk],
    ⟨{ f with cause := cFp, raised := [] }, ?_, rfl, rfl, rfl, rfl⟩, (congrArg Tile.s hsame :), (congrArg Tile.v hsame :), (congrArg Tile.sqQ hsame :),
    (congrArg Tile.vxQ hsame :), (congrArg Tile.xcQ hsame :), (congrArg Tile.lsQ hsame :), (congrArg Tile.preds hsame :), ?_, ?_, rfl⟩
  · rw [hflights]
    exact List.mem_map.2 ⟨f, mem_of_firstDue hf, if_pos rfl⟩
  · exact hs.causes.trans (raise_causes _ _ _)
  · rw [hs.haltAt]
    exact congrArg (fun n => some (match d.haltAt with | some k => min k n | none => n)) (haltTickOf_fp d _ _)

end Sys2Proof.Completions
end

section
/-!
SUPPORT. A value rounded to a multiple of a power of two: what `roundAt` answers of any exact value, in each of the five modes (08 R180).
-/

namespace Sys2Proof.Rounding

open Sys2Proof Sys2Proof.Machine

variable {mode : Rm} {neg sticky : Bool} {m n : ℕ} {e q : ℤ} {y z ρ : ℝ}

/-- y is m · 2^e, and with `sticky` a little more. -/
def Exact (m : ℕ) (e : ℤ) (sticky : Bool) (y : ℝ) : Prop :=
  ∃ δ : ℝ, y = (m + δ) * 2 ^ e ∧ 0 ≤ δ ∧ δ < 1 ∧ (sticky = true ↔ δ ≠ 0)

theorem exact_whole (m : ℕ) (e : ℤ) : Exact m e false (m * 2 ^ e) := ⟨0, by rw [add_zero], le_rfl, one_pos, by simp⟩

theorem two_zpow_pos (e : ℤ) : (0 : ℝ) < 2 ^ e := zpow_pos two_pos e

theorem Exact.bounds (h : Exact m e sticky y) : (m : ℝ) * 2 ^ e ≤ y ∧ y < (m + 1) * 2 ^ e := by
  obtain ⟨δ, rfl, h0, h1, -⟩ := h
  have hp := two_zpow_pos e
  exact ⟨mul_le_mul_of_nonneg_right (by linarith) hp.le, mul_lt_mul_of_pos_right (by linarith) hp⟩

/-- The modes that cut a magnitude of a sign, those that make it grow, and those to nearest. -/
def Cut (mode : Rm) (neg : Bool) : Prop := mode = .rtz ∨ (mode = .rup ∧ neg = true) ∨ (mode = .rdn ∧ neg = false)
def Grow (mode : Rm) (neg : Bool) : Prop := (mode = .rup ∧ neg = false) ∨ (mode = .rdn ∧ neg = true)
def Near (mode : Rm) : Prop := mode = .rne ∨ mode = .rna

theorem modes (h : mode ≠ .dyn) (neg : Bool) : Cut mode neg ∨ Grow mode neg ∨ Near mode := by
  cases mode <;> cases neg <;> simp_all [Cut, Grow, Near]

theorem not_grow_of_cut (h : Cut mode neg) : ¬Grow mode neg := by
  rcases h with rfl | ⟨rfl, rfl⟩ | ⟨rfl, rfl⟩ <;> simp [Grow]

theorem not_near_of_cut (h : Cut mode neg) : ¬Near mode := by
  rcases h with rfl | ⟨rfl, rfl⟩ | ⟨rfl, rfl⟩ <;> simp [Near]

theorem not_near_of_grow (h : Grow mode neg) : ¬Near mode := by
  rcases h with ⟨rfl, rfl⟩ | ⟨rfl, rfl⟩ <;> simp [Near]

/-- k is z rounded to an integer: cut, or grown, or the nearest, a tie going to the even one or to the greater. -/
structure Nearest (mode : Rm) (neg : Bool) (z : ℝ) (k : ℕ) : Prop where
  cut : Cut mode neg → k ≤ z ∧ z < k + 1
  grow : Grow mode neg → k < z + 1 ∧ z ≤ k
  near : Near mode → |z - k| ≤ 1 / 2
  even : mode = .rne → |z - k| = 1 / 2 → k % 2 = 0
  away : mode = .rna → |z - k| = 1 / 2 → z < k

theorem nearest_down (h0 : 0 ≤ ρ) (h1 : ρ < 1) (hgrow : Grow mode neg → ρ = 0) (hnear : Near mode → ρ ≤ 1 / 2)
    (heven : mode = .rne → ρ = 1 / 2 → n % 2 = 0) (haway : mode = .rna → ρ ≠ 1 / 2) : Nearest mode neg (n + ρ) n := by
  have hdist : |(n : ℝ) + ρ - n| = ρ := by rw [add_sub_cancel_left, abs_of_nonneg h0]
  exact ⟨fun _ => ⟨by linarith, by linarith⟩, fun h => by rw [hgrow h]; exact ⟨by linarith, by linarith⟩, fun h => hdist.trans_le (hnear h),
    fun h ht => heven h (hdist ▸ ht), fun h ht => absurd (hdist ▸ ht) (haway h)⟩

theorem nearest_up (h1 : ρ < 1) (hcut : ¬Cut mode neg) (hgrow : Grow mode neg → 0 < ρ) (hnear : Near mode → 1 / 2 ≤ ρ)
    (heven : mode = .rne → ρ = 1 / 2 → n % 2 = 1) : Nearest mode neg (n + ρ) (n + 1) := by
  have hdist : |(n : ℝ) + ρ - (n + 1 : ℕ)| = 1 - ρ := by
    rw [Nat.cast_add, Nat.cast_one, abs_of_neg (by linarith)]
    ring
  refine ⟨fun h => absurd h hcut, fun h => ?_, fun h => ?_, fun h ht => ?_, fun _ _ => ?_⟩
  · have := hgrow h
    push_cast
    exact ⟨by linarith, by linarith⟩
  · have := hnear h
    rw [hdist]
    linarith
  · have := heven h (by linarith [hdist ▸ ht])
    omega
  · push_cast
    linarith

/-- How what is cut off compares with half. -/
def Halves (half : Ordering) (ρ : ℝ) : Prop :=
  match half with
  | .lt => ρ < 1 / 2
  | .eq => ρ = 1 / 2
  | .gt => 1 / 2 < ρ

/-- z is n and a part ρ below one: how ρ compares with half, and whether it is zero. -/
structure Parts (z : ℝ) (n : ℕ) (half : Ordering) (ix : Bool) : Prop where
  parts : ∃ ρ : ℝ, z = n + ρ ∧ 0 ≤ ρ ∧ ρ < 1 ∧ Halves half ρ ∧ (ix = true ↔ ρ ≠ 0)

theorem Parts.nearest {half : Ordering} {ix : Bool} (h : Parts z n half ix) (hmode : mode ≠ .dyn) :
    Nearest mode neg z (if roundsUp mode neg (n % 2 == 1) half ix then n + 1 else n) := by
  obtain ⟨ρ, rfl, h0, h1, hhalf, hix⟩ := h.parts
  have hpos : ix = true → 0 < ρ := fun h => lt_of_le_of_ne h0 (hix.1 h).symm
  have hzero : ix = false → ρ = 0 := fun h => by_contra fun hn => by rw [hix.2 hn] at h; cases h
  cases mode with
  | dyn => exact absurd rfl hmode
  | rtz => exact nearest_down h0 h1 (by simp [Grow]) (by simp [Near]) (by simp) (by simp)
  | rup =>
    cases ix <;> cases neg
    case true.false => exact nearest_up h1 (by simp [Cut]) (fun _ => hpos rfl) (by simp [Near]) (by simp)
    case true.true => exact nearest_down h0 h1 (by simp [Grow]) (by simp [Near]) (by simp) (by simp)
    all_goals exact nearest_down h0 h1 (fun _ => hzero rfl) (by simp [Near]) (by simp) (by simp)
  | rdn =>
    cases ix <;> cases neg
    case true.true => exact nearest_up h1 (by simp [Cut]) (fun _ => hpos rfl) (by simp [Near]) (by simp)
    case true.false => exact nearest_down h0 h1 (by simp [Grow]) (by simp [Near]) (by simp) (by simp)
    all_goals exact nearest_down h0 h1 (fun _ => hzero rfl) (by simp [Near]) (by simp) (by simp)
  | rne =>
    cases half with
    | lt => exact nearest_down h0 h1 (by simp [Grow]) (fun _ => le_of_lt hhalf) (fun _ h => absurd h (ne_of_lt hhalf)) (by simp)
    | gt => exact nearest_up h1 (by simp [Cut]) (by simp [Grow]) (fun _ => le_of_lt hhalf) (fun _ h => absurd h (ne_of_gt hhalf))
    | eq =>
      by_cases hodd : n % 2 = 1
      · rw [show roundsUp .rne neg (n % 2 == 1) .eq ix = true by simp [roundsUp, hodd], if_pos rfl]
        exact nearest_up h1 (by simp [Cut]) (by simp [Grow]) (fun _ => ge_of_eq hhalf) (fun _ _ => hodd)
      · rw [show roundsUp .rne neg (n % 2 == 1) .eq ix = false by simp [roundsUp]; omega, if_neg Bool.false_ne_true]
        exact nearest_down h0 h1 (by simp [Grow]) (fun _ => le_of_eq hhalf) (fun _ _ => by omega) (by simp)
  | rna =>
    cases half with
    | lt => exact nearest_down h0 h1 (by simp [Grow]) (fun _ => le_of_lt hhalf) (by simp) (fun _ => ne_of_lt hhalf)
    | gt => exact nearest_up h1 (by simp [Cut]) (by simp [Grow]) (fun _ => le_of_lt hhalf) (by simp)
    | eq => exact nearest_up h1 (by simp [Cut]) (by simp [Grow]) (fun _ => ge_of_eq hhalf) (by simp)

/-- The rounded integer is the value exactly when nothing is cut off. -/
theorem Parts.inexact_iff {half : Ordering} {ix : Bool} (h : Parts z n half ix) (mode : Rm) :
    ix = true ↔ z ≠ (if roundsUp mode neg (n % 2 == 1) half ix then n + 1 else n : ℕ) := by
  obtain ⟨ρ, rfl, h0, h1, hhalf, hix⟩ := h.parts
  rw [hix]
  constructor
  · intro hne
    split
    · push_cast
      intro h
      linarith
    · intro h
      exact hne (by linarith)
  · rintro hne rfl
    have hlt : half = .lt := by
      cases half with
      | lt => rfl
      | eq => exact absurd hhalf (by norm_num [Halves])
      | gt => exact absurd hhalf (by norm_num [Halves])
    have hdown : roundsUp mode neg (n % 2 == 1) half ix = false := by
      have : ix = false := by rw [← Bool.not_eq_true, hix]; simp
      subst hlt this
      cases mode <;> rfl
    rw [hdown] at hne
    exact hne (by simp)

theorem two_zpow_toNat {d : ℤ} (h : 0 ≤ d) : ((2 ^ d.toNat : ℕ) : ℝ) = 2 ^ d := by
  rw [Nat.cast_pow, Nat.cast_ofNat, ← zpow_natCast, Int.toNat_of_nonneg h]

/-- The scale of a value against 2^q. -/
theorem div_scale (x : ℝ) (e q : ℤ) : x * 2 ^ e / 2 ^ q = x / 2 ^ (q - e) := by
  rw [zpow_sub₀ two_ne_zero]
  field_simp

/-- A whole number and a part that `sticky` tells of: they are zero together. -/
theorem inexact_iff (m : ℕ) {δ : ℝ} (h0 : 0 ≤ δ) (hδ : sticky = true ↔ δ ≠ 0) : (m != 0 || sticky) = true ↔ (m : ℝ) + δ ≠ 0 := by
  have hm0 : (0 : ℝ) ≤ m := Nat.cast_nonneg m
  rw [Bool.or_eq_true, bne_iff_ne, hδ]
  constructor
  · rintro (hm | hd) hz
    · exact hm (by exact_mod_cast (by linarith : (m : ℝ) = 0))
    · exact hd (by linarith)
  · intro hne
    by_contra! hz
    exact hne (by rw [hz.1, hz.2]; norm_num)

/-- A value far below 2^q. -/
theorem parts_far (h : Exact m e sticky y) (hfar : m.log2 + 2 < (q - e).toNat) : Parts (y / 2 ^ q) 0 .lt (m != 0 || sticky) := by
  obtain ⟨δ, rfl, h0, h1, hδ⟩ := h
  have hm0 : (0 : ℝ) ≤ m := Nat.cast_nonneg m
  rw [div_scale, ← two_zpow_toNat (show 0 ≤ q - e by omega)]
  generalize (q - e).toNat = d at hfar
  have hsmall : (m + δ) / ((2 ^ d : ℕ) : ℝ) < 1 / 2 := by
    have hlog : m + 1 ≤ 2 ^ (m.log2 + 1) := Nat.lt_log2_self
    have hpow : 2 ^ (m.log2 + 1) * 2 ≤ 2 ^ d := by rw [← Nat.pow_succ]; exact Nat.pow_le_pow_right two_pos (by omega)
    have : ((m + 1) * 2 : ℝ) ≤ (2 ^ d : ℕ) := by exact_mod_cast (Nat.mul_le_mul_right 2 hlog).trans hpow
    rw [div_lt_iff₀ (by positivity)]
    linarith
  refine ⟨_, (by rw [Nat.cast_zero, zero_add]), by positivity, hsmall.trans (by norm_num), hsmall, ?_⟩
  rw [inexact_iff m h0 hδ, ne_eq, ne_eq (_ / _), div_eq_zero_iff, not_or]
  exact ⟨fun hne => ⟨hne, by positivity⟩, fun hne => hne.1⟩

/-- A whole multiple of 2^q. -/
theorem parts_whole (h : Exact m e false y) (hqe : q ≤ e) : Parts (y / 2 ^ q) (m * 2 ^ (e - q).toNat) .lt false := by
  obtain ⟨δ, rfl, -, -, hδ⟩ := h
  obtain rfl : δ = 0 := by_contra fun hne => absurd (hδ.2 hne) (by decide)
  refine ⟨0, ?_, le_rfl, one_pos, by norm_num [Halves], by simp⟩
  rw [div_scale, Nat.cast_mul, two_zpow_toNat (by omega), show e - q = -(q - e) by ring, zpow_neg]
  ring

/-- How a remainder below 2^d, and a little more when `sticky`, compares with half of 2^d. -/
def remainderHalf (r d : ℕ) (sticky : Bool) : Ordering :=
  match compare (2 * r) (2 ^ d) with
  | .lt => .lt
  | .gt => .gt
  | .eq => if sticky then .gt else .eq

theorem halves_remainder {r c : ℕ} {δ : ℝ} (h0 : 0 ≤ δ) (h1 : δ < 1) (hδ : sticky = true ↔ δ ≠ 0) :
    Halves (remainderHalf r (c + 1) sticky) ((r + δ) / (2 ^ (c + 1) : ℕ)) := by
  have hp : (0 : ℝ) < (2 ^ (c + 1) : ℕ) := by positivity
  have heven : 2 ^ (c + 1) = 2 * 2 ^ c := Nat.pow_succ'
  unfold remainderHalf
  rcases Nat.lt_trichotomy (2 * r) (2 ^ (c + 1)) with hlt | heq | hgt
  · rw [Nat.compare_eq_lt.2 hlt]
    have : (2 * r + 2 : ℝ) ≤ (2 ^ (c + 1) : ℕ) := by exact_mod_cast (by omega : 2 * r + 2 ≤ 2 ^ (c + 1))
    show _ < (1 / 2 : ℝ)
    rw [div_lt_iff₀ hp]
    linarith
  · rw [Nat.compare_eq_eq.2 heq]
    have : (2 * r : ℝ) = (2 ^ (c + 1) : ℕ) := by exact_mod_cast heq
    cases sticky with
    | true =>
      have hpos := lt_of_le_of_ne h0 (hδ.1 rfl).symm
      show (1 / 2 : ℝ) < _
      rw [lt_div_iff₀ hp]
      linarith
    | false =>
      have hz : δ = 0 := by_contra fun hne => absurd (hδ.2 hne) (by decide)
      show _ = (1 / 2 : ℝ)
      rw [div_eq_iff hp.ne', hz]
      linarith
  · rw [Nat.compare_eq_gt.2 hgt]
    have : ((2 ^ (c + 1) : ℕ) : ℝ) + 1 ≤ 2 * r := by exact_mod_cast hgt
    show (1 / 2 : ℝ) < _
    rw [lt_div_iff₀ hp]
    linarith

/-- A value cut at 2^q. -/
theorem parts_cut (h : Exact m e sticky y) (hqe : e < q) : Parts (y / 2 ^ q) (m / 2 ^ (q - e).toNat)
    (remainderHalf (m % 2 ^ (q - e).toNat) (q - e).toNat sticky) (m % 2 ^ (q - e).toNat != 0 || sticky) := by
  obtain ⟨δ, rfl, h0, h1, hδ⟩ := h
  obtain ⟨c, hc⟩ : ∃ c, (q - e).toNat = c + 1 := ⟨(q - e).toNat - 1, by omega⟩
  rw [div_scale, ← two_zpow_toNat (show 0 ≤ q - e by omega), hc]
  have hsplit : (m : ℝ) = (2 ^ (c + 1) : ℕ) * (m / 2 ^ (c + 1) : ℕ) + (m % 2 ^ (c + 1) : ℕ) := by
    exact_mod_cast (Nat.div_add_mod m (2 ^ (c + 1))).symm
  have hlt : m % 2 ^ (c + 1) < 2 ^ (c + 1) := Nat.mod_lt _ (Nat.two_pow_pos _)
  generalize m % 2 ^ (c + 1) = r at hsplit hlt ⊢
  have hp : (0 : ℝ) < (2 ^ (c + 1) : ℕ) := by positivity
  have hr1 : (r : ℝ) + 1 ≤ (2 ^ (c + 1) : ℕ) := by exact_mod_cast hlt
  refine ⟨(r + δ) / (2 ^ (c + 1) : ℕ), ?_, by positivity, ?_, halves_remainder h0 h1 hδ, ?_⟩
  · rw [hsplit]
    field_simp
    ring
  · rw [div_lt_one hp]
    linarith
  · rw [inexact_iff r h0 hδ, ne_eq, ne_eq (_ / _), div_eq_zero_iff, not_or]
    exact ⟨fun hne => ⟨hne, hp.ne'⟩, fun hne => hne.1⟩

/-- `roundAt` rounds the parts that 2^q cuts a value into. -/
theorem roundAt_parts (h : Exact m e sticky y) (hs : sticky = true → e < q) (mode : Rm) (neg : Bool) : ∃ n half ix,
    Parts (y / 2 ^ q) n half ix ∧ roundAt mode neg m e sticky q = (if roundsUp mode neg (n % 2 == 1) half ix then n + 1 else n, ix) := by
  unfold roundAt
  dsimp only
  split
  · next hfar => exact ⟨_, _, _, parts_far h hfar, rfl⟩
  · by_cases hqe : q ≤ e
    · obtain rfl : sticky = false := by
        cases sticky with
        | false => rfl
        | true => exact absurd (hs rfl) (by omega)
      exact ⟨_, _, _, parts_whole h hqe, by simp [hqe]⟩
    · have hd : (q - e).toNat ≠ 0 := by omega
      refine ⟨_, _, _, parts_cut h (not_le.1 hqe), ?_⟩
      simp only [hqe, hd, if_false]
      rfl

/-- `roundAt` rounds the value to a multiple of 2^q, and tells whether it had to. -/
theorem roundAt_nearest (hmode : mode ≠ .dyn) (h : Exact m e sticky y) (hs : sticky = true → e < q) (neg : Bool) :
    Nearest mode neg (y / 2 ^ q) (roundAt mode neg m e sticky q).1 ∧
    ((roundAt mode neg m e sticky q).2 = true ↔ y / 2 ^ q ≠ (roundAt mode neg m e sticky q).1) := by
  obtain ⟨n, half, ix, hparts, heq⟩ := roundAt_parts h hs mode neg
  rw [heq]
  exact ⟨hparts.nearest hmode, hparts.inexact_iff mode⟩

end Sys2Proof.Rounding
end

section
/-!
SUPPORT. The magnitude patterns of a format: their values, in the order of the patterns (08 R173), and the pattern that `roundMag` gives of
an exact value, rounded once (08 R180, R182).
-/

namespace Sys2Proof.Rounding

open Sys2Proof Sys2Proof.Machine

variable {f : FpFormat} {mode : Rm} {neg sticky : Bool} {m : ℕ} {e q : ℤ} {y z : ℝ}

/-! ## Magnitudes -/

/-- The value of a pattern as a real number. -/
noncomputable def value (f : FpFormat) (k : ℕ) : ℝ := Claims.magnitude f k

/-- k units of binade t: all the fractions of the subnormals with t = 0, and those with the hidden bit above. -/
def InBinade (f : FpFormat) (t k : ℕ) : Prop := t = 0 ∨ 2 ^ f.fbits ≤ k

/-- The pattern of k units of binade t, up to the first of the next binade, stands for k · 2^(qmin + t). -/
theorem value_binade {t k : ℕ} (ht : InBinade f t k) (hk : k ≤ 2 ^ f.prec) : value f (t * 2 ^ f.fbits + k) = k * 2 ^ (f.qmin + t) := by
  have hpos : 0 < 2 ^ f.fbits := Nat.two_pow_pos _
  have hprec : 2 ^ f.prec = 2 ^ f.fbits + 2 ^ f.fbits := by rw [FpFormat.prec, Nat.pow_succ]; omega
  have hdiv (c r : ℕ) (hr : r < 2 ^ f.fbits) : (c * 2 ^ f.fbits + r) / 2 ^ f.fbits = c ∧ (c * 2 ^ f.fbits + r) % 2 ^ f.fbits = r := by
    rw [Nat.mul_comm, Nat.mul_add_div hpos, Nat.mul_add_mod, Nat.div_eq_of_lt hr, Nat.mod_eq_of_lt hr]
    exact ⟨rfl, rfl⟩
  unfold value Claims.magnitude FpFormat.qmin
  rcases lt_or_ge k (2 ^ f.fbits) with hlow | hhigh
  · obtain rfl : t = 0 := ht.resolve_right (by omega)
    rw [if_pos (by rw [Nat.zero_mul, Nat.zero_add, Nat.div_eq_of_lt hlow])]
    push_cast
    rw [zero_mul, zero_add, add_zero]
  · rcases Nat.lt_or_ge k (2 ^ f.prec) with hin | htop
    · obtain ⟨r, rfl⟩ := Nat.exists_eq_add_of_le hhigh
      obtain ⟨hd, hm⟩ := hdiv (t + 1) r (by omega)
      rw [show t * 2 ^ f.fbits + (2 ^ f.fbits + r) = (t + 1) * 2 ^ f.fbits + r by ring, hd, hm, if_neg (Nat.succ_ne_zero t)]
      push_cast
      ring_nf
    · obtain rfl : k = 2 ^ f.prec := le_antisymm hk htop
      obtain ⟨hd, hm⟩ := hdiv (t + 2) 0 hpos
      rw [hprec, show t * 2 ^ f.fbits + (2 ^ f.fbits + 2 ^ f.fbits) = (t + 2) * 2 ^ f.fbits + 0 by ring, hd, hm,
        if_neg (Nat.succ_ne_zero _)]
      push_cast
      rw [show (1 : ℤ) - f.bias - f.fbits + t = (t + 2 - f.bias - f.fbits : ℤ) - 1 by ring, zpow_sub_one₀ two_ne_zero]
      ring

/-- Every pattern is some units of a binade, short of the next one. -/
theorem exists_binade (f : FpFormat) (j : ℕ) : ∃ t k, j = t * 2 ^ f.fbits + k ∧ InBinade f t k ∧ k < 2 ^ f.prec := by
  have hpos : 0 < 2 ^ f.fbits := Nat.two_pow_pos _
  have hprec : 2 ^ f.prec = 2 ^ f.fbits + 2 ^ f.fbits := by rw [FpFormat.prec, Nat.pow_succ]; omega
  have hj := Nat.div_add_mod j (2 ^ f.fbits)
  have hlt := Nat.mod_lt j hpos
  cases hc : j / 2 ^ f.fbits with
  | zero => exact ⟨0, j, by omega, .inl rfl, by rw [hc] at hj; omega⟩
  | succ t =>
    rw [hc, Nat.mul_succ, Nat.mul_comm] at hj
    exact ⟨t, 2 ^ f.fbits + j % 2 ^ f.fbits, by omega, .inr (by omega), by omega⟩

theorem value_strictMono (f : FpFormat) : StrictMono (value f) := by
  refine strictMono_nat_of_lt_succ fun j => ?_
  obtain ⟨t, k, rfl, ht, hk⟩ := exists_binade f j
  rw [value_binade ht hk.le, Nat.add_assoc, value_binade (ht.imp id fun h => h.trans (Nat.le_succ k)) hk]
  push_cast
  exact mul_lt_mul_of_pos_right (by linarith) (two_zpow_pos _)

theorem value_zero (f : FpFormat) : value f 0 = 0 := by simp [value, Claims.magnitude]

theorem value_nonneg (f : FpFormat) (k : ℕ) : 0 ≤ value f k := value_zero f ▸ (value_strictMono f).monotone (Nat.zero_le k)

/-- The smallest normal magnitude. -/
theorem value_normal (f : FpFormat) : value f (2 ^ f.fbits) = 2 ^ (1 - (f.bias : ℤ)) := by
  have hle : 2 ^ f.fbits ≤ 2 ^ f.prec := Nat.pow_le_pow_right two_pos (Nat.le_succ _)
  have h := value_binade (f := f) (t := 0) (.inl rfl) hle
  rw [Nat.zero_mul, Nat.zero_add] at h
  rw [h, Nat.cast_pow, Nat.cast_ofNat, ← zpow_natCast, ← zpow_add₀ two_ne_zero, FpFormat.qmin]
  congr 1
  push_cast
  ring

/-! ## The pattern of a rounded value -/

/-- A pattern is y rounded once among all those that the format could have, without a greatest. -/
structure Rounded (f : FpFormat) (mode : Rm) (neg : Bool) (y : ℝ) (mag : ℕ) : Prop where
  cut : Cut mode neg → value f mag ≤ y ∧ y < value f (mag + 1)
  grow : Grow mode neg → y ≤ value f mag ∧ ∀ j < mag, value f j < y
  near : Near mode → ∀ j, j ≠ mag → |y - value f mag| < |y - value f j| ∨
    (|y - value f mag| = |y - value f j| ∧ (mode = .rne → mag % 2 = 0) ∧ (mode = .rna → j < mag))

/-- The value lies in binade t, whose unit is 2^(qmin + t): at least the hidden bit of it, but in the lowest one. -/
structure ValueIn (f : FpFormat) (t : ℕ) (y : ℝ) : Prop where
  pos : 0 < y
  top : y < (2 ^ f.prec : ℕ) * 2 ^ (f.qmin + t)
  low : t = 0 ∨ (2 ^ f.fbits : ℕ) * 2 ^ (f.qmin + t) ≤ y

theorem Nearest.bounds {k : ℕ} (h : Nearest mode neg z k) (hmode : mode ≠ .dyn) : k < z + 1 ∧ z < k + 1 := by
  rcases modes hmode neg with hc | hg | hn
  · exact ⟨by linarith [(h.cut hc).1], (h.cut hc).2⟩
  · exact ⟨(h.grow hg).1, by linarith [(h.grow hg).2]⟩
  · have := abs_le.1 (h.near hn)
    exact ⟨by linarith, by linarith⟩

/-- The pattern behind k units of a binade is worth at least a unit more. -/
theorem value_succ_ge {t k : ℕ} (ht : InBinade f t k) (hk : k ≤ 2 ^ f.prec) :
    (k + 1) * 2 ^ (f.qmin + t) ≤ value f (t * 2 ^ f.fbits + k + 1) := by
  have hu := two_zpow_pos (f.qmin + t)
  have hpos : 0 < 2 ^ f.fbits := Nat.two_pow_pos _
  have hprec : 2 ^ f.prec = 2 ^ f.fbits + 2 ^ f.fbits := by rw [FpFormat.prec, Nat.pow_succ]; omega
  rcases Nat.lt_or_ge k (2 ^ f.prec) with hin | htop
  · rw [Nat.add_assoc, value_binade (ht.imp id fun h => h.trans (Nat.le_succ k)) hin]
    push_cast
    rfl
  · obtain rfl : k = 2 ^ f.prec := le_antisymm hk htop
    rw [show t * 2 ^ f.fbits + 2 ^ f.prec + 1 = (t + 1) * 2 ^ f.fbits + (2 ^ f.fbits + 1) by rw [hprec]; ring,
      value_binade (.inr (Nat.le_succ _)) (by omega), hprec, show f.qmin + (t + 1 : ℕ) = f.qmin + t + 1 by push_cast; ring,
      zpow_add_one₀ two_ne_zero]
    push_cast
    nlinarith

/-- A pattern below k units of a binade is worth at least a unit less, or these are its first pattern. -/
theorem value_below_le {t k j : ℕ} (ht : InBinade f t k) (hk : k ≤ 2 ^ f.prec) (hj : j < t * 2 ^ f.fbits + k) :
    value f j ≤ (k - 1) * 2 ^ (f.qmin + t) ∨ (t ≠ 0 ∧ k = 2 ^ f.fbits) := by
  by_cases hfirst : t ≠ 0 ∧ k = 2 ^ f.fbits
  · exact .inr hfirst
  · have hpos : 0 < 2 ^ f.fbits := Nat.two_pow_pos _
    have hk1 : 1 ≤ k := by
      rcases ht with rfl | h
      · rw [Nat.zero_mul, Nat.zero_add] at hj
        omega
      · omega
    have hin : InBinade f t (k - 1) := by
      rcases ht with h | h
      · exact .inl h
      · by_cases h0 : t = 0
        · exact .inl h0
        · exact .inr (by have : k ≠ 2 ^ f.fbits := fun hk => hfirst ⟨h0, hk⟩
                         omega)
    refine .inl (((value_strictMono f).monotone (show j ≤ t * 2 ^ f.fbits + (k - 1) by omega)).trans ?_)
    rw [value_binade hin ((Nat.sub_le k 1).trans hk), Nat.cast_sub hk1, Nat.cast_one]

/-- A distance of a unit less a part |a| of it is the greater one, or both are half a unit. -/
theorem nearer_or_tie {D u a : ℝ} (hu : 0 < u) (ha : |a| ≤ 1 / 2) (hD : (1 + a) * u ≤ D) : |a| * u < D ∨ (|a| * u = D ∧ a = -(1 / 2)) := by
  refine or_iff_not_imp_left.2 fun hn => ?_
  have hle := not_lt.1 hn
  have hunit : 1 + a ≤ |a| := le_of_mul_le_mul_right (hD.trans hle) hu
  have hneg : a < 0 := by
    by_contra hge
    rw [abs_of_nonneg (not_lt.1 hge)] at hunit
    linarith
  rw [abs_of_neg hneg] at ha hunit
  obtain rfl : a = -(1 / 2) := by linarith
  refine ⟨le_antisymm (le_trans (le_of_eq ?_) hD) hle, rfl⟩
  rw [abs_of_neg hneg]
  ring

/-- What is rounded to a multiple of its binade's unit is rounded in the format. -/
theorem rounded_of_nearest {t k : ℕ} (hf : 1 ≤ f.fbits) (hmode : mode ≠ .dyn) (hy : ValueIn f t y)
    (h : Nearest mode neg (y / 2 ^ (f.qmin + t)) k) : Rounded f mode neg y (t * 2 ^ f.fbits + k) ∧ k ≤ 2 ^ f.prec ∧ InBinade f t k := by
  obtain ⟨h0, htop, hlow⟩ := hy
  have hu := two_zpow_pos (f.qmin + t)
  obtain ⟨z, rfl⟩ : ∃ z, y = z * 2 ^ (f.qmin + t) := ⟨y / 2 ^ (f.qmin + t), (div_mul_cancel₀ _ hu.ne').symm⟩
  rw [mul_div_cancel_right₀ _ hu.ne'] at h
  replace htop := lt_of_mul_lt_mul_right htop hu.le
  replace hlow := hlow.imp id fun h => le_of_mul_le_mul_right h hu
  obtain ⟨hlt, hgt⟩ := h.bounds hmode
  have hk : k ≤ 2 ^ f.prec := Nat.lt_succ_iff.1 (by exact_mod_cast (show (k : ℝ) < (2 ^ f.prec : ℕ) + 1 by linarith))
  have hin : InBinade f t k := hlow.imp id fun h =>
    Nat.lt_succ_iff.1 (by exact_mod_cast (show ((2 ^ f.fbits : ℕ) : ℝ) < k + 1 by linarith))
  have hval := value_binade hin hk
  have habove {j : ℕ} (hj : t * 2 ^ f.fbits + k < j) : (k + 1) * 2 ^ (f.qmin + t) ≤ value f j :=
    (value_succ_ge hin hk).trans ((value_strictMono f).monotone hj)
  have hbelow {j : ℕ} (hj : j < t * 2 ^ f.fbits + k) : value f j ≤ (k - 1) * 2 ^ (f.qmin + t) ∨ (k : ℝ) ≤ z :=
    (value_below_le hin hk hj).imp id fun ⟨ht, hk⟩ => hk ▸ hlow.resolve_left ht
  have hlower {j : ℕ} (hj : j < t * 2 ^ f.fbits + k) : value f j < k * 2 ^ (f.qmin + t) := hval ▸ value_strictMono f hj
  generalize (2 : ℝ) ^ (f.qmin + t) = u at *
  refine ⟨⟨fun hc => ?_, fun hg => ?_, fun hn j hj => ?_⟩, hk, hin⟩
  · obtain ⟨hle, hlt⟩ := h.cut hc
    rw [hval]
    exact ⟨mul_le_mul_of_nonneg_right hle hu.le, (mul_lt_mul_of_pos_right hlt hu).trans_le (habove (Nat.lt_succ_self _))⟩
  · obtain ⟨hlt, hle⟩ := h.grow hg
    rw [hval]
    refine ⟨mul_le_mul_of_nonneg_right hle hu.le, fun j hj => ?_⟩
    rcases hbelow hj with hb | hb
    · exact hb.trans_lt (mul_lt_mul_of_pos_right (by linarith) hu)
    · exact (hlower hj).trans_le (mul_le_mul_of_nonneg_right hb hu.le)
  · have hnear := h.near hn
    have hdist : |z * u - value f (t * 2 ^ f.fbits + k)| = |z - k| * u := by rw [hval, ← sub_mul, abs_mul, abs_of_pos hu]
    have heven : mode = .rne → |z - k| = 1 / 2 → (t * 2 ^ f.fbits + k) % 2 = 0 := fun hm ht => by
      obtain ⟨c, hc⟩ : ∃ c, f.fbits = c + 1 := ⟨f.fbits - 1, by omega⟩
      have := h.even hm ht
      rw [hc, Nat.pow_succ, ← Nat.mul_assoc]
      omega
    rcases Nat.lt_or_gt_of_ne hj with hj | hj
    · have hless := hlower hj
      rcases hbelow hj with hb | hb
      · have hD : (1 + (z - k)) * u ≤ |z * u - value f j| := (by linarith : (1 + (z - k)) * u ≤ z * u - value f j).trans (le_abs_self _)
        rw [hdist]
        refine (nearer_or_tie hu hnear hD).imp id fun ⟨hD, ha⟩ => ⟨hD, fun hm => heven hm ?_, fun _ => hj⟩
        rw [ha]
        norm_num
      · left
        rw [hdist, abs_of_nonneg (sub_nonneg.2 hb)]
        exact (by linarith : (z - k) * u < z * u - value f j).trans_le (le_abs_self _)
    · have hD : (1 + (k - z)) * u ≤ |z * u - value f j| := by
        have := habove hj
        rw [abs_sub_comm]
        exact (by linarith : (1 + (k - z)) * u ≤ value f j - z * u).trans (le_abs_self _)
      rw [hdist, abs_sub_comm z]
      refine (nearer_or_tie hu (abs_sub_comm z k ▸ hnear) hD).imp id fun ⟨hD, ha⟩ => ?_
      have htie : |z - k| = 1 / 2 := by rw [abs_sub_comm, ha]; norm_num
      exact ⟨hD, fun hm => heven hm htie, fun hm => absurd (h.away hm htie) (by linarith)⟩

/-! ## Rounded magnitudes -/

/-- The place of the last kept bit of a value, were there no least exponent. -/
def lastBit (f : FpFormat) (m : ℕ) (e : ℤ) : ℤ := e + (m.log2 + 1) - f.prec

theorem roundMag_eq (hm : m ≠ 0) (mode : Rm) (neg : Bool) (e : ℤ) (sticky : Bool) : f.roundMag mode neg m e sticky =
    let q0 := lastBit f m e
    let q := max q0 f.qmin
    let r := roundAt mode neg m e sticky q
    ((q - f.qmin).toNat * 2 ^ f.fbits + r.1, r.2, decide (q0 < f.qmin) &&
      !(decide (q0 = f.qmin - 1) && (roundAt mode neg m e sticky q0).1 == 2 ^ f.prec)) := by
  rw [FpFormat.roundMag, if_neg hm]
  rfl

theorem Exact.log_bounds (h : Exact m e sticky y) (hm : m ≠ 0) (f : FpFormat) :
    (2 ^ f.fbits : ℕ) * 2 ^ lastBit f m e ≤ y ∧ y < (2 ^ f.prec : ℕ) * 2 ^ lastBit f m e := by
  obtain ⟨hlow, htop⟩ := h.bounds
  have hp := two_zpow_pos e
  have hfloor : ((2 ^ m.log2 : ℕ) : ℝ) ≤ m := by exact_mod_cast Nat.log2_self_le hm
  have hceil : (m + 1 : ℝ) ≤ (2 ^ (m.log2 + 1) : ℕ) := by exact_mod_cast Nat.lt_log2_self
  have hscale (a b : ℕ) (h : (a : ℤ) + lastBit f m e = b + e) : ((2 ^ a : ℕ) : ℝ) * 2 ^ lastBit f m e = (2 ^ b : ℕ) * 2 ^ e := by
    push_cast
    rw [← zpow_natCast, ← zpow_natCast, ← zpow_add₀ two_ne_zero, ← zpow_add₀ two_ne_zero, h]
  rw [hscale f.fbits m.log2 (by unfold lastBit FpFormat.prec; push_cast; ring), hscale f.prec (m.log2 + 1) (by unfold lastBit; push_cast; ring)]
  exact ⟨(mul_le_mul_of_nonneg_right hfloor hp.le).trans hlow, htop.trans_le (mul_le_mul_of_nonneg_right hceil hp.le)⟩

/-- An exact value lies in the binade whose unit `roundMag` rounds to. -/
theorem Exact.valueIn (h : Exact m e sticky y) (hm : m ≠ 0) (f : FpFormat) :
    ValueIn f (max (lastBit f m e) f.qmin - f.qmin).toNat y := by
  obtain ⟨hlow, htop⟩ := h.log_bounds hm f
  have hunit : f.qmin + (max (lastBit f m e) f.qmin - f.qmin).toNat = max (lastBit f m e) f.qmin := by omega
  refine ⟨lt_of_lt_of_le (by have := two_zpow_pos (lastBit f m e); positivity) hlow, ?_, ?_⟩
  · rw [hunit]
    exact htop.trans_le (mul_le_mul_of_nonneg_left (zpow_le_zpow_right₀ one_le_two (le_max_left _ _)) (Nat.cast_nonneg _))
  · rw [hunit]
    rcases le_total (lastBit f m e) f.qmin with hle | hge
    · exact .inl (by omega)
    · exact .inr (by rwa [max_eq_left hge])

/-- A value that `sticky` says more of has bits to cut. -/
theorem lastBit_gt (hm : m ≠ 0) (hs : 2 ^ f.prec ≤ m) (e : ℤ) : e < lastBit f m e := by
  have : f.prec ≤ m.log2 := (Nat.le_log2 hm).2 hs
  unfold lastBit
  omega

theorem roundMag_rounded (hf : 1 ≤ f.fbits) (hmode : mode ≠ .dyn) (h : Exact m e sticky y) (hm : m ≠ 0)
    (hs : sticky = true → 2 ^ f.prec ≤ m) (neg : Bool) : Rounded f mode neg y (f.roundMag mode neg m e sticky).1 ∧
    ((f.roundMag mode neg m e sticky).2.1 = true ↔ value f (f.roundMag mode neg m e sticky).1 ≠ y) := by
  have hunit : f.qmin + (max (lastBit f m e) f.qmin - f.qmin).toNat = max (lastBit f m e) f.qmin := by omega
  obtain ⟨hnear, hix⟩ := roundAt_nearest (q := max (lastBit f m e) f.qmin) hmode h
    (fun h => (lastBit_gt hm (hs h) e).trans_le (le_max_left _ _)) neg
  rw [roundMag_eq hm]
  dsimp only
  rw [hix]
  rw [← hunit] at hnear
  obtain ⟨hr, hk, hin⟩ := rounded_of_nearest hf hmode (h.valueIn hm f) hnear
  rw [hunit] at hr hk hin
  refine ⟨hr, ?_⟩
  rw [value_binade hin hk, hunit, ne_eq, ne_eq, div_eq_iff (two_zpow_pos _).ne', eq_comm]

/-- Tiny: rounded with an unbounded exponent, it stays below the smallest normal magnitude (08 R182). -/
def Tiny (f : FpFormat) (mode : Rm) (neg : Bool) (y : ℝ) : Prop :=
  (Cut mode neg ∧ y < 2 ^ (1 - (f.bias : ℤ))) ∨ (Grow mode neg ∧ y ≤ 2 ^ (1 - (f.bias : ℤ)) - 2 ^ (-(f.bias : ℤ) - f.fbits)) ∨
    (Near mode ∧ y < 2 ^ (1 - (f.bias : ℤ)) - 2 ^ (-(f.bias : ℤ) - f.fbits) / 2)

/-- A value below an even M is rounded up to it from M - 1 on, or from half below. -/
theorem Nearest.eq_top_iff {k M : ℕ} (h : Nearest mode neg z k) (hmode : mode ≠ .dyn) (hM : M % 2 = 0) (hz : z < M) :
    k = M ↔ ¬Cut mode neg ∧ (Grow mode neg → (M : ℝ) - 1 < z) ∧ (Near mode → (M : ℝ) - 1 / 2 ≤ z) := by
  constructor
  · rintro rfl
    refine ⟨fun hc => ?_, fun hg => ?_, fun hn => ?_⟩
    · linarith [(h.cut hc).1]
    · linarith [(h.grow hg).1]
    · linarith [(abs_le.1 (h.near hn)).1]
  · rintro ⟨hcut, hgrow, hnear⟩
    have hle : k ≤ M := Nat.lt_succ_iff.1 (by exact_mod_cast (show (k : ℝ) < M + 1 by linarith [(h.bounds hmode).1]))
    refine le_antisymm hle ?_
    rcases (modes hmode neg).resolve_left hcut with hg | hn
    · have hlt : (M : ℝ) < k + 1 := by linarith [hgrow hg, (h.grow hg).2]
      exact Nat.lt_succ_iff.1 (by exact_mod_cast hlt)
    · by_contra hlt
      have hk : (k : ℝ) + 1 ≤ M := by exact_mod_cast not_le.1 hlt
      have hhalf := hnear hn
      have habs := abs_le.1 (h.near hn)
      obtain rfl : z = k + 1 / 2 := by linarith
      have htie : |(k : ℝ) + 1 / 2 - k| = 1 / 2 := by rw [add_sub_cancel_left, abs_of_pos (by norm_num)]
      obtain rfl : M = k + 1 := by exact_mod_cast (by linarith : (M : ℝ) = k + 1)
      rcases hn with hm | hm
      · have := h.even hm htie
        omega
      · linarith [h.away hm htie]

/-- Tiny in units of the place below that of the smallest subnormal, of which the smallest normal magnitude is 2^prec. -/
theorem tiny_iff (f : FpFormat) (mode : Rm) (neg : Bool) (y : ℝ) : Tiny f mode neg y ↔ (Cut mode neg ∧ y < (2 ^ f.prec : ℕ) * 2 ^ (f.qmin - 1)) ∨
    (Grow mode neg ∧ y ≤ ((2 ^ f.prec : ℕ) - 1) * 2 ^ (f.qmin - 1)) ∨ (Near mode ∧ y < ((2 ^ f.prec : ℕ) - 1 / 2) * 2 ^ (f.qmin - 1)) := by
  have hstep : (2 : ℝ) ^ (-(f.bias : ℤ) - f.fbits) = 2 ^ (f.qmin - 1) := congrArg _ (by unfold FpFormat.qmin; ring)
  have hnormal : (2 : ℝ) ^ (1 - (f.bias : ℤ)) = (2 ^ f.prec : ℕ) * 2 ^ (f.qmin - 1) := by
    rw [Nat.cast_pow, Nat.cast_ofNat, ← zpow_natCast, ← zpow_add₀ two_ne_zero]
    exact congrArg _ (by unfold FpFormat.qmin FpFormat.prec; push_cast; ring)
  rw [Tiny, hstep, hnormal, sub_mul, sub_mul, one_mul, one_div_mul_eq_div]

theorem tiny_of_small (hmode : mode ≠ .dyn) (h : y < (2 ^ f.fbits : ℕ) * 2 ^ (f.qmin - 1)) : Tiny f mode neg y := by
  have hu := two_zpow_pos (f.qmin - 1)
  have hone : (1 : ℝ) ≤ (2 ^ f.fbits : ℕ) := by exact_mod_cast Nat.one_le_two_pow
  have hroom : (2 ^ f.fbits : ℕ) * (2 : ℝ) ^ (f.qmin - 1) ≤ ((2 ^ f.prec : ℕ) - 1) * 2 ^ (f.qmin - 1) := by
    refine mul_le_mul_of_nonneg_right ?_ hu.le
    rw [FpFormat.prec, Nat.pow_succ]
    push_cast at hone ⊢
    linarith
  rw [tiny_iff]
  rcases modes hmode neg with hc | hg | hn
  · exact .inl ⟨hc, by linarith⟩
  · exact .inr (.inl ⟨hg, by linarith⟩)
  · exact .inr (.inr ⟨hn, by linarith⟩)

theorem not_tiny_of_normal (h : (2 ^ f.prec : ℕ) * 2 ^ (f.qmin - 1) ≤ y) : ¬Tiny f mode neg y := by
  have hu := two_zpow_pos (f.qmin - 1)
  rw [tiny_iff]
  rintro (⟨-, h⟩ | ⟨-, h⟩ | ⟨-, h⟩) <;> linarith

/-- In the binade below the normal ones, tiny is what does not round up to the smallest of them. -/
theorem tiny_below_normal {k : ℕ} (hmode : mode ≠ .dyn) (h : Nearest mode neg (y / 2 ^ (f.qmin - 1)) k)
    (htop : y < (2 ^ f.prec : ℕ) * 2 ^ (f.qmin - 1)) : k ≠ 2 ^ f.prec ↔ Tiny f mode neg y := by
  have hu := two_zpow_pos (f.qmin - 1)
  have heven : 2 ^ f.prec % 2 = 0 := by rw [FpFormat.prec, Nat.pow_succ]; omega
  rw [ne_eq, h.eq_top_iff hmode heven ((div_lt_iff₀ hu).2 htop), tiny_iff, lt_div_iff₀ hu, le_div_iff₀ hu]
  rcases modes hmode neg with hc | hg | hn
  · simp only [hc, htop, not_true_eq_false, false_and, not_false_eq_true, and_self, true_or]
  · have hnc : ¬Cut mode neg := fun hc => not_grow_of_cut hc hg
    simp only [hg, hnc, not_near_of_grow hg, not_false_eq_true, true_and, false_imp_iff, and_true, true_imp_iff, not_lt, false_and,
      false_or, or_false]
  · have hnc : ¬Cut mode neg := fun hc => not_near_of_cut hc hn
    have hng : ¬Grow mode neg := fun hg => not_near_of_grow hg hn
    simp only [hn, hnc, hng, not_false_eq_true, true_and, false_imp_iff, true_imp_iff, not_le, false_and, false_or]

theorem roundMag_tiny (hmode : mode ≠ .dyn) (h : Exact m e sticky y) (hm : m ≠ 0)
    (hs : sticky = true → 2 ^ f.prec ≤ m) (neg : Bool) : (f.roundMag mode neg m e sticky).2.2 = true ↔ Tiny f mode neg y := by
  obtain ⟨hlow, htop⟩ := h.log_bounds hm f
  have hround := (roundAt_nearest hmode h (fun hst => lastBit_gt (f := f) hm (hs hst) e) neg).1
  have hprec : 2 ^ f.prec = 2 * 2 ^ f.fbits := Nat.pow_succ'
  rw [roundMag_eq hm]
  dsimp only
  generalize lastBit f m e = q0 at *
  rcases lt_trichotomy q0 (f.qmin - 1) with hlt | heq | hlarge
  · have hhalf : y < (2 ^ f.fbits : ℕ) * 2 ^ (f.qmin - 1) := by
      refine htop.trans_le ?_
      rw [show f.qmin - 1 = f.qmin - 2 + 1 by ring, zpow_add_one₀ two_ne_zero, hprec, Nat.cast_mul, Nat.cast_ofNat,
        mul_comm (2 : ℝ) (2 ^ f.fbits : ℕ), mul_assoc, mul_comm _ (2 : ℝ)]
      exact mul_le_mul_of_nonneg_left (mul_le_mul_of_nonneg_left (zpow_le_zpow_right₀ one_le_two (by omega)) two_pos.le) (Nat.cast_nonneg _)
    simp only [show q0 < f.qmin by omega, show q0 ≠ f.qmin - 1 by omega, decide_true, decide_false, Bool.false_and, Bool.not_false,
      Bool.and_true, tiny_of_small hmode hhalf]
  · subst heq
    rw [← tiny_below_normal hmode hround htop]
    simp only [show f.qmin - 1 < f.qmin by omega, decide_true, Bool.true_and, Bool.not_eq_true', beq_eq_false_iff_ne]
  · have hbig : (2 ^ f.prec : ℕ) * (2 : ℝ) ^ (f.qmin - 1) ≤ y := by
      refine le_trans (le_of_eq_of_le ?_ (mul_le_mul_of_nonneg_left (zpow_le_zpow_right₀ one_le_two (show f.qmin ≤ q0 by omega))
        (Nat.cast_nonneg _))) hlow
      rw [hprec, zpow_sub_one₀ two_ne_zero]
      push_cast
      ring
    simp only [show ¬q0 < f.qmin by omega, decide_false, Bool.false_and, Bool.false_eq_true, not_tiny_of_normal hbig]

end Sys2Proof.Rounding
end

section
/-!
SUPPORT. One rounding of an exact value into a format, with its flags and its overflow (08 R180, R182): the results of `round`, and of the
same with another greatest pattern.
-/

namespace Sys2Proof.Rounding

open Sys2Proof Sys2Proof.Machine

variable {f : FpFormat} {mode : Rm} {neg sticky : Bool} {m top : ℕ} {e : ℤ} {x y : ℝ}

/-! ## Overflow and flags -/

/-- An overflow gives the pattern after the greatest finite one (08 R182). -/
def overflowsUp (mode : Rm) (neg : Bool) : Bool :=
  match mode with
  | .rne => true
  | .rna => true
  | .rtz => false
  | .rup => !neg
  | .rdn => neg
  | .dyn => true

theorem overflowsUp_iff (hmode : mode ≠ .dyn) (neg : Bool) : overflowsUp mode neg = false ↔ Cut mode neg := by
  cases mode <;> cases neg <;> simp_all [overflowsUp, Cut]

/-- A rounded magnitude with its flags, where the patterns from `top` on are past the finite ones. -/
def clamp (f : FpFormat) (top : ℕ) (mode : Rm) (neg : Bool) (r : ℕ × Bool × Bool) : ℕ × Flg :=
  if top ≤ r.1 then (f.signBits neg + (if overflowsUp mode neg then top else top - 1), fOF ||| fNX)
  else (f.signBits neg + r.1, flagIf r.2.1 fNX ||| flagIf (r.2.1 && r.2.2) fUF)

theorem round_eq_clamp (hm : m ≠ 0) (f : FpFormat) (mode : Rm) (neg : Bool) (e : ℤ) (sticky : Bool) :
    f.round mode neg m e sticky = clamp f f.infBits mode neg (f.roundMag mode neg m e sticky) := by
  unfold FpFormat.round
  rw [if_neg (by simp [hm])]
  rfl

theorem round_zero (f : FpFormat) (mode : Rm) (neg : Bool) (e : ℤ) : f.round mode neg 0 e false = (f.signBits neg, 0) := rfl

theorem flags_rounded (ix ty : Bool) : let fl := flagIf ix fNX ||| flagIf (ix && ty) fUF
    (fl &&& fNX ≠ 0 ↔ ix = true) ∧ fl &&& fOF = 0 ∧ (fl &&& fUF ≠ 0 ↔ ty = true ∧ ix = true) ∧ fl &&& ~~~(fNX ||| fOF ||| fUF) = 0 := by
  cases ix <;> cases ty <;> decide

/-! ## Rounding with a greatest pattern -/

/-- As Claims.RoundsTo, of a magnitude: the pattern k of y among those up to `top`, where k = top is past the finite ones. -/
structure Clamped (f : FpFormat) (top : ℕ) (mode : Rm) (neg : Bool) (y : ℝ) (k : ℕ) : Prop where
  le : k ≤ top
  cut : Cut mode neg → k < top ∧ value f k ≤ y ∧ ∀ j < top, value f j ≤ y → j ≤ k
  grow : Grow mode neg → (k = top ∨ y ≤ value f k) ∧ ∀ j < k, value f j < y
  near : Near mode → ∀ j ≤ top, j ≠ k → |y - value f k| < |y - value f j| ∨
    (|y - value f k| = |y - value f j| ∧ (mode = .rne → k % 2 = 0) ∧ (mode = .rna → j < k))

theorem clamped_below {mag : ℕ} (h : Rounded f mode neg y mag) (hlt : mag < top) : Clamped f top mode neg y mag := by
  refine ⟨hlt.le, fun hc => ⟨hlt, (h.cut hc).1, fun j _ hj => ?_⟩, fun hg => ⟨.inr (h.grow hg).1, (h.grow hg).2⟩,
    fun hn j _ hj => h.near hn j hj⟩
  exact Nat.lt_succ_iff.1 ((value_strictMono f).lt_iff_lt.1 (hj.trans_lt (h.cut hc).2))

/-- What is rounded to nearest past a pattern lies above it, by at least half of the way. -/
theorem Rounded.above {mag j : ℕ} (h : Rounded f mode neg y mag) (hn : Near mode) (hj : j < mag) : value f j + value f mag ≤ 2 * y := by
  have hle : |y - value f mag| ≤ |y - value f j| := (h.near hn j hj.ne).elim le_of_lt fun h => h.1.le
  have hv := value_strictMono f hj
  rcases le_or_gt (value f j) y with hy | hy
  · rw [abs_of_nonneg (sub_nonneg.2 hy)] at hle
    linarith [(abs_le.1 hle).1]
  · rw [abs_of_neg (by linarith), abs_of_neg (by linarith)] at hle
    linarith

theorem clamped_past {mag : ℕ} (h : Rounded f mode neg y mag) (hmode : mode ≠ .dyn) (hge : top ≤ mag) (h0 : 0 < top) :
    Clamped f top mode neg y (if overflowsUp mode neg then top else top - 1) := by
  have hmono := value_strictMono f
  cases hup : overflowsUp mode neg with
  | false =>
    have hc := (overflowsUp_iff hmode neg).1 hup
    rw [if_neg Bool.false_ne_true]
    refine ⟨Nat.sub_le _ _, fun _ => ⟨by omega, (hmono.monotone (by omega)).trans (h.cut hc).1, fun j hj _ => by omega⟩,
      fun hg => absurd hg (not_grow_of_cut hc), fun hn => absurd hn (not_near_of_cut hc)⟩
  | true =>
    have hc : ¬Cut mode neg := fun hc => by rw [(overflowsUp_iff hmode neg).2 hc] at hup; cases hup
    rw [if_pos rfl]
    refine ⟨le_rfl, fun h => absurd h hc, fun hg => ⟨.inl rfl, fun j hj => (h.grow hg).2 j (by omega)⟩, fun hn j hj hne => ?_⟩
    rcases Nat.lt_or_eq_of_le hge with hlt | rfl
    · have hy : value f top < y := by linarith [h.above hn hlt, hmono hlt]
      have hj := hmono (lt_of_le_of_ne hj hne)
      exact .inl (by rw [abs_of_pos (by linarith), abs_of_pos (by linarith)]; linarith)
    · exact h.near hn j hne

/-- A value past the finite patterns is not tiny. -/
theorem Rounded.not_tiny {mag : ℕ} (h : Rounded f mode neg y mag) (htop : 2 ^ f.fbits < mag) : ¬Tiny f mode neg y := by
  have hstep := two_zpow_pos (-(f.bias : ℤ) - f.fbits)
  have hv := value_strictMono f htop
  rw [value_normal] at hv
  rintro (⟨hc, ht⟩ | ⟨hg, ht⟩ | ⟨hn, ht⟩)
  · linarith [(h.cut hc).1]
  · have := (h.grow hg).2 _ htop
    rw [value_normal] at this
    linarith
  · have := h.above hn htop
    rw [value_normal] at this
    linarith

/-- The flags of R182 for the pattern k of y. -/
structure FlagsOf (f : FpFormat) (top : ℕ) (mode : Rm) (neg : Bool) (y : ℝ) (k : ℕ) (fl : Flg) : Prop where
  nx : fl &&& fNX ≠ 0 ↔ k = top ∨ value f k ≠ y
  of : fl &&& fOF ≠ 0 ↔ k = top ∨ (Cut mode neg ∧ value f top ≤ y)
  uf : fl &&& fUF ≠ 0 ↔ Tiny f mode neg y ∧ (k = top ∨ value f k ≠ y)
  rest : fl &&& ~~~(fNX ||| fOF ||| fUF) = 0

theorem clamp_spec {mag : ℕ} {ix ty : Bool} (htop : 2 ^ f.fbits < top) (hmode : mode ≠ .dyn) (h : Rounded f mode neg y mag)
    (hix : ix = true ↔ value f mag ≠ y) (hty : ty = true ↔ Tiny f mode neg y) : ∃ k,
    (clamp f top mode neg (mag, ix, ty)).1 = f.signBits neg + k ∧ Clamped f top mode neg y k ∧
    FlagsOf f top mode neg y k (clamp f top mode neg (mag, ix, ty)).2 := by
  have hmono := value_strictMono f
  unfold clamp
  dsimp only
  split
  · next hge =>
    refine ⟨_, rfl, clamped_past h hmode hge (Nat.zero_lt_of_lt htop), ?_⟩
    have hnot := h.not_tiny (htop.trans_le hge)
    have hrest : (fOF ||| fNX) &&& ~~~(fNX ||| fOF ||| fUF) = 0 := by decide
    cases hup : overflowsUp mode neg with
    | true => exact ⟨by simp [fNX, fOF], by simp [fNX, fOF], by simp [hnot, fNX, fOF, fUF], hrest⟩
    | false =>
      have hc := (overflowsUp_iff hmode neg).1 hup
      have hle : value f top ≤ y := (hmono.monotone hge).trans (h.cut hc).1
      have hne : value f (top - 1) ≠ y := ((hmono (Nat.sub_lt (Nat.zero_lt_of_lt htop) one_pos)).trans_le hle).ne
      exact ⟨by simp [hne, fNX, fOF], by simp [hc, hle, fNX, fOF], by simp [hnot, fNX, fOF, fUF], hrest⟩
  · next hlt =>
    have hlt := not_le.1 hlt
    obtain ⟨hnx, hof, huf, hrest⟩ := flags_rounded ix ty
    have hpast : ¬(mag = top ∨ (Cut mode neg ∧ value f top ≤ y)) := by
      rintro (rfl | ⟨hc, hle⟩)
      · exact lt_irrefl _ hlt
      · exact absurd ((h.cut hc).2.trans_le (hmono.monotone hlt)) (not_lt.2 hle)
    exact ⟨mag, rfl, clamped_below h hlt, by rw [hnx, hix]; simp [hlt.ne], by simp [hof, hpast], by rw [huf, hix, hty]; simp [hlt.ne], hrest⟩

/-- An exact value's sign and magnitude, rounded once, as the statements say it. -/
theorem roundsTo_of_clamped {r : ℕ × Flg} (hx : x ≠ 0) (hneg : neg = decide (x < 0)) {k : ℕ} (hr : r.1 = f.signBits neg + k)
    (h : Clamped f top mode neg |x| k) (hfl : FlagsOf f top mode neg |x| k r.2) : Claims.RoundsTo f top mode x r := by
  have hpos : neg = false ↔ 0 < x := by
    rw [hneg, decide_eq_false_iff_not, not_lt]
    exact ⟨fun h => lt_of_le_of_ne h hx.symm, le_of_lt⟩
  have hminus : neg = true ↔ x < 0 := by rw [hneg, decide_eq_true_eq]
  have hcut : (mode = .rtz ∨ (mode = .rup ∧ x < 0) ∨ (mode = .rdn ∧ 0 < x)) ↔ Cut mode neg := by rw [Cut, hpos, hminus]
  have hgrow : ((mode = .rup ∧ 0 < x) ∨ (mode = .rdn ∧ x < 0)) ↔ Grow mode neg := by rw [Grow, hpos, hminus]
  have hsign : f.signBits neg = if x < 0 then 2 ^ (f.ebits + f.fbits) else 0 := by
    rw [FpFormat.signBits]
    exact if_congr hminus rfl rfl
  unfold Claims.RoundsTo
  dsimp only
  rw [hcut, hgrow]
  exact ⟨k, h.le, hr.trans (congrArg (· + k) hsign), h.cut, h.grow, h.near, hfl.nx, hfl.of, hfl.uf, hfl.rest⟩

/-- A nonzero exact value is rounded once into the patterns below `top`. -/
theorem clamp_roundsTo (hf : 1 ≤ f.fbits) (htop : 2 ^ f.fbits < top) (hmode : mode ≠ .dyn) (hm : m ≠ 0) (hneg : neg = decide (x < 0))
    (hx : Exact m e sticky |x|) (hs : sticky = true → 2 ^ f.prec ≤ m) :
    Claims.RoundsTo f top mode x (clamp f top mode neg (f.roundMag mode neg m e sticky)) := by
  have hx0 : x ≠ 0 := by
    rintro rfl
    have h := (hx.valueIn hm f).pos
    rw [abs_zero] at h
    exact lt_irrefl _ h
  obtain ⟨hr, hix⟩ := roundMag_rounded hf hmode hx hm hs neg
  obtain ⟨k, hk, hc, hfl⟩ := clamp_spec htop hmode hr hix (roundMag_tiny hmode hx hm hs neg)
  exact roundsTo_of_clamped hx0 hneg hk hc hfl

theorem round_roundsTo (hf : 1 ≤ f.fbits) (htop : 2 ^ f.fbits < f.infBits) (hmode : mode ≠ .dyn) (hm : m ≠ 0) (hneg : neg = decide (x < 0))
    (hx : Exact m e sticky |x|) (hs : sticky = true → 2 ^ f.prec ≤ m) : Claims.RoundsTo f f.infBits mode x (f.round mode neg m e sticky) := by
  rw [round_eq_clamp hm]
  exact clamp_roundsTo hf htop hmode hm hneg hx hs

end Sys2Proof.Rounding
end

section
/-!
SUPPORT. What a pattern stands for (08 R173): its three kinds by its magnitude, the value of a finite one, and the NaNs among operands
(08 R184).
-/

namespace Sys2Proof.Rounding

open Sys2Proof Sys2Proof.Machine

variable {f : FpFormat} {mode : Rm} {neg sticky : Bool} {a b m : ℕ} {e : ℤ} {x y : ℝ}

/-! ## Kinds of patterns -/

/-- The magnitude pattern: everything but the sign. -/
def magOf (f : FpFormat) (a : ℕ) : ℕ := a % 2 ^ (f.ebits + f.fbits)

def IsNan (f : FpFormat) (a : ℕ) : Prop := f.infBits < magOf f a
def IsInf (f : FpFormat) (a : ℕ) : Prop := magOf f a = f.infBits
def IsSig (f : FpFormat) (a : ℕ) : Prop := IsNan f a ∧ a % 2 ^ f.fbits < 2 ^ (f.fbits - 1)

theorem kinds (f : FpFormat) (a : ℕ) : Claims.finite f a ∨ IsInf f a ∨ IsNan f a := lt_trichotomy _ _

theorem not_nan_of_finite (h : Claims.finite f a) : ¬IsNan f a := not_lt.2 (le_of_lt h)
theorem not_inf_of_finite (h : Claims.finite f a) : ¬IsInf f a := ne_of_lt h
theorem not_nan_of_inf (h : IsInf f a) : ¬IsNan f a := not_lt.2 (le_of_eq h)

/-- Exponent and fraction make up the magnitude. -/
theorem magOf_eq (f : FpFormat) (a : ℕ) : magOf f a = a / 2 ^ f.fbits % 2 ^ f.ebits * 2 ^ f.fbits + a % 2 ^ f.fbits := by
  rw [magOf, Nat.add_comm, Nat.pow_add, Nat.mod_mul, Nat.add_comm, Nat.mul_comm (2 ^ f.fbits)]

theorem frac_lt (f : FpFormat) (a : ℕ) : a % 2 ^ f.fbits < 2 ^ f.fbits := Nat.mod_lt _ (Nat.two_pow_pos _)
theorem exp_lt (f : FpFormat) (a : ℕ) : a / 2 ^ f.fbits % 2 ^ f.ebits < 2 ^ f.ebits := Nat.mod_lt _ (Nat.two_pow_pos _)

/-- The exponent field is all ones from the infinity on. -/
theorem exp_eq_iff (f : FpFormat) (a : ℕ) : a / 2 ^ f.fbits % 2 ^ f.ebits = 2 ^ f.ebits - 1 ↔ f.infBits ≤ magOf f a := by
  have hr := frac_lt f a
  have he := exp_lt f a
  rw [magOf_eq, FpFormat.infBits]
  constructor
  · intro h
    rw [h]
    exact Nat.le_add_right _ _
  · intro h
    by_contra hne
    have : (a / 2 ^ f.fbits % 2 ^ f.ebits + 1) * 2 ^ f.fbits ≤ (2 ^ f.ebits - 1) * 2 ^ f.fbits := Nat.mul_le_mul_right _ (by omega)
    rw [Nat.succ_mul] at this
    omega

theorem magOf_of_exp (h : f.infBits ≤ magOf f a) : magOf f a = f.infBits + a % 2 ^ f.fbits := by
  rw [magOf_eq, (exp_eq_iff f a).2 h]
  rfl

theorem decode_inf (h : IsInf f a) : f.decode a = .inf (Claims.negative f a) := by
  have hfrac := magOf_of_exp (ge_of_eq h)
  rw [h, left_eq_add] at hfrac
  simp only [FpFormat.decode, (exp_eq_iff f a).2 (ge_of_eq h), hfrac, if_true]
  rfl

theorem decode_nan (h : IsNan f a) : f.decode a = .nan (Claims.negative f a) (a % 2 ^ f.fbits) := by
  have hfrac := magOf_of_exp (le_of_lt h)
  have hne : a % 2 ^ f.fbits ≠ 0 := fun h0 => by rw [h0, Nat.add_zero] at hfrac; exact absurd hfrac (ne_of_gt h)
  simp only [FpFormat.decode, (exp_eq_iff f a).2 (le_of_lt h), hne, if_true, if_false]
  rfl

/-- A finite pattern stands for a number of its sign, whose significand fits the precision and whose value is that of its magnitude. -/
theorem decode_finite (h : Claims.finite f a) : ∃ m e, f.decode a = .num (Claims.negative f a) m e ∧ m < 2 ^ f.prec ∧
    (m : ℝ) * 2 ^ e = value f (magOf f a) := by
  have hexp : a / 2 ^ f.fbits % 2 ^ f.ebits ≠ 2 ^ f.ebits - 1 := fun he => absurd ((exp_eq_iff f a).1 he) (not_le.2 h)
  have hr := frac_lt f a
  have hprec : 2 ^ f.prec = 2 ^ f.fbits + 2 ^ f.fbits := by rw [FpFormat.prec, Nat.pow_succ]; omega
  rw [magOf_eq]
  cases hx : a / 2 ^ f.fbits % 2 ^ f.ebits with
  | zero =>
    rw [hx] at hexp
    refine ⟨a % 2 ^ f.fbits, f.qmin, ?_, by omega, ?_⟩
    · simp only [FpFormat.decode, hx, hexp, if_true, if_false]
      rfl
    · rw [value_binade (.inl rfl) (by omega), Nat.cast_zero, add_zero]
  | succ t =>
    rw [hx] at hexp
    refine ⟨a % 2 ^ f.fbits + 2 ^ f.fbits, f.qmin + (t + 1 : ℕ) - 1, ?_, by omega, ?_⟩
    · simp only [FpFormat.decode, hx, hexp, if_false, Nat.succ_ne_zero]
      rfl
    · rw [show (t + 1) * 2 ^ f.fbits + a % 2 ^ f.fbits = t * 2 ^ f.fbits + (a % 2 ^ f.fbits + 2 ^ f.fbits) by ring,
        value_binade (.inr (Nat.le_add_left _ _)) (by omega), Nat.cast_succ, add_sub_assoc, add_sub_cancel_right]

theorem isNan_iff (f : FpFormat) (a : ℕ) : f.isNan a = true ↔ IsNan f a := by
  unfold FpFormat.isNan
  rcases kinds f a with h | h | h
  · obtain ⟨m, e, hd, -⟩ := decode_finite h
    simp [hd, not_nan_of_finite h]
  · simp [decode_inf h, not_nan_of_inf h]
  · simp [decode_nan h, h]

theorem isSig_iff (f : FpFormat) (a : ℕ) : f.isSig a = true ↔ IsSig f a := by
  unfold FpFormat.isSig IsSig
  rcases kinds f a with h | h | h
  · obtain ⟨m, e, hd, -⟩ := decode_finite h
    simp [hd, not_nan_of_finite h]
  · simp [decode_inf h, not_nan_of_inf h]
  · rw [decode_nan h]
    exact decide_eq_true_iff.trans ⟨fun hq => ⟨h, hq⟩, And.right⟩

theorem isNan_eq_false (h : ¬IsNan f a) : f.isNan a = false := Bool.eq_false_iff.2 fun hn => h ((isNan_iff f a).1 hn)

theorem firstNan_none {l : List ℕ} (h : ∀ a ∈ l, ¬IsNan f a) : f.firstNan l = none := by
  rw [FpFormat.firstNan, List.find?_eq_none.2 fun a ha => by rw [isNan_eq_false (h a ha)]; exact Bool.false_ne_true]
  rfl

/-- The first NaN of operands, its quiet form. -/
theorem firstNan_some {l r : List ℕ} (hl : ∀ b ∈ l, ¬IsNan f b) (h : IsNan f a) : f.firstNan (l ++ a :: r) = some (f.quiet a) := by
  rw [FpFormat.firstNan, List.find?_append, List.find?_eq_none.2 fun b hb => by rw [isNan_eq_false (hl b hb)]; exact Bool.false_ne_true,
    List.find?_cons_of_pos ((isNan_iff f a).2 h)]
  rfl

/-! ## Signs and values -/

noncomputable def sgn (neg : Bool) : ℝ := if neg then -1 else 1

theorem sgn_bne (p q : Bool) : sgn (p != q) = sgn p * sgn q := by cases p <;> cases q <;> norm_num [sgn]

theorem abs_sgn_mul (neg : Bool) (h : 0 ≤ y) : |sgn neg * y| = y := by cases neg <;> simp [sgn, abs_of_nonneg h]

theorem neg_eq_decide (neg : Bool) (h : 0 < y) : neg = decide (sgn neg * y < 0) := by
  cases neg
  · simp [sgn, h.le]
  · simp [sgn, h]

theorem signed_cast (neg : Bool) (m : ℕ) : ((signed neg m : ℤ) : ℝ) = sgn neg * m := by cases neg <;> simp [signed, sgn]

theorem real_cast (f : FpFormat) (a : ℕ) : (Claims.real f a : ℝ) = sgn (Claims.negative f a) * value f (magOf f a) := by
  rw [Claims.real, sgn, value, magOf]
  split <;> push_cast <;> rfl

/-- A finite pattern as a signed number. -/
theorem decode_real (h : Claims.finite f a) : ∃ m e, f.decode a = .num (Claims.negative f a) m e ∧ m < 2 ^ f.prec ∧
    (Claims.real f a : ℝ) = sgn (Claims.negative f a) * (m * 2 ^ e) := by
  obtain ⟨m, e, hd, hm, hv⟩ := decode_finite h
  exact ⟨m, e, hd, hm, by rw [real_cast, hv]⟩

theorem signed_eq_zero_iff (neg : Bool) (m : ℕ) (e : ℤ) : sgn neg * (m * 2 ^ e) = 0 ↔ m = 0 := by
  have := (two_zpow_pos e).ne'
  cases neg <;> simp [sgn, this]

theorem signBits_eq (f : FpFormat) (neg : Bool) : f.signBits neg = if neg = true then 2 ^ (f.ebits + f.fbits) else 0 := rfl

/-! ## Formats -/

/-- What the formats of the manual have in common. -/
structure Regular (f : FpFormat) : Prop where
  frac : 1 ≤ f.fbits
  exp : 2 ≤ f.ebits
  prec : f.prec ≤ 119

theorem Regular.normal (h : Regular f) : 2 ^ f.fbits < f.infBits := by
  have : 2 ^ 2 ≤ 2 ^ f.ebits := Nat.pow_le_pow_right two_pos h.exp
  have hpos : 0 < 2 ^ f.fbits := Nat.two_pow_pos _
  rw [FpFormat.infBits]
  nlinarith [Nat.sub_add_cancel (Nat.one_le_two_pow (n := f.ebits))]

theorem regular_fp16F : Regular fp16F := ⟨by decide, by decide, by decide⟩
theorem regular_bf16F : Regular bf16F := ⟨by decide, by decide, by decide⟩
theorem regular_fp32F : Regular fp32F := ⟨by decide, by decide, by decide⟩
theorem regular_fp64F : Regular fp64F := ⟨by decide, by decide, by decide⟩
theorem regular_e4m3F : Regular e4m3F := ⟨by decide, by decide, by decide⟩

/-- A signed exact value, nonzero, is rounded once. -/
theorem round_signed (hf : Regular f) (hmode : mode ≠ .dyn) (hm : m ≠ 0) (hy : Exact m e sticky y) (hs : sticky = true → 2 ^ 119 ≤ m)
    (neg : Bool) : Claims.RoundsTo f f.infBits mode (sgn neg * y) (f.round mode neg m e sticky) := by
  have hpos := (hy.valueIn hm f).pos
  exact round_roundsTo hf.frac hf.normal hmode hm (neg_eq_decide neg hpos) (by rwa [abs_sgn_mul neg hpos.le])
    (fun h => (Nat.pow_le_pow_right two_pos hf.prec).trans (hs h))

theorem round_whole (hf : Regular f) (hmode : mode ≠ .dyn) (hm : m ≠ 0) (neg : Bool) (e : ℤ) :
    Claims.RoundsTo f f.infBits mode (sgn neg * (m * 2 ^ e)) (f.round mode neg m e false) :=
  round_signed hf hmode hm (exact_whole m e) nofun neg

end Sys2Proof.Rounding
end

section
/-!
SUPPORT. Sums and products of finite operands, exact and rounded once (12 R297, R298, R301), with the scalings and conversions
(12 R306, R308, R309; 08 R184).
-/

namespace Sys2Proof.Rounding

open Sys2Proof Sys2Proof.Machine

variable {f g : FpFormat} {mode : Rm} {a b c m : ℕ} {e : ℤ} {x y : ℝ}

/-! ## Exact sums -/

noncomputable def worth (x : Machine.Dyadic) : ℝ := x.m * 2 ^ x.e

theorem worth_eq_zero_iff (x : Machine.Dyadic) : worth x = 0 ↔ x.m = 0 := by
  rw [worth, mul_eq_zero, or_iff_left (two_zpow_pos x.e).ne', Int.cast_eq_zero]

theorem worth_signed (neg : Bool) (m : ℕ) (e : ℤ) : worth ⟨signed neg m, e⟩ = sgn neg * (m * 2 ^ e) := by
  rw [worth, signed_cast, mul_assoc]

theorem worth_add (x y : Machine.Dyadic) : worth (Machine.Dyadic.add x y) = worth x + worth y := by
  unfold Machine.Dyadic.add
  split
  · next h => rw [(worth_eq_zero_iff x).2 h, zero_add]
  · split
    · next h => rw [(worth_eq_zero_iff y).2 h, add_zero]
    · have hshift (n : ℤ) {p q : ℤ} (h : q ≤ p) : ((n * 2 ^ (p - q).toNat : ℤ) : ℝ) * 2 ^ q = n * 2 ^ p := by
        have hp := two_zpow_toNat (sub_nonneg.2 h)
        push_cast at hp ⊢
        rw [hp, mul_assoc, ← zpow_add₀ two_ne_zero, sub_add_cancel]
      unfold worth
      dsimp only
      rw [Int.cast_add, add_mul, hshift _ (min_le_left _ _), hshift _ (min_le_right _ _)]

theorem signed_natAbs (n : ℤ) : signed (decide (n < 0)) n.natAbs = n := by
  unfold signed
  by_cases h : n < 0
  · rw [if_pos (decide_eq_true h)]
    omega
  · rw [if_neg (by simpa using h)]
    omega

/-- The sign of an exact zero (12 R297). -/
def zeroSign (mode : Rm) (n1 n2 : Bool) : Bool := if n1 = n2 then n1 else decide (mode = .rdn)

/-- An exact sum is rounded once; an exact zero takes its sign by R297 and raises nothing. -/
theorem roundSum_spec (hf : Regular f) (hmode : mode ≠ .dyn) (n1 n2 : Bool) (x : Machine.Dyadic) :
    (worth x ≠ 0 → Claims.RoundsTo f f.infBits mode (worth x) (f.roundSum mode n1 n2 x)) ∧
    (worth x = 0 → f.roundSum mode n1 n2 x = (f.signBits (zeroSign mode n1 n2), 0)) := by
  rw [ne_eq, worth_eq_zero_iff, FpFormat.roundSum]
  refine ⟨fun hx => ?_, fun hx => ?_⟩
  · rw [if_neg hx]
    have hworth : worth x = sgn (decide (x.m < 0)) * (x.m.natAbs * 2 ^ x.e) := by
      rw [← worth_signed, signed_natAbs]
    rw [hworth]
    exact round_whole hf hmode (Int.natAbs_ne_zero.2 hx) _ _
  · rw [if_pos hx]
    simp only [zeroSign, beq_iff_eq]
    rfl

/-! ## The words -/

theorem add_finite (hf : Regular f) (hmode : mode ≠ .dyn) (sub : Bool) (ha : Claims.finite f a) (hb : Claims.finite f b) :
    let x : ℝ := Claims.real f a + (if sub then -1 else 1) * Claims.real f b
    (x ≠ 0 → Claims.RoundsTo f f.infBits mode x (f.add mode sub a b)) ∧
    (x = 0 → f.add mode sub a b = (f.signBits (zeroSign mode (Claims.negative f a) (Claims.negative f b ^^ sub)), 0)) := by
  obtain ⟨ma, ea, hda, -, hva⟩ := decode_real ha
  obtain ⟨mb, eb, hdb, -, hvb⟩ := decode_real hb
  have hnan : f.firstNan [a, b] = none := firstNan_none (by simp [not_nan_of_finite ha, not_nan_of_finite hb])
  have hx : (Claims.real f a : ℝ) + (if sub then -1 else 1) * Claims.real f b =
      worth (Machine.Dyadic.add ⟨signed (Claims.negative f a) ma, ea⟩ ⟨signed (Claims.negative f b != sub) mb, eb⟩) := by
    rw [worth_add, worth_signed, worth_signed, sgn_bne, ← hva, mul_assoc, mul_left_comm, ← hvb]
    rfl
  rw [hx, FpFormat.add, hnan, hda, hdb]
  exact roundSum_spec hf hmode _ _ _

theorem mul_value (p q : Bool) (ma mb : ℕ) (ea eb : ℤ) :
    sgn p * ((ma : ℝ) * 2 ^ ea) * (sgn q * (mb * 2 ^ eb)) = sgn (p != q) * ((ma * mb : ℕ) * 2 ^ (ea + eb)) := by
  rw [sgn_bne, zpow_add₀ two_ne_zero]
  push_cast
  ring

theorem mul_finite (hf : Regular f) (hmode : mode ≠ .dyn) (ha : Claims.finite f a) (hb : Claims.finite f b) :
    let x : ℝ := Claims.real f a * Claims.real f b
    (x ≠ 0 → Claims.RoundsTo f f.infBits mode x (f.mul mode a b)) ∧
    (x = 0 → f.mul mode a b = (f.signBits (Claims.negative f a ^^ Claims.negative f b), 0)) := by
  obtain ⟨ma, ea, hda, -, hva⟩ := decode_real ha
  obtain ⟨mb, eb, hdb, -, hvb⟩ := decode_real hb
  have hnan : f.firstNan [a, b] = none := firstNan_none (by simp [not_nan_of_finite ha, not_nan_of_finite hb])
  rw [hva, hvb, mul_value, FpFormat.mul, hnan, hda, hdb]
  dsimp only
  refine ⟨fun hx => round_whole hf hmode (fun h => hx ((signed_eq_zero_iff _ _ _).2 h)) _ _, fun hx => ?_⟩
  rw [(signed_eq_zero_iff _ _ _).1 hx, round_zero]

theorem fma_finite (hf : Regular f) (hmode : mode ≠ .dyn) (np nc : Bool) (ha : Claims.finite f a) (hb : Claims.finite f b)
    (hc : Claims.finite f c) :
    let x : ℝ := (if np then -1 else 1) * (Claims.real f a * Claims.real f b) + (if nc then -1 else 1) * Claims.real f c
    (x ≠ 0 → Claims.RoundsTo f f.infBits mode x (f.fma mode np nc a b c)) ∧
    (x = 0 → f.fma mode np nc a b c =
      (f.signBits (zeroSign mode (Claims.negative f a ^^ Claims.negative f b ^^ np) (Claims.negative f c ^^ nc)), 0)) := by
  obtain ⟨ma, ea, hda, -, hva⟩ := decode_real ha
  obtain ⟨mb, eb, hdb, -, hvb⟩ := decode_real hb
  obtain ⟨mc, ec, hdc, -, hvc⟩ := decode_real hc
  have hnan : f.firstNan [a, b, c] = none :=
    firstNan_none (by simp [not_nan_of_finite ha, not_nan_of_finite hb, not_nan_of_finite hc])
  have hx : (if np then (-1 : ℝ) else 1) * (Claims.real f a * Claims.real f b) + (if nc then -1 else 1) * Claims.real f c =
      worth (Machine.Dyadic.add ⟨signed ((Claims.negative f a != Claims.negative f b) != np) (ma * mb), ea + eb⟩
        ⟨signed (Claims.negative f c != nc) mc, ec⟩) := by
    rw [worth_add, worth_signed, worth_signed, sgn_bne _ np, sgn_bne _ nc, hva, hvb, hvc, mul_value]
    simp only [sgn]
    ring
  rw [hx, FpFormat.fma, hnan, hda, hdb, hdc]
  exact roundSum_spec hf hmode _ _ _

theorem scalb_finite (hf : Regular f) (hmode : mode ≠ .dyn) (ha : Claims.finite f a) (n : ℤ) :
    ((Claims.real f a : ℝ) ≠ 0 → Claims.RoundsTo f f.infBits mode (Claims.real f a * 2 ^ n) (f.scalb mode a n)) ∧
    ((Claims.real f a : ℝ) = 0 → f.scalb mode a n = (f.signBits (Claims.negative f a), 0)) := by
  obtain ⟨m, e, hd, -, hv⟩ := decode_real ha
  have hscale : sgn (Claims.negative f a) * ((m : ℝ) * 2 ^ e) * 2 ^ n = sgn (Claims.negative f a) * (m * 2 ^ (e + n)) := by
    rw [zpow_add₀ two_ne_zero]
    ring
  rw [FpFormat.scalb, hd, hv, ne_eq, signed_eq_zero_iff, hscale]
  refine ⟨fun hm => round_whole hf hmode hm _ _, ?_⟩
  rintro rfl
  exact round_zero _ _ _ _

theorem convert_finite (hf : Regular f) (hmode : mode ≠ .dyn) (ha : Claims.finite g a) :
    ((Claims.real g a : ℝ) ≠ 0 → Claims.RoundsTo f f.infBits mode (Claims.real g a) (f.convert g mode a)) ∧
    ((Claims.real g a : ℝ) = 0 → f.convert g mode a = (f.signBits (Claims.negative g a), 0)) := by
  obtain ⟨m, e, hd, -, hv⟩ := decode_real ha
  rw [FpFormat.convert, hd, hv, ne_eq, signed_eq_zero_iff]
  refine ⟨fun hm => round_whole hf hmode hm _ _, ?_⟩
  rintro rfl
  exact round_zero _ _ _ _

theorem intToFp32_rounds (hmode : mode ≠ .dyn) {x : ℤ} (hx : x ≠ 0) : Claims.RoundsTo fp32F fp32F.infBits mode x (intToFp32 mode x) := by
  have h := round_whole regular_fp32F hmode (Int.natAbs_ne_zero.2 hx) (decide (x < 0)) 0
  have hval : sgn (decide (x < 0)) * ((x.natAbs : ℝ) * 2 ^ (0 : ℤ)) = x := by
    rw [zpow_zero, mul_one, ← signed_cast, signed_natAbs]
  rwa [hval] at h

end Sys2Proof.Rounding
end

section
/-!
SUPPORT. Quotients and roots of finite operands: the integer parts that the model rounds, with what they leave (12 R319).
-/

namespace Sys2Proof.Rounding

open Sys2Proof Sys2Proof.Machine

variable {f : FpFormat} {mode : Rm} {neg : Bool} {a b m n : ℕ} {e : ℤ} {x y : ℝ}

/-! ## The integer root -/

theorem isqrtFrom_spec (n : ℕ) (i : ℕ) : ∀ r : ℕ, r * r ≤ n → n < (r + 2 ^ i) * (r + 2 ^ i) →
    isqrtFrom n i r * isqrtFrom n i r ≤ n ∧ n < (isqrtFrom n i r + 1) * (isqrtFrom n i r + 1) := by
  induction i with
  | zero => exact fun r hlow hhigh => ⟨hlow, hhigh⟩
  | succ i ih =>
    intro r hlow hhigh
    rw [isqrtFrom]
    split
    · next h => exact ih _ h (by rwa [Nat.pow_succ, Nat.mul_two, ← Nat.add_assoc] at hhigh)
    · next h => exact ih _ hlow (not_le.1 h)

theorem isqrt_spec (n : ℕ) : isqrt n * isqrt n ≤ n ∧ n < (isqrt n + 1) * (isqrt n + 1) := by
  refine isqrtFrom_spec n _ 0 (Nat.zero_le n) ?_
  rw [Nat.zero_add, ← Nat.pow_add]
  exact Nat.lt_log2_self.trans_le (Nat.pow_le_pow_right two_pos (by omega))

theorem le_isqrt {k : ℕ} (h : k * k ≤ n) : k ≤ isqrt n :=
  Nat.lt_succ_iff.1 (Nat.mul_self_lt_mul_self_iff.1 (h.trans_lt (isqrt_spec n).2))

/-! ## Integer parts as exact values -/

/-- The integer part of z, told to be all of it or not. -/
theorem exact_of_floor (e : ℤ) {z : ℝ} {r : ℕ} (h0 : (r : ℝ) ≤ z) (h1 : z < r + 1) {sticky : Bool} (hs : sticky = true ↔ (r : ℝ) ≠ z) :
    Exact r e sticky (z * 2 ^ e) :=
  ⟨z - r, by rw [add_sub_cancel], sub_nonneg.2 h0, by linarith, hs.trans ⟨fun h hz => h (by linarith), fun h hz => h (by linarith)⟩⟩

theorem exact_quotient {m1 m2 : ℕ} (h2 : m2 ≠ 0) (e1 e2 : ℤ) (k : ℕ) :
    Exact (m1 * 2 ^ k / m2) (e1 - e2 - k) (m1 * 2 ^ k % m2 != 0) (m1 * 2 ^ e1 / (m2 * 2 ^ e2)) := by
  have hm2 : (0 : ℝ) < m2 := by exact_mod_cast Nat.pos_of_ne_zero h2
  have hdm : ((m1 * 2 ^ k : ℕ) : ℝ) = m2 * (m1 * 2 ^ k / m2 : ℕ) + (m1 * 2 ^ k % m2 : ℕ) := by exact_mod_cast (Nat.div_add_mod _ m2).symm
  have hr : ((m1 * 2 ^ k % m2 : ℕ) : ℝ) < m2 := by exact_mod_cast Nat.mod_lt _ (Nat.pos_of_ne_zero h2)
  have hval : (m1 : ℝ) * 2 ^ e1 / (m2 * 2 ^ e2) = (m1 * 2 ^ k : ℕ) / m2 * 2 ^ (e1 - e2 - k) := by
    rw [zpow_sub₀ two_ne_zero, zpow_sub₀ two_ne_zero, zpow_natCast]
    push_cast
    have := two_zpow_pos e2
    field_simp
  rw [hval, hdm]
  generalize m1 * 2 ^ k / m2 = q
  generalize m1 * 2 ^ k % m2 = r at hr
  have hr0 : (0 : ℝ) ≤ r := Nat.cast_nonneg r
  have hz : ((m2 : ℝ) * q + r) / m2 = q + r / m2 := by field_simp
  rw [hz]
  refine exact_of_floor _ (le_add_of_nonneg_right (by positivity)) (by rw [add_lt_add_iff_left, div_lt_one hm2]; exact hr) ?_
  rw [bne_iff_ne, ne_eq, ne_eq, left_eq_add, div_eq_zero_iff, or_iff_left hm2.ne', Nat.cast_eq_zero]

theorem quotient_large {m1 m2 : ℕ} (h1 : m1 ≠ 0) (h2 : m2 ≠ 0) : 2 ^ 119 ≤ m1 * 2 ^ (120 + m2.log2) / m2 := by
  have hlog : m2 < 2 ^ (m2.log2 + 1) := Nat.lt_log2_self
  rw [Nat.le_div_iff_mul_le (Nat.pos_of_ne_zero h2)]
  calc 2 ^ 119 * m2 ≤ 2 ^ 119 * 2 ^ (m2.log2 + 1) := Nat.mul_le_mul_left _ hlog.le
    _ = 2 ^ (120 + m2.log2) := by rw [← Nat.pow_add]; congr 1; omega
    _ ≤ m1 * 2 ^ (120 + m2.log2) := Nat.le_mul_of_pos_left _ (Nat.pos_of_ne_zero h1)

/-- A quotient of nonzero numbers is rounded once. -/
theorem quotient_rounds (hf : Regular f) (hmode : mode ≠ .dyn) {m1 m2 : ℕ} (h1 : m1 ≠ 0) (h2 : m2 ≠ 0) (e1 e2 : ℤ) (neg : Bool) :
    Claims.RoundsTo f f.infBits mode (sgn neg * (m1 * 2 ^ e1 / (m2 * 2 ^ e2))) (f.quotient mode neg m1 e1 m2 e2) := by
  have hlarge := quotient_large h1 h2
  have hexact := exact_quotient (m1 := m1) h2 e1 e2 (120 + m2.log2)
  exact round_signed hf hmode (by omega) hexact (fun _ => hlarge) neg

theorem evenExp_value (m : ℕ) (e : ℤ) : (m : ℝ) * 2 ^ e = (evenExp m e).1 * 4 ^ (evenExp m e).2 := by
  have hfour (h : ℤ) : (4 : ℝ) ^ h = 2 ^ (2 * h) := by rw [zpow_mul]; norm_num
  unfold evenExp
  split
  · rw [hfour, show 2 * (e / 2) = e by omega]
  · rw [hfour, show 2 * (e / 2) = e - 1 by omega, zpow_sub_one₀ two_ne_zero]
    push_cast
    ring

theorem evenExp_ne_zero (hm : m ≠ 0) (e : ℤ) : (evenExp m e).1 ≠ 0 := by
  unfold evenExp
  split
  · exact hm
  · exact mul_ne_zero two_ne_zero hm

theorem sqrt_four_zpow (h : ℤ) : Real.sqrt (4 ^ h) = 2 ^ h := by
  rw [show (4 : ℝ) ^ h = (2 ^ h) ^ 2 by rw [← zpow_natCast, ← zpow_mul, mul_comm, zpow_mul]; norm_num]
  exact Real.sqrt_sq (two_zpow_pos h).le

/-- The integer root is the integer part of the root of any number between n and n + 1. -/
theorem isqrt_floor {z : ℝ} (hn : (n : ℝ) ≤ z) (hz : z < n + 1) : (isqrt n : ℝ) ≤ Real.sqrt z ∧ Real.sqrt z < isqrt n + 1 := by
  obtain ⟨hlow, hhigh⟩ := isqrt_spec n
  constructor
  · refine Real.le_sqrt_of_sq_le ((le_trans ?_ hn))
    rw [sq]
    exact_mod_cast hlow
  · rw [Real.sqrt_lt' (by positivity), sq]
    refine hz.trans_le ?_
    exact_mod_cast hhigh

/-- It is the whole root when its square is the number. -/
theorem isqrt_ne_iff {z : ℝ} (hz : 0 ≤ z) (n : ℕ) : (isqrt n : ℝ) ≠ Real.sqrt z ↔ (isqrt n : ℝ) * isqrt n ≠ z := by
  rw [ne_eq, ne_eq, eq_comm, Real.sqrt_eq_iff_mul_self_eq hz (Nat.cast_nonneg _), eq_comm]

theorem root_rounds (hf : Regular f) (hmode : mode ≠ .dyn) (hm : m ≠ 0) (e : ℤ) :
    Claims.RoundsTo f f.infBits mode (Real.sqrt (m * 2 ^ e)) (f.root mode m e) := by
  have hne := evenExp_ne_zero hm e
  rw [evenExp_value]
  unfold FpFormat.root
  dsimp only
  generalize (evenExp m e).1 = m1 at hne
  generalize (evenExp m e).2 = h
  have hval : Real.sqrt (m1 * 4 ^ h) = sgn false * (Real.sqrt (m1 * 4 ^ 120 : ℕ) * 2 ^ (h - 120)) := by
    rw [Real.sqrt_mul (Nat.cast_nonneg _), sqrt_four_zpow, Nat.cast_mul, Real.sqrt_mul (Nat.cast_nonneg _), sgn]
    have h120 : Real.sqrt ((4 ^ 120 : ℕ) : ℝ) = 2 ^ (120 : ℤ) := by
      rw [← sqrt_four_zpow]
      norm_num
    rw [h120, mul_assoc, ← zpow_add₀ two_ne_zero, add_sub_cancel]
    simp
  have hlarge : 2 ^ 120 ≤ isqrt (m1 * 4 ^ 120) := by
    refine le_isqrt ?_
    rw [← Nat.pow_add, show (4 : ℕ) ^ 120 = 2 ^ (120 + 120) by rw [show (4 : ℕ) = 2 ^ 2 from rfl, ← Nat.pow_mul]]
    exact Nat.le_mul_of_pos_left _ (Nat.pos_of_ne_zero hne)
  generalize m1 * 4 ^ 120 = n at hval hlarge
  obtain ⟨hlow, hhigh⟩ := isqrt_floor (n := n) le_rfl (lt_add_one _)
  rw [hval]
  refine round_signed hf hmode ?_ (exact_of_floor _ hlow hhigh ?_) (fun _ => le_trans ?_ hlarge) false
  · exact (Nat.lt_of_lt_of_le (Nat.two_pow_pos 120) hlarge).ne'
  · rw [isqrt_ne_iff (Nat.cast_nonneg n), bne_iff_ne]
    exact_mod_cast Iff.rfl
  · exact Nat.pow_le_pow_right two_pos (by decide)

theorem invRoot_rounds (hf : Regular f) (hmode : mode ≠ .dyn) (hm : m ≠ 0) (e : ℤ) :
    Claims.RoundsTo f f.infBits mode (1 / Real.sqrt (m * 2 ^ e)) (f.invRoot mode m e) := by
  have hne := evenExp_ne_zero hm e
  rw [evenExp_value]
  unfold FpFormat.invRoot
  dsimp only
  generalize (evenExp m e).1 = m1 at hne
  generalize (evenExp m e).2 = h
  have hm1 : (0 : ℝ) < m1 := by exact_mod_cast Nat.pos_of_ne_zero hne
  generalize hk : 120 + m1.log2 = k
  have hval : 1 / Real.sqrt (m1 * 4 ^ h) = sgn false * (Real.sqrt ((4 ^ k : ℕ) / m1) * 2 ^ (-h - k)) := by
    have h4k : Real.sqrt ((4 ^ k : ℕ) : ℝ) = 2 ^ (k : ℤ) := by
      rw [← sqrt_four_zpow, zpow_natCast]
      norm_num
    rw [Real.sqrt_mul hm1.le, sqrt_four_zpow, Real.sqrt_div (Nat.cast_nonneg _), h4k, zpow_sub₀ two_ne_zero, zpow_neg, sgn]
    have := two_zpow_pos h
    have := two_zpow_pos k
    have := Real.sqrt_pos.2 hm1
    simp only [Bool.false_eq_true, if_false, one_mul]
    field_simp
  have hlarge : 2 ^ 119 ≤ isqrt (4 ^ k / m1) := by
    refine le_isqrt ((Nat.le_div_iff_mul_le (Nat.pos_of_ne_zero hne)).2 ?_)
    have hlog : m1 < 2 ^ (m1.log2 + 1) := Nat.lt_log2_self
    have hfour : (4 : ℕ) ^ k = 2 ^ (2 * k) := by rw [Nat.pow_mul]
    rw [hfour, ← Nat.pow_add]
    calc 2 ^ (119 + 119) * m1 ≤ 2 ^ (119 + 119) * 2 ^ (m1.log2 + 1) := Nat.mul_le_mul_left _ hlog.le
      _ ≤ 2 ^ (2 * k) := by rw [← Nat.pow_add]; exact Nat.pow_le_pow_right two_pos (by omega)
  have hq0 : ((4 ^ k / m1 : ℕ) : ℝ) ≤ (4 ^ k : ℕ) / m1 := Nat.cast_div_le
  have hq1 : ((4 ^ k : ℕ) : ℝ) / m1 < (4 ^ k / m1 : ℕ) + 1 := by
    rw [div_lt_iff₀ hm1]
    exact_mod_cast (Nat.div_lt_iff_lt_mul (Nat.pos_of_ne_zero hne)).1 (Nat.lt_succ_self (4 ^ k / m1))
  obtain ⟨hlow, hhigh⟩ := isqrt_floor hq0 hq1
  rw [hval]
  refine round_signed hf hmode ?_ (exact_of_floor _ hlow hhigh ?_) (fun _ => hlarge) false
  · exact (Nat.lt_of_lt_of_le (Nat.two_pow_pos 119) hlarge).ne'
  · rw [isqrt_ne_iff (by positivity), bne_iff_ne, ne_eq, ne_eq, eq_div_iff hm1.ne']
    exact_mod_cast Iff.rfl

end Sys2Proof.Rounding
end

section
/-!
SUPPORT. Values rounded to integers, and FP32 values narrowed to FP8 (12 R305, R309, R314; 08 R185).
-/

namespace Sys2Proof.Rounding

open Sys2Proof Sys2Proof.Machine Sys2Proof.Widths

variable {f : FpFormat} {mode : Rm} {neg : Bool} {a b k m n : ℕ} {e : ℤ} {x y z : ℝ}

/-! ## Signed patterns -/

theorem magOf_signed (neg : Bool) (h : k < 2 ^ (f.ebits + f.fbits)) : magOf f (f.signBits neg + k) = k := by
  unfold magOf FpFormat.signBits
  split
  · rw [Nat.add_mod_left, Nat.mod_eq_of_lt h]
  · rw [Nat.zero_add, Nat.mod_eq_of_lt h]

theorem negative_signed (neg : Bool) (h : k < 2 ^ (f.ebits + f.fbits)) : Claims.negative f (f.signBits neg + k) = neg := by
  unfold Claims.negative FpFormat.signBits
  cases neg with
  | true => rw [if_pos rfl, Nat.testBit_two_pow_add_eq, Nat.testBit_lt_two_pow h]; rfl
  | false => rw [if_neg Bool.false_ne_true, Nat.zero_add, Nat.testBit_lt_two_pow h]

theorem real_signed (neg : Bool) (h : k < 2 ^ (f.ebits + f.fbits)) : (Claims.real f (f.signBits neg + k) : ℝ) = sgn neg * value f k := by
  rw [real_cast, magOf_signed neg h, negative_signed neg h]

/-! ## Integral values -/

/-- A magnitude rounded to an integer, with its sign, is the value rounded to an integer. -/
theorem integral_of_nearest (h0 : 0 ≤ z) (h : Nearest mode neg z k) : Claims.Integral mode (sgn neg * z) (signed neg k) := by
  have hk : (k : ℤ) = ⌊z⌋ ↔ (k : ℝ) ≤ z ∧ z < k + 1 := by rw [eq_comm, Int.floor_eq_iff]; norm_cast
  have hk' : (k : ℤ) = ⌈z⌉ ↔ (k : ℝ) < z + 1 ∧ z ≤ k := by
    rw [eq_comm, Int.ceil_eq_iff, sub_lt_iff_lt_add]
    norm_cast
  refine ⟨fun hm => ?_, fun hm => ?_, fun hm => ?_, fun hm => ?_⟩
  · have hc := hk.2 (h.cut (.inl hm))
    cases neg with
    | false => simpa [signed, sgn, h0] using hc
    | true =>
      simp only [signed, sgn, if_true, neg_mul, one_mul, Int.ceil_neg, hc]
      split
      · next hz =>
        obtain rfl : z = 0 := by linarith
        simp
      · rfl
  · cases neg with
    | false => simpa [signed, sgn] using hk'.2 (h.grow (.inl ⟨hm, rfl⟩))
    | true => simpa [signed, sgn, Int.ceil_neg] using hk.2 (h.cut (.inr (.inl ⟨hm, rfl⟩)))
  · cases neg with
    | false => simpa [signed, sgn] using hk.2 (h.cut (.inr (.inr ⟨hm, rfl⟩)))
    | true => simpa [signed, sgn, Int.floor_neg] using hk'.2 (h.grow (.inr ⟨hm, rfl⟩))
  · have hdist : |sgn neg * z - (signed neg k : ℤ)| = |z - k| := by
      rw [signed_cast, ← mul_sub, abs_mul]
      cases neg <;> simp [sgn]
    have habs : |((signed neg k : ℤ) : ℝ)| = k := by rw [signed_cast, abs_sgn_mul neg (Nat.cast_nonneg k)]
    rw [hdist, abs_sgn_mul neg h0, habs]
    refine ⟨h.near hm, fun ht => ⟨fun hm => ?_, fun hm => h.away hm ht⟩⟩
    have := h.even hm ht
    unfold signed
    split <;> omega

theorem integral_self (mode : Rm) (n : ℤ) : Claims.Integral mode (n : ℝ) n := by
  refine ⟨fun _ => by simp, fun _ => by simp, fun _ => by simp, fun _ => ?_⟩
  rw [sub_self, abs_zero]
  exact ⟨by norm_num, by norm_num⟩

/-- Formats with integers up to their precision. -/
structure Wide (f : FpFormat) : Prop extends Regular f where
  bias : f.fbits ≤ f.bias

theorem wide_fp32F : Wide fp32F := ⟨regular_fp32F, by decide⟩
theorem wide_fp64F : Wide fp64F := ⟨regular_fp64F, by decide⟩

theorem Wide.infBits_eq (h : Wide f) : f.infBits = (2 * f.bias + 1) * 2 ^ f.fbits := by
  obtain ⟨c, hc⟩ : ∃ c, f.ebits = c + 1 := ⟨f.ebits - 1, by have := h.exp; omega⟩
  have hpos : 0 < 2 ^ c := Nat.two_pow_pos c
  rw [FpFormat.infBits, FpFormat.bias, hc, Nat.add_sub_cancel, Nat.pow_succ]
  congr 1
  omega

/-- An integer that fits the fraction has a pattern. -/
theorem exists_integral_pattern (hw : Wide f) (h0 : k ≠ 0) (hk : k ≤ 2 ^ f.fbits) : ∃ j < f.infBits, value f j = k := by
  have hlog : k.log2 ≤ f.fbits := by
    have := (Nat.pow_le_pow_iff_right (a := 2) one_lt_two).1 ((Nat.log2_self_le h0).trans hk)
    exact this
  have hb : 1 ≤ f.bias := hw.frac.trans hw.bias
  have hlow : 2 ^ f.fbits ≤ k * 2 ^ (f.fbits - k.log2) := by
    calc 2 ^ f.fbits = 2 ^ k.log2 * 2 ^ (f.fbits - k.log2) := by rw [← Nat.pow_add, Nat.add_sub_cancel' hlog]
      _ ≤ _ := Nat.mul_le_mul_right _ (Nat.log2_self_le h0)
  have hhigh : k * 2 ^ (f.fbits - k.log2) < 2 ^ f.prec := by
    calc k * 2 ^ (f.fbits - k.log2) < 2 ^ (k.log2 + 1) * 2 ^ (f.fbits - k.log2) := Nat.mul_lt_mul_of_pos_right Nat.lt_log2_self (Nat.two_pow_pos _)
      _ = 2 ^ f.prec := by rw [← Nat.pow_add]; congr 1; unfold FpFormat.prec; omega
  refine ⟨(k.log2 + f.bias - 1) * 2 ^ f.fbits + k * 2 ^ (f.fbits - k.log2), ?_, ?_⟩
  · have hroom : (k.log2 + f.bias - 1 + 2) * 2 ^ f.fbits ≤ (2 * f.bias + 1) * 2 ^ f.fbits := Nat.mul_le_mul_right _ (by have := hw.bias; omega)
    rw [hw.infBits_eq]
    rw [Nat.add_mul] at hroom
    rw [FpFormat.prec, Nat.pow_succ] at hhigh
    omega
  · rw [value_binade (.inr hlow) hhigh.le]
    have hexp : f.qmin + (k.log2 + f.bias - 1 : ℕ) = -((f.fbits - k.log2 : ℕ) : ℤ) := by
      unfold FpFormat.qmin
      omega
    rw [hexp, zpow_neg, zpow_natCast]
    push_cast
    rw [mul_assoc, mul_inv_cancel₀ (by positivity), mul_one]

/-- An integer that fits the fraction is rounded to itself. -/
theorem round_integral (hw : Wide f) (hk : k ≤ 2 ^ f.fbits) (neg : Bool) :
    ∃ j < f.infBits, (f.round .rne neg k 0 false).1 = f.signBits neg + j ∧ value f j = k := by
  by_cases h0 : k = 0
  · subst h0
    exact ⟨0, Nat.zero_lt_of_lt hw.normal, rfl, by rw [value_zero, Nat.cast_zero]⟩
  · obtain ⟨j, hj, hv⟩ := exists_integral_pattern hw h0 hk
    have hexact : Exact k 0 false (value f j) := by
      have := exact_whole k 0
      rwa [zpow_zero, mul_one, ← hv] at this
    have hmode : Rm.rne ≠ .dyn := nofun
    obtain ⟨hr, hix⟩ := roundMag_rounded hw.frac hmode hexact h0 nofun neg
    obtain ⟨i, hi, hc, -⟩ := clamp_spec hw.normal hmode hr hix (roundMag_tiny hmode hexact h0 nofun neg)
    rw [← round_eq_clamp h0] at hi
    obtain rfl : j = i := by
      by_contra hne
      have hnear := hc.near (.inl rfl) j hj.le hne
      rw [sub_self, abs_zero] at hnear
      rcases hnear with hlt | ⟨heq, -⟩
      · exact absurd hlt (not_lt.2 (abs_nonneg _))
      · exact hne ((value_strictMono f).injective (sub_eq_zero.1 (abs_eq_zero.1 heq)))
    exact ⟨j, hj, hi, hv⟩

theorem nearest_le {M : ℕ} (h : Nearest mode neg z k) (hmode : mode ≠ .dyn) (hz : z ≤ M) : k ≤ M :=
  Nat.lt_succ_iff.1 (by exact_mod_cast (show (k : ℝ) < M + 1 by linarith [(h.bounds hmode).1]))

theorem rint_finite (hw : Wide f) (hmode : mode ≠ .dyn) (ha : Claims.finite f a) : ∃ n : ℤ, Claims.Integral mode (Claims.real f a) n ∧
    Claims.finite f (f.rint mode a).1 ∧ (Claims.real f (f.rint mode a).1 : ℝ) = n ∧ Claims.negative f (f.rint mode a).1 = Claims.negative f a ∧
    ((Claims.real f a : ℝ) = n → (f.rint mode a).2 = 0) ∧ ((Claims.real f a : ℝ) ≠ n → (f.rint mode a).2 = fNX) := by
  obtain ⟨m, e, hd, hm, hv⟩ := decode_real ha
  rw [FpFormat.rint, hd]
  dsimp only
  split
  · next he =>
    have hint : (Claims.real f a : ℝ) = (signed (Claims.negative f a) (m * 2 ^ e.toNat) : ℤ) := by
      rw [hv, signed_cast, Nat.cast_mul, two_zpow_toNat he]
    exact ⟨_, hint ▸ integral_self mode _, ha, hint, rfl, fun _ => rfl, fun h => absurd hint h⟩
  · next he =>
    have hz : (m : ℝ) * 2 ^ e / 2 ^ (0 : ℤ) = m * 2 ^ e := by rw [zpow_zero, div_one]
    obtain ⟨hnear, hix⟩ := roundAt_nearest (q := 0) hmode (exact_whole m e) nofun (Claims.negative f a)
    rw [hz] at hnear hix
    generalize roundAt mode (Claims.negative f a) m e false 0 = r at hnear hix
    have hsmall : (m : ℝ) * 2 ^ e ≤ (2 ^ f.fbits : ℕ) := by
      have hhalf : (2 : ℝ) ^ e ≤ 2 ^ (-1 : ℤ) := zpow_le_zpow_right₀ one_le_two (by omega)
      have hm' : (m : ℝ) ≤ 2 * (2 ^ f.fbits : ℕ) := by
        rw [FpFormat.prec, Nat.pow_succ'] at hm
        exact_mod_cast hm.le
      calc (m : ℝ) * 2 ^ e ≤ 2 * (2 ^ f.fbits : ℕ) * 2 ^ (-1 : ℤ) := by gcongr
        _ = _ := by rw [zpow_neg_one]; ring
    obtain ⟨j, hj, hround, hval⟩ := round_integral hw (nearest_le hnear hmode hsmall) (Claims.negative f a)
    have hlt := hj.trans (infBits_lt f)
    refine ⟨signed (Claims.negative f a) r.1, hv ▸ integral_of_nearest (by positivity) hnear, ?_, ?_, ?_, ?_⟩
    · rw [hround]
      show magOf f _ < _
      rwa [magOf_signed _ hlt]
    · rw [hround, real_signed _ hlt, hval, signed_cast]
    · rw [hround, negative_signed _ hlt]
    · have hinj : (Claims.real f a : ℝ) = (signed (Claims.negative f a) r.1 : ℤ) ↔ r.2 = false := by
        rw [← Bool.not_eq_true, hix, not_not, hv, signed_cast]
        cases Claims.negative f a <;> simp [sgn]
      rw [ne_eq, hinj]
      exact ⟨fun h => by rw [h]; rfl, fun h => by rw [Bool.eq_true_of_not_eq_false h]; rfl⟩

/-- FP32 to INT32: the value rounded to an integer, saturated (12 R309). -/
theorem fp32ToInt_finite (hmode : mode ≠ .dyn) (ha : Claims.finite fp32F a) : ∃ n : ℤ, Claims.Integral mode (Claims.real fp32F a) n ∧
    fp32ToInt mode a = if 2 ^ 31 ≤ n then (0x7FFFFFFF, fNV) else if n < -2 ^ 31 then (0x80000000, fNV)
      else (BitVec.ofInt 32 n, if Claims.real fp32F a = n then 0 else fNX) := by
  obtain ⟨m, e, hd, -, hv⟩ := decode_real ha
  obtain ⟨hnear, hix⟩ := roundAt_nearest (q := 0) hmode (exact_whole m e) nofun (Claims.negative fp32F a)
  rw [zpow_zero, div_one] at hnear hix
  rw [fp32ToInt, hd]
  dsimp only
  generalize roundAt mode (Claims.negative fp32F a) m e false 0 = r at hnear hix
  refine ⟨signed (Claims.negative fp32F a) r.1, hv ▸ integral_of_nearest (by positivity) hnear, ?_⟩
  have hinj : Claims.real fp32F a = (signed (Claims.negative fp32F a) r.1 : ℤ) ↔ r.2 = false := by
    rw [← Rat.cast_inj (α := ℝ), Rat.cast_intCast, ← Bool.not_eq_true, hix, not_not, hv, signed_cast]
    cases Claims.negative fp32F a <;> simp [sgn]
  have hflag : flagIf r.2 fNX = if Claims.real fp32F a = (signed (Claims.negative fp32F a) r.1 : ℤ) then 0 else fNX := by
    rw [if_congr hinj rfl rfl, flagIf]
    cases r.2 <;> rfl
  rw [hflag]
  exact if_congr (by norm_num; omega) rfl (if_congr (by norm_num) rfl rfl)

end Sys2Proof.Rounding
end

section
/-!
SUPPORT. Every result of finite operands is the exact value rounded once (08 R182, R185; 12 R297-R319).
-/

namespace Sys2Proof.Rounding

open Sys2Proof Sys2Proof.Machine

variable {f : FpFormat} {mode : Rm} {neg : Bool} {a b m : ℕ} {e : ℤ} {x y : ℝ}

/-! ## FP8 -/

/-- The FP8 formats: E5M2 and E4M3, whose greatest patterns are followed by `top`. -/
def fp8Format (e5 : Bool) : FpFormat := if e5 then e5m2F else e4m3F
def fp8Top (e5 : Bool) : ℕ := if e5 then 0x7C else 0x7F

theorem signBits_fp8 (e5 neg : Bool) : (fp8Format e5).signBits neg = if neg then 128 else 0 := by cases e5 <;> cases neg <;> rfl

/-- A rounded magnitude as an FP8 pattern: the one past the finite patterns overflows, or with `sat` gives the greatest finite one. -/
def narrowed (f : FpFormat) (top : ℕ) (sat neg : Bool) (r : ℕ × Bool × Bool) : ℕ × Flg :=
  if top - 1 < r.1 then (if sat then (f.signBits neg + (top - 1), fSAT ||| fNX) else (f.signBits neg + top, fOF ||| fNX))
  else (f.signBits neg + r.1, flagIf r.2.1 fNX ||| flagIf (r.2.1 && r.2.2) fUF)

theorem fp8Number_narrowed (hm : m ≠ 0) (e5 sat neg : Bool) (e : ℤ) : fp8Number e5 sat neg m e =
    narrowed (fp8Format e5) (fp8Top e5) sat neg ((fp8Format e5).roundMag .rne neg m e false) := by
  cases e5
  · simp only [fp8Number, fp8Format, hm, if_false, Bool.false_eq_true]
    generalize e4m3F.roundMag .rne neg m e false = r
    rfl
  · simp only [fp8Number, fp8Format, hm, if_false, if_true]
    generalize e5m2F.roundMag .rne neg m e false = r
    rfl

/-- It is the clamped magnitude, but that past the finite patterns `sat` takes back the one pattern. -/
theorem narrowed_eq {f : FpFormat} {top : ℕ} (h0 : 0 < top) (h1 : top < 128) (neg : Bool) (hsign : f.signBits neg = if neg then 128 else 0)
    (sat : Bool) (r : ℕ × Bool × Bool) : let q := clamp f top .rne neg r
    narrowed f top sat neg r = if sat = true ∧ q.1 % 128 = top then (q.1 - 1, fSAT ||| fNX) else q := by
  have hmod (j : ℕ) (hj : j < 128) : (f.signBits neg + j) % 128 = j := by
    rw [hsign]
    split <;> omega
  unfold narrowed clamp
  by_cases hr : top ≤ r.1
  · have hup : overflowsUp .rne neg = true := rfl
    rw [if_pos (by omega : top - 1 < r.1), if_pos hr, hup, if_pos rfl]
    dsimp only
    cases sat
    · rw [if_neg Bool.false_ne_true, if_neg (by simp)]
    · rw [if_pos rfl, if_pos ⟨rfl, hmod _ h1⟩, Nat.add_sub_assoc h0]
  · rw [if_neg (by omega : ¬top - 1 < r.1), if_neg hr]
    dsimp only
    rw [hmod _ (by omega), if_neg (by omega)]

/-- A nonzero exact value narrowed to FP8: rounded to nearest even, and saturated with `sat` (08 R185). -/
theorem fp8Number_narrows (hm : m ≠ 0) (e5 sat neg : Bool) (e : ℤ) : ∃ q,
    Claims.RoundsTo (fp8Format e5) (fp8Top e5) .rne (sgn neg * (m * 2 ^ e)) q ∧
    fp8Number e5 sat neg m e = if sat = true ∧ q.1 % 128 = fp8Top e5 then (q.1 - 1, fSAT ||| fNX) else q := by
  have hpos := ((exact_whole m e).valueIn hm e4m3F).pos
  have hf : 1 ≤ (fp8Format e5).fbits := by cases e5 <;> decide
  have htop : 2 ^ (fp8Format e5).fbits < fp8Top e5 := by cases e5 <;> decide
  have hmode : Rm.rne ≠ .dyn := nofun
  have hexact : Exact m e false |sgn neg * (m * 2 ^ e)| := by
    rw [abs_sgn_mul neg hpos.le]
    exact exact_whole m e
  have hlow : 0 < fp8Top e5 ∧ fp8Top e5 < 128 := by cases e5 <;> decide
  rw [fp8Number_narrowed hm, narrowed_eq hlow.1 hlow.2 neg (signBits_fp8 e5 neg)]
  exact ⟨_, clamp_roundsTo hf htop hmode hm (neg_eq_decide neg hpos) hexact Bool.noConfusion, rfl⟩

theorem fp32ToFp8_finite (e5 sat : Bool) (ha : Claims.finite fp32F a) (hx : (Claims.real fp32F a : ℝ) ≠ 0) : ∃ q,
    Claims.RoundsTo (fp8Format e5) (fp8Top e5) .rne (Claims.real fp32F a) q ∧
    fp32ToFp8 e5 sat a = if sat = true ∧ q.1 % 128 = fp8Top e5 then (q.1 - 1, fSAT ||| fNX) else q := by
  obtain ⟨m, e, hd, -, hv⟩ := decode_real ha
  rw [hv] at hx ⊢
  rw [fp32ToFp8, hd]
  exact fp8Number_narrows (fun h => hx ((signed_eq_zero_iff _ _ _).2 h)) e5 sat _ e

theorem mulToFp8_finite (e5 sat : Bool) (ha : Claims.finite fp32F a) (hb : Claims.finite fp32F b)
    (hx : (Claims.real fp32F a * Claims.real fp32F b : ℝ) ≠ 0) : ∃ q,
    Claims.RoundsTo (fp8Format e5) (fp8Top e5) .rne (Claims.real fp32F a * Claims.real fp32F b) q ∧
    mulToFp8 e5 sat a b = if sat = true ∧ q.1 % 128 = fp8Top e5 then (q.1 - 1, fSAT ||| fNX) else q := by
  obtain ⟨ma, ea, hda, -, hva⟩ := decode_real ha
  obtain ⟨mb, eb, hdb, -, hvb⟩ := decode_real hb
  have hnan : fp32F.firstNan [a, b] = none := firstNan_none (by simp [not_nan_of_finite ha, not_nan_of_finite hb])
  rw [hva, hvb, mul_value] at hx ⊢
  rw [mulToFp8, hnan, hda, hdb]
  exact fp8Number_narrows (fun h => hx ((signed_eq_zero_iff _ _ _).2 h)) e5 sat _ _

/-! ## Quotients and roots -/

theorem div_finite (hf : Regular f) (hmode : mode ≠ .dyn) (ha : Claims.finite f a) (hb : Claims.finite f b)
    (hb0 : (Claims.real f b : ℝ) ≠ 0) :
    ((Claims.real f a : ℝ) ≠ 0 → Claims.RoundsTo f f.infBits mode (Claims.real f a / Claims.real f b) (f.div mode a b)) ∧
    ((Claims.real f a : ℝ) = 0 → f.div mode a b = (f.signBits (Claims.negative f a ^^ Claims.negative f b), 0)) := by
  obtain ⟨ma, ea, hda, -, hva⟩ := decode_real ha
  obtain ⟨mb, eb, hdb, -, hvb⟩ := decode_real hb
  have hnan : f.firstNan [a, b] = none := firstNan_none (by simp [not_nan_of_finite ha, not_nan_of_finite hb])
  have hmb : mb ≠ 0 := fun h => hb0 (by rw [hvb, (signed_eq_zero_iff _ _ _).2 h])
  rw [hva, hvb, ne_eq, signed_eq_zero_iff, FpFormat.div, hnan, hda, hdb]
  dsimp only
  rw [if_neg hmb]
  refine ⟨fun hma => ?_, fun hma => if_pos hma⟩
  have hsign (p q : Bool) (u v : ℝ) : sgn p * u / (sgn q * v) = sgn (p != q) * (u / v) := by
    rw [sgn_bne]
    cases p <;> cases q <;> simp [sgn, div_neg, neg_div]
  rw [if_neg hma, hsign]
  exact quotient_rounds hf hmode hma hmb _ _ _

/-- A function inside its domain (12 R319). -/
theorem rcp_finite (hf : Regular f) (hmode : mode ≠ .dyn) (ha : Claims.finite f a) (h0 : (Claims.real f a : ℝ) ≠ 0) :
    Claims.RoundsTo f f.infBits mode (1 / Claims.real f a) (f.func .rcp mode a) := by
  obtain ⟨m, e, hd, -, hv⟩ := decode_real ha
  have hm : m ≠ 0 := fun h => h0 (by rw [hv, (signed_eq_zero_iff _ _ _).2 h])
  have hfunc : f.func .rcp mode a = f.quotient mode (Claims.negative f a) 1 0 m e := by
    simp [FpFormat.func, hd, hm, FpFormat.finite]
  have hval : 1 / (sgn (Claims.negative f a) * ((m : ℝ) * 2 ^ e)) = sgn (Claims.negative f a) * ((1 : ℕ) * 2 ^ (0 : ℤ) / (m * 2 ^ e)) := by
    cases Claims.negative f a <;> simp [sgn, div_neg]
  rw [hv, hval, hfunc]
  exact quotient_rounds hf hmode one_ne_zero hm _ _ _

theorem roots_finite (hf : Regular f) (hmode : mode ≠ .dyn) (ha : Claims.finite f a) (h0 : 0 < (Claims.real f a : ℝ)) :
    Claims.RoundsTo f f.infBits mode (Real.sqrt (Claims.real f a)) (f.func .sqrt mode a) ∧
    Claims.RoundsTo f f.infBits mode (1 / Real.sqrt (Claims.real f a)) (f.func .rsqrt mode a) := by
  obtain ⟨m, e, hd, -, hv⟩ := decode_real ha
  have hm : m ≠ 0 := fun h => h0.ne' (by rw [hv, (signed_eq_zero_iff _ _ _).2 h])
  have hpos : Claims.negative f a = false := by
    rw [hv] at h0
    cases hneg : Claims.negative f a with
    | false => rfl
    | true =>
      rw [hneg, sgn, if_pos rfl] at h0
      have : (0 : ℝ) ≤ m * 2 ^ e := by positivity
      linarith
  have hval : (Claims.real f a : ℝ) = m * 2 ^ e := by rw [hv, hpos]; simp [sgn]
  have hsqrt : f.func .sqrt mode a = f.root mode m e := by simp [FpFormat.func, hd, hm, hpos, FpFormat.finite]
  have hrsqrt : f.func .rsqrt mode a = f.invRoot mode m e := by simp [FpFormat.func, hd, hm, hpos, FpFormat.finite]
  rw [hval, hsqrt, hrsqrt]
  exact ⟨root_rounds hf hmode hm e, invRoot_rounds hf hmode hm e⟩

/-! ## The statement -/

theorem finiteResultsRoundOnce : Claims.FiniteResultsRoundOnce := by
  unfold Claims.FiniteResultsRoundOnce
  refine ⟨fun f mode hf hmode => ?_, fun f g mode a hf _ hmode ha => ?_, fun mode x hmode hx => intToFp32_rounds hmode hx,
    fun mode a hmode ha => fp32ToInt_finite hmode ha, fun e5 sat a b ha hb => ?_⟩
  · have hw : Wide f := by
      rcases hf with rfl | rfl
      · exact wide_fp32F
      · exact wide_fp64F
    have hreg := hw.toRegular
    refine ⟨fun sub a b ha hb => add_finite hreg hmode sub ha hb, fun a b ha hb => mul_finite hreg hmode ha hb,
      fun np nc a b c ha hb hc => fma_finite hreg hmode np nc ha hb hc, fun a b ha hb hb0 => div_finite hreg hmode ha hb hb0,
      fun a ha h0 => rcp_finite hreg hmode ha h0, fun a ha h0 => roots_finite hreg hmode ha h0, fun a ha => ?_,
      fun a n ha => scalb_finite hreg hmode ha n⟩
    obtain ⟨n, hint, hfin, hval, hneg, hexact, hinexact⟩ := rint_finite hw hmode ha
    refine ⟨n, hint, hfin, hval, hneg, ?_⟩
    split
    · next h => exact hexact h
    · next h => exact hinexact h
  · have hreg : Regular f := by
      simp only [List.mem_cons, List.not_mem_nil, or_false] at hf
      rcases hf with rfl | rfl | rfl | rfl
      · exact regular_fp16F
      · exact regular_bf16F
      · exact regular_fp32F
      · exact regular_fp64F
    have h := convert_finite hreg hmode ha
    exact ⟨fun hx => h.1 (Rat.cast_ne_zero.2 hx), fun hx => h.2 (Rat.cast_eq_zero.2 hx)⟩
  · exact ⟨fun hx => fp32ToFp8_finite e5 sat ha (Rat.cast_ne_zero.2 hx), fun hx => mulToFp8_finite e5 sat ha hb hx⟩

end Sys2Proof.Rounding
end

section
/-!
SUPPORT. Special operands of the binary words: NaNs, infinities and zeros (08 R184; 12 R297, R298, R301, R302, R309).
-/

namespace Sys2Proof.Rounding

open Sys2Proof Sys2Proof.Machine

variable {f : FpFormat} {mode : Rm} {a b c m : ℕ} {e : ℤ}

/-! ## NaNs and their flag -/

/-- NV exactly when p. -/
def Flagged (p : Prop) (fl : Flg) : Prop := (p → fl = fNV) ∧ (¬p → fl = 0)

theorem flagged_flagIf {p : Prop} {x : Bool} (h : x = true ↔ p) : Flagged p (flagIf x fNV) := by
  unfold Flagged flagIf
  rw [← h]
  exact ⟨fun hx => if_pos hx, fun hx => if_neg hx⟩

theorem sigFlag_flagged {p : Prop} {l : List ℕ} (h : (∃ a ∈ l, IsSig f a) ↔ p) : Flagged p (f.sigFlag l) :=
  flagged_flagIf (by rw [← h]; simp [isSig_iff])

theorem Flagged.or {p q : Prop} {x y : Flg} (hx : Flagged p x) (hy : Flagged q y) : Flagged (p ∨ q) (x ||| y) := by
  by_cases hp : p <;> by_cases hq : q <;> simp [Flagged, hp, hq, hx.1, hx.2, hy.1, hy.2]

/-- What a word gives when its operands hold a NaN: the quiet form of the first, and NV for a signalling one. -/
structure NanResult (f : FpFormat) (a b : ℕ) (r : ℕ × Flg) : Prop where
  first : IsNan f a → r.1 = f.quiet a
  second : ¬IsNan f a → IsNan f b → r.1 = f.quiet b
  flag : IsNan f a ∨ IsNan f b → Flagged (IsSig f a ∨ IsSig f b) r.2

theorem sigFlag_two (f : FpFormat) (a b : ℕ) : Flagged (IsSig f a ∨ IsSig f b) (f.sigFlag [a, b]) := sigFlag_flagged (by simp)
theorem sigFlag_one (f : FpFormat) (a : ℕ) : Flagged (IsSig f a) (f.sigFlag [a]) := sigFlag_flagged (by simp)

theorem firstNan_first (r : List ℕ) (h : IsNan f a) : f.firstNan (a :: r) = some (f.quiet a) := firstNan_some (l := []) (by simp) h
theorem firstNan_second (r : List ℕ) (h : ¬IsNan f a) (hb : IsNan f b) : f.firstNan (a :: b :: r) = some (f.quiet b) :=
  firstNan_some (l := [a]) (by simpa using h) hb

theorem firstNan_two (ha : ¬IsNan f a) (hb : ¬IsNan f b) : f.firstNan [a, b] = none := firstNan_none (by simp [ha, hb])

theorem nanResult {r : ℕ × Flg} (h : ∀ q, f.firstNan [a, b] = some q → r = (q, f.sigFlag [a, b])) : NanResult f a b r := by
  refine ⟨fun ha => by rw [h _ (firstNan_first _ ha)], fun ha hb => by rw [h _ (firstNan_second _ ha hb)], fun hn => ?_⟩
  by_cases ha : IsNan f a
  · rw [h _ (firstNan_first _ ha)]
    exact sigFlag_two f a b
  · rw [h _ (firstNan_second _ ha (hn.resolve_left ha))]
    exact sigFlag_two f a b

theorem add_nan (f : FpFormat) (mode : Rm) (sub : Bool) (a b : ℕ) : NanResult f a b (f.add mode sub a b) :=
  nanResult fun q hq => by rw [FpFormat.add, hq]
theorem mul_nan (f : FpFormat) (mode : Rm) (a b : ℕ) : NanResult f a b (f.mul mode a b) := nanResult fun q hq => by rw [FpFormat.mul, hq]
theorem div_nan (f : FpFormat) (mode : Rm) (a b : ℕ) : NanResult f a b (f.div mode a b) := nanResult fun q hq => by rw [FpFormat.div, hq]
theorem minmax_nan (f : FpFormat) (most : Bool) (a b : ℕ) : NanResult f a b (f.minmax most a b) :=
  nanResult fun q hq => by rw [FpFormat.minmax, hq]

/-! ## Infinities and zeros -/

def IsZero (f : FpFormat) (a : ℕ) : Prop := magOf f a = 0

theorem infBits_pos (hf : Regular f) : 0 < f.infBits := Nat.zero_lt_of_lt hf.normal

theorem finite_of_zero (hf : Regular f) (h : IsZero f a) : Claims.finite f a := by
  show magOf f a < _
  rw [h]
  exact infBits_pos hf

theorem not_zero_of_inf (hf : Regular f) (h : IsInf f a) : ¬IsZero f a := fun h0 => not_inf_of_finite (finite_of_zero hf h0) h

theorem finite_or_inf (h : ¬IsNan f a) : Claims.finite f a ∨ IsInf f a := (kinds f a).imp id fun hk => hk.resolve_right h

theorem value_eq_zero_iff {k : ℕ} : value f k = 0 ↔ k = 0 :=
  ⟨fun h => (value_strictMono f).injective (h.trans (value_zero f).symm), fun h => h ▸ value_zero f⟩

theorem decode_num (h : Claims.finite f a) : ∃ m e, f.decode a = .num (Claims.negative f a) m e ∧ (m = 0 ↔ IsZero f a) := by
  obtain ⟨m, e, hd, -, hv⟩ := decode_finite h
  refine ⟨m, e, hd, ?_⟩
  have hz := mul_eq_zero.trans (or_iff_left (b := (2 : ℝ) ^ e = 0) (a := (m : ℝ) = 0) (two_zpow_pos e).ne')
  rw [← Nat.cast_eq_zero (R := ℝ), ← hz, hv, IsZero, value_eq_zero_iff]

/-- The sum or difference with an infinity (12 R301). -/
theorem add_inf_first (hb : ¬IsNan f b) (ha : IsInf f a) (mode : Rm) (sub : Bool)
    {_ : Decidable (IsInf f b ∧ Claims.negative f a ≠ (Claims.negative f b ^^ sub))} : f.add mode sub a b =
    if IsInf f b ∧ Claims.negative f a ≠ (Claims.negative f b ^^ sub) then (f.canonical, fNV) else (a, 0) := by
  rw [FpFormat.add, firstNan_two (not_nan_of_inf ha) hb, decode_inf ha]
  rcases finite_or_inf hb with hb | hb
  · obtain ⟨m, e, hd, -⟩ := decode_num hb
    rw [hd, if_neg (fun h => not_inf_of_finite hb h.1)]
  · rw [decode_inf hb]
    dsimp only
    by_cases hs : Claims.negative f a = (Claims.negative f b ^^ sub)
    · rw [if_pos (beq_iff_eq.2 hs), if_neg (fun h => h.2 hs)]
    · rw [if_neg (fun h => hs (beq_iff_eq.1 h)), if_pos ⟨hb, hs⟩]

theorem add_inf_second (ha : Claims.finite f a) (hb : IsInf f b) (mode : Rm) (sub : Bool) :
    f.add mode sub a b = (f.signBits (Claims.negative f b ^^ sub) + f.infBits, 0) := by
  obtain ⟨m, e, hd, -⟩ := decode_num ha
  rw [FpFormat.add, firstNan_two (not_nan_of_finite ha) (not_nan_of_inf hb), decode_inf hb, hd]

/-- Zero times an infinity. -/
def Fails (f : FpFormat) (a b : ℕ) : Prop := (IsInf f a ∧ IsZero f b) ∨ (IsZero f a ∧ IsInf f b)

theorem not_fails_of_infs (hf : Regular f) (ha : IsInf f a) (hb : IsInf f b) : ¬Fails f a b :=
  fun h => h.elim (fun h => not_zero_of_inf hf hb h.2) fun h => not_zero_of_inf hf ha h.1

theorem fails_first (hf : Regular f) (ha : IsInf f a) : Fails f a b ↔ IsZero f b :=
  ⟨fun h => h.elim And.right fun h => absurd h.1 (not_zero_of_inf hf ha), fun h => .inl ⟨ha, h⟩⟩

theorem fails_second (hf : Regular f) (hb : IsInf f b) : Fails f a b ↔ IsZero f a :=
  ⟨fun h => h.elim (fun h => absurd h.2 (not_zero_of_inf hf hb)) And.left, fun h => .inr ⟨h, hb⟩⟩

theorem mul_inf (hf : Regular f) (ha : ¬IsNan f a) (hb : ¬IsNan f b) (h : IsInf f a ∨ IsInf f b) (mode : Rm) {_ : Decidable (Fails f a b)} :
    f.mul mode a b = if Fails f a b then (f.canonical, fNV) else (f.signBits (Claims.negative f a ^^ Claims.negative f b) + f.infBits, 0) := by
  rw [FpFormat.mul, firstNan_two ha hb]
  rcases finite_or_inf ha with ha | ha <;> rcases finite_or_inf hb with hb | hb
  · exact absurd h (by simp [not_inf_of_finite ha, not_inf_of_finite hb])
  · obtain ⟨m, e, hd, hz⟩ := decode_num ha
    rw [hd, decode_inf hb]
    exact if_congr (hz.trans (fails_second hf hb).symm) rfl rfl
  · obtain ⟨m, e, hd, hz⟩ := decode_num hb
    rw [hd, decode_inf ha]
    exact if_congr (hz.trans (fails_first hf ha).symm) rfl rfl
  · rw [decode_inf ha, decode_inf hb, if_neg (not_fails_of_infs hf ha hb)]

/-- The quotients of R320. -/
theorem div_special (hf : Regular f) (ha : ¬IsNan f a) (hb : ¬IsNan f b) (mode : Rm) :
    ((IsInf f a ∧ IsInf f b) ∨ (IsZero f a ∧ IsZero f b) → f.div mode a b = (f.canonical, fNV)) ∧
    (IsInf f a → ¬IsInf f b → f.div mode a b = (f.signBits (Claims.negative f a ^^ Claims.negative f b) + f.infBits, 0)) ∧
    (¬IsInf f a → IsInf f b → f.div mode a b = (f.signBits (Claims.negative f a ^^ Claims.negative f b), 0)) ∧
    (Claims.finite f a → ¬IsZero f a → IsZero f b →
      f.div mode a b = (f.signBits (Claims.negative f a ^^ Claims.negative f b) + f.infBits, fDZ)) := by
  rw [FpFormat.div, firstNan_two ha hb]
  rcases finite_or_inf ha with ha | ha <;> rcases finite_or_inf hb with hb | hb
  · obtain ⟨ma, ea, hda, hza⟩ := decode_num ha
    obtain ⟨mb, eb, hdb, hzb⟩ := decode_num hb
    simp only [hda, hdb, ← hza, ← hzb, not_inf_of_finite ha, not_inf_of_finite hb, false_and, false_or, false_imp_iff, not_false_eq_true,
      implies_true, true_and]
    exact ⟨fun h => by rw [if_pos h.2, if_pos h.1], fun _ hna hzb => by rw [if_pos hzb, if_neg hna]⟩
  · obtain ⟨ma, ea, hda, -⟩ := decode_num ha
    have hna := not_inf_of_finite ha
    have hnz := not_zero_of_inf hf hb
    rw [hda, decode_inf hb]
    exact ⟨fun h => h.elim (fun h => absurd h.1 hna) fun h => absurd h.2 hnz, fun h => absurd h hna, fun _ _ => rfl, fun _ _ h => absurd h hnz⟩
  · obtain ⟨mb, eb, hdb, -⟩ := decode_num hb
    have hnb := not_inf_of_finite hb
    rw [hdb, decode_inf ha]
    exact ⟨fun h => h.elim (fun h => absurd h.2 hnb) fun h => absurd h.1 (not_zero_of_inf hf ha), fun _ _ => rfl,
      fun h => absurd ha h, fun h => absurd ha (not_inf_of_finite h)⟩
  · rw [decode_inf ha, decode_inf hb]
    exact ⟨fun _ => rfl, fun _ h => absurd hb h, fun h => absurd ha h, fun _ _ h => absurd h (not_zero_of_inf hf hb)⟩

/-! ## Fused sums -/

/-- Whether the product of a fused sum is invalid, as the model finds it. -/
def productInvalid (f : FpFormat) (a b : ℕ) : Bool :=
  match f.decode a, f.decode b with
  | .num _ m _, .inf _ => m == 0
  | .inf _, .num _ m _ => m == 0
  | _, _ => false

theorem productInvalid_iff (hf : Regular f) (a b : ℕ) : productInvalid f a b = true ↔ Fails f a b := by
  have hnan {x : ℕ} (h : IsNan f x) : ¬IsInf f x ∧ ¬IsZero f x :=
    ⟨fun hi => not_nan_of_inf hi h, fun hz => not_nan_of_finite (finite_of_zero hf hz) h⟩
  unfold productInvalid
  rcases kinds f a with ha | ha | ha <;> rcases kinds f b with hb | hb | hb
  · obtain ⟨ma, ea, hda, -⟩ := decode_num ha
    obtain ⟨mb, eb, hdb, -⟩ := decode_num hb
    simp [hda, hdb, Fails, not_inf_of_finite ha, not_inf_of_finite hb]
  · obtain ⟨ma, ea, hda, hza⟩ := decode_num ha
    simp [hda, decode_inf hb, fails_second hf hb, hza]
  · obtain ⟨ma, ea, hda, -⟩ := decode_num ha
    simp [hda, decode_nan hb, Fails, hnan hb]
  · obtain ⟨mb, eb, hdb, hzb⟩ := decode_num hb
    simp [hdb, decode_inf ha, fails_first hf ha, hzb]
  · simp [decode_inf ha, decode_inf hb, not_fails_of_infs hf ha hb]
  · simp [decode_inf ha, decode_nan hb, Fails, hnan hb]
  · obtain ⟨mb, eb, hdb, -⟩ := decode_num hb
    simp [hdb, decode_nan ha, Fails, hnan ha]
  · simp [decode_nan ha, decode_inf hb, Fails, hnan ha]
  · simp [decode_nan ha, decode_nan hb, Fails, hnan ha]

/-- The flag of a fused sum whose operands hold a NaN, or whose product is invalid. -/
def fmaFlag (f : FpFormat) (a b c : ℕ) : Flg := f.sigFlag [a, b, c] ||| flagIf (productInvalid f a b) fNV

theorem fmaFlag_flagged (hf : Regular f) (a b c : ℕ) : Flagged (IsSig f a ∨ IsSig f b ∨ IsSig f c ∨ Fails f a b) (fmaFlag f a b c) := by
  have h := (sigFlag_flagged (f := f) (l := [a, b, c]) (p := IsSig f a ∨ IsSig f b ∨ IsSig f c) (by simp)).or
    (flagged_flagIf (productInvalid_iff hf a b))
  rwa [or_assoc, or_assoc] at h

theorem fma_nan {r : ℕ} (h : f.firstNan [a, b, c] = some r) (mode : Rm) (np nc : Bool) : f.fma mode np nc a b c = (r, fmaFlag f a b c) := by
  unfold FpFormat.fma
  rw [h]
  rfl

theorem fma_fails (hf : Regular f) (h : f.firstNan [a, b, c] = none) (hfails : Fails f a b) (mode : Rm) (np nc : Bool) :
    f.fma mode np nc a b c = (f.canonical, fNV) := by
  have hbad := (productInvalid_iff hf a b).2 hfails
  have hflag : fmaFlag f a b c = fNV := (fmaFlag_flagged hf a b c).1 (.inr (.inr (.inr hfails)))
  unfold FpFormat.fma
  rw [h]
  exact (if_pos hbad).trans (congrArg _ hflag)

/-- A fused sum whose product is an infinity of sign n, by its addend. -/
def infPlus (f : FpFormat) (n nc : Bool) : Fp → ℕ × Flg
  | .inf sc => if (sc != nc) == n then (f.signBits n + f.infBits, 0) else (f.canonical, fNV)
  | _ => (f.signBits n + f.infBits, 0)

theorem infPlus_eq (hc : ¬IsNan f c) (n nc : Bool) {_ : Decidable (IsInf f c ∧ (Claims.negative f c ^^ nc) ≠ n)} :
    infPlus f n nc (f.decode c) =
      if IsInf f c ∧ (Claims.negative f c ^^ nc) ≠ n then (f.canonical, fNV) else (f.signBits n + f.infBits, 0) := by
  rcases finite_or_inf hc with hc | hc
  · obtain ⟨m, e, hd, -⟩ := decode_num hc
    rw [hd]
    exact (if_neg fun h => not_inf_of_finite hc h.1).symm
  · rw [decode_inf hc, infPlus]
    by_cases hs : (Claims.negative f c ^^ nc) = n
    · rw [if_pos (beq_iff_eq.2 hs), if_neg (fun h => h.2 hs)]
    · rw [if_neg (fun h => hs (beq_iff_eq.1 h)), if_pos ⟨hc, hs⟩]

theorem fma_inf_product (hf : Regular f) (ha : ¬IsNan f a) (hb : ¬IsNan f b) (hc : ¬IsNan f c) (hok : ¬Fails f a b)
    (h : IsInf f a ∨ IsInf f b) (mode : Rm) (np nc : Bool) :
    f.fma mode np nc a b c = infPlus f (Claims.negative f a ^^ Claims.negative f b ^^ np) nc (f.decode c) := by
  have hbad : ¬productInvalid f a b = true := fun h => hok ((productInvalid_iff hf a b).1 h)
  have hnone : f.firstNan [a, b, c] = none := firstNan_none (by simp [ha, hb, hc])
  unfold FpFormat.fma
  rw [hnone]
  refine (if_neg hbad).trans ?_
  rcases finite_or_inf ha with ha | ha <;> rcases finite_or_inf hb with hb | hb
  · exact absurd h (by simp [not_inf_of_finite ha, not_inf_of_finite hb])
  · obtain ⟨m, e, hd, -⟩ := decode_num ha
    rw [hd, decode_inf hb]
    cases f.decode c <;> rfl
  · obtain ⟨m, e, hd, -⟩ := decode_num hb
    rw [hd, decode_inf ha]
    cases f.decode c <;> rfl
  · rw [decode_inf ha, decode_inf hb]
    cases f.decode c <;> rfl

theorem fma_inf_addend (ha : Claims.finite f a) (hb : Claims.finite f b) (hc : IsInf f c) (mode : Rm) (np nc : Bool) :
    f.fma mode np nc a b c = (f.signBits (Claims.negative f c ^^ nc) + f.infBits, 0) := by
  obtain ⟨ma, ea, hda, -⟩ := decode_num ha
  obtain ⟨mb, eb, hdb, -⟩ := decode_num hb
  have hnone : f.firstNan [a, b, c] = none :=
    firstNan_none (by simp [not_nan_of_finite ha, not_nan_of_finite hb, not_nan_of_inf hc])
  rw [FpFormat.fma, hnone, hda, hdb, decode_inf hc]
  rfl

end Sys2Proof.Rounding
end

section
/-!
SUPPORT. The order of patterns: minima, maxima and compares (12 R302, R304).
-/

namespace Sys2Proof.Rounding

open Sys2Proof Sys2Proof.Machine

variable {f : FpFormat} {a b : ℕ}

/-! ## Keys -/

/-- A pattern of the format's width. -/
def IsPattern (f : FpFormat) (a : ℕ) : Prop := a < 2 ^ (f.ebits + f.fbits + 1)

theorem negative_eq (h : IsPattern f a) : Claims.negative f a = decide (2 ^ (f.ebits + f.fbits) ≤ a) := by
  rw [IsPattern, Nat.pow_succ] at h
  rw [Claims.negative, Nat.testBit_eq_decide_div_mod_eq, decide_eq_decide]
  have hpos : 0 < 2 ^ (f.ebits + f.fbits) := Nat.two_pow_pos _
  rw [Nat.mod_eq_of_lt (Nat.div_lt_of_lt_mul h), Nat.div_eq_iff hpos]
  omega

/-- A pattern is its sign and its magnitude. -/
theorem pattern_eq (h : IsPattern f a) : a = f.signBits (Claims.negative f a) + magOf f a := by
  rw [negative_eq h, signBits_eq, magOf]
  rw [IsPattern, Nat.pow_succ] at h
  by_cases hle : 2 ^ (f.ebits + f.fbits) ≤ a
  · rw [if_pos (decide_eq_true hle), Nat.mod_eq_sub_mod hle, Nat.mod_eq_of_lt (by omega)]
    omega
  · rw [if_neg (by simpa using hle), Nat.mod_eq_of_lt (by omega), Nat.zero_add]

theorem key_eq (f : FpFormat) (a : ℕ) : f.key a = if Claims.negative f a = true then -(magOf f a : ℤ) - 1 else magOf f a := rfl

/-- The key tells patterns apart. -/
theorem key_injective (ha : IsPattern f a) (hb : IsPattern f b) (h : f.key a = f.key b) : a = b := by
  rw [pattern_eq ha, pattern_eq hb]
  rw [key_eq, key_eq] at h
  cases hna : Claims.negative f a <;> cases hnb : Claims.negative f b <;> simp only [hna, hnb, if_true, if_false, Bool.false_eq_true] at h
  · rw [Nat.cast_inj.1 h]
  · omega
  · omega
  · rw [show magOf f a = magOf f b by omega]

/-- Values follow the keys, but for the two zeros. -/
theorem real_lt_iff (f : FpFormat) (a b : ℕ) : Claims.real f a < Claims.real f b ↔ f.key a < f.key b ∧ ¬(IsZero f a ∧ IsZero f b) := by
  have hmono := (value_strictMono f).lt_iff_lt (a := magOf f b) (b := magOf f a)
  have hmono' := (value_strictMono f).lt_iff_lt (a := magOf f a) (b := magOf f b)
  have hpos (k : ℕ) := value_nonneg f k
  rw [← Rat.cast_lt (K := ℝ), real_cast, real_cast, key_eq, key_eq, IsZero, IsZero]
  cases Claims.negative f a <;> cases Claims.negative f b <;> simp only [sgn, if_true, if_false, Bool.false_eq_true, one_mul, neg_one_mul]
  · rw [hmono']
    omega
  · have := hpos (magOf f a)
    have := hpos (magOf f b)
    exact ⟨fun h => by linarith, fun h => by omega⟩
  · have : -value f (magOf f a) < value f (magOf f b) ↔ ¬(magOf f a = 0 ∧ magOf f b = 0) := by
      have ha := hpos (magOf f a)
      have hb := hpos (magOf f b)
      rw [← value_eq_zero_iff (f := f), ← value_eq_zero_iff (f := f)]
      constructor
      · rintro h ⟨h1, h2⟩
        linarith
      · intro h
        by_contra hle
        exact h ⟨by linarith, by linarith⟩
    rw [this]
    omega
  · rw [neg_lt_neg_iff, hmono]
    omega

/-- Equal nonzero values are equal patterns. -/
theorem eq_of_real_eq (ha : IsPattern f a) (hb : IsPattern f b) (h : Claims.real f a = Claims.real f b) (h0 : ¬IsZero f a) : a = b := by
  have h1 := fun hlt => (real_lt_iff f a b).not.1 h.not_lt ⟨hlt, fun h => h0 h.1⟩
  have h2 := fun hlt => (real_lt_iff f b a).not.1 h.not_gt ⟨hlt, fun h => h0 h.2⟩
  exact key_injective ha hb (le_antisymm (not_lt.1 h2) (not_lt.1 h1))

/-! ## The order -/

def Below (f : FpFormat) (x y : ℕ) : Prop := (IsInf f x ∧ Claims.negative f x = true ∧ x ≠ y) ∨ (IsInf f y ∧ Claims.negative f y = false ∧ x ≠ y) ∨
  (Claims.finite f x ∧ Claims.finite f y ∧ Claims.real f x < Claims.real f y)

def Before (f : FpFormat) (x y : ℕ) : Prop :=
  Below f x y ∨ (IsZero f x ∧ IsZero f y ∧ Claims.negative f x = true ∧ Claims.negative f y = false)

/-- The order by value, infinities at its ends, is that of the keys but for the two zeros. -/
theorem below_iff (hf : Regular f) (hpa : IsPattern f a) (hpb : IsPattern f b) (ha : ¬IsNan f a) (hb : ¬IsNan f b) :
    Below f a b ↔ f.key a < f.key b ∧ ¬(IsZero f a ∧ IsZero f b) := by
  have hinf := infBits_pos hf
  have hne : a ≠ b ↔ f.key a ≠ f.key b := ⟨fun h hk => h (key_injective hpa hpb hk), fun h hab => h (hab ▸ rfl)⟩
  rw [Below, real_lt_iff, hne, key_eq, key_eq]
  clear hne
  unfold IsNan at ha hb
  unfold IsInf IsZero Claims.finite
  rw [← magOf, ← magOf]
  cases Claims.negative f a <;> cases Claims.negative f b <;> simp only [if_true, if_false, Bool.false_eq_true, reduceCtorEq,
    true_and, false_and, and_false, false_or] <;> omega

theorem key_lt_of_before (hf : Regular f) (hpa : IsPattern f a) (hpb : IsPattern f b) (ha : ¬IsNan f a) (hb : ¬IsNan f b)
    (h : Before f a b) : f.key a < f.key b := by
  rcases h with h | ⟨hza, hzb, hna, hnb⟩
  · exact ((below_iff hf hpa hpb ha hb).1 h).1
  · rw [IsZero] at hza hzb
    rw [key_eq, key_eq, hna, hnb, hza, hzb]
    decide

/-! ## Minima and maxima -/

/-- The lesser or the greater of two patterns by their keys. -/
def pick (f : FpFormat) (most : Bool) (a b : ℕ) : ℕ := if decide (f.key a < f.key b) == most then b else a

theorem minmax_pick (ha : ¬IsNan f a) (hb : ¬IsNan f b) (most : Bool) : f.minmax most a b = (pick f most a b, 0) := by
  rw [FpFormat.minmax, firstNan_two ha hb]
  rfl

theorem minmaxNum_pick (ha : ¬IsNan f a) (hb : ¬IsNan f b) (most : Bool) : f.minmaxNum most a b = (pick f most a b, 0) := by
  rw [FpFormat.minmaxNum, isNan_eq_false ha, isNan_eq_false hb]
  rfl

theorem pick_of_lt (h : f.key a < f.key b) : pick f false a b = a ∧ pick f true a b = b := by simp [pick, h]
theorem pick_of_gt (h : f.key b < f.key a) : pick f false a b = b ∧ pick f true a b = a := by simp [pick, h.le]

/-- A word that picks by the keys gives the lesser and the greater operand, −0 below +0. -/
theorem pick_orders (hf : Regular f) (hpa : IsPattern f a) (hpb : IsPattern f b) (ha : ¬IsNan f a) (hb : ¬IsNan f b)
    {g : Bool → ℕ → ℕ → ℕ × Flg} (hg : ∀ most, g most a b = (pick f most a b, 0)) :
    (Before f a b → g false a b = (a, 0) ∧ g true a b = (b, 0)) ∧ (Before f b a → g false a b = (b, 0) ∧ g true a b = (a, 0)) ∧
    (a = b → g false a b = (a, 0) ∧ g true a b = (a, 0)) := by
  rw [hg, hg]
  refine ⟨fun h => ?_, fun h => ?_, fun h => by simp [pick, ← h]⟩
  · have := pick_of_lt (key_lt_of_before hf hpa hpb ha hb h)
    rw [this.1, this.2]
    exact ⟨rfl, rfl⟩
  · have := pick_of_gt (key_lt_of_before hf hpb hpa hb ha h)
    rw [this.1, this.2]
    exact ⟨rfl, rfl⟩

/-- The Number forms give the operand that is no NaN. -/
theorem minmaxNum_nan (f : FpFormat) (most : Bool) (a b : ℕ) :
    (IsNan f a → ¬IsNan f b → (f.minmaxNum most a b).1 = b) ∧ (¬IsNan f a → IsNan f b → (f.minmaxNum most a b).1 = a) ∧
    (IsNan f a → IsNan f b → (f.minmaxNum most a b).1 = f.quiet a) ∧
    (IsNan f a ∨ IsNan f b → Flagged (IsSig f a ∨ IsSig f b) (f.minmaxNum most a b).2) := by
  have hflag := sigFlag_two f a b
  unfold FpFormat.minmaxNum
  by_cases ha : IsNan f a <;> by_cases hb : IsNan f b
  · simp [(isNan_iff f a).2 ha, (isNan_iff f b).2 hb, ha, hb, hflag]
  · simp [(isNan_iff f a).2 ha, isNan_eq_false hb, ha, hb, hflag]
  · simp [isNan_eq_false ha, (isNan_iff f b).2 hb, ha, hb, hflag]
  · simp [ha, hb]

/-! ## Compares -/

theorem unordered_iff (f : FpFormat) (a b : ℕ) : (f.isNan a || f.isNan b) = true ↔ ¬(¬IsNan f a ∧ ¬IsNan f b) := by
  rw [Bool.or_eq_true, isNan_iff, isNan_iff]
  tauto

theorem ordered_and_iff {p : Bool} {q : Prop} (h : ¬IsNan f a → ¬IsNan f b → (p = true ↔ q)) :
    (!(f.isNan a || f.isNan b) && p) = true ↔ (¬IsNan f a ∧ ¬IsNan f b) ∧ q := by
  have hun := unordered_iff f a b
  rw [Bool.and_eq_true, Bool.not_eq_true', ← Bool.not_eq_true, hun, not_not]
  exact and_congr_right fun hn => h hn.1 hn.2

def Equal (f : FpFormat) (x y : ℕ) : Prop := x = y ∨ (IsZero f x ∧ IsZero f y)

theorem same_iff (f : FpFormat) (a b : ℕ) : f.same a b = true ↔ Equal f a b := by
  simp [FpFormat.same, FpFormat.isZero, Equal, IsZero, magOf]

theorem less_iff (hf : Regular f) (hpa : IsPattern f a) (hpb : IsPattern f b) (ha : ¬IsNan f a) (hb : ¬IsNan f b) :
    f.less a b = true ↔ Below f a b := by
  rw [below_iff hf hpa hpb ha hb]
  simp only [FpFormat.less, FpFormat.isZero, IsZero, magOf, Bool.and_eq_true, decide_eq_true_eq, Bool.not_eq_true', Bool.and_eq_false_iff,
    beq_eq_false_iff_ne, not_and_or]

/-- Compares go by value, +0 equal to −0; with a NaN only the unordered one holds. -/
theorem cmp_orders (hf : Regular f) (hpa : IsPattern f a) (hpb : IsPattern f b) :
    ((f.cmp .eq a b).1 = true ↔ (¬IsNan f a ∧ ¬IsNan f b) ∧ Equal f a b) ∧
    ((f.cmp .lt a b).1 = true ↔ (¬IsNan f a ∧ ¬IsNan f b) ∧ Below f a b) ∧
    ((f.cmp .le a b).1 = true ↔ (¬IsNan f a ∧ ¬IsNan f b) ∧ (Below f a b ∨ Equal f a b)) ∧
    ((f.cmp .un a b).1 = true ↔ ¬(¬IsNan f a ∧ ¬IsNan f b)) := by
  refine ⟨ordered_and_iff fun _ _ => same_iff f a b, ordered_and_iff fun ha hb => less_iff hf hpa hpb ha hb,
    ordered_and_iff fun ha hb => ?_, unordered_iff f a b⟩
  rw [Bool.or_eq_true, less_iff hf hpa hpb ha hb, same_iff]

/-- The quiet compares flag signalling NaNs, the others every NaN. -/
theorem cmp_flags (f : FpFormat) (a b : ℕ) : (∀ k ∈ [FCmp.eq, .un], Flagged (IsSig f a ∨ IsSig f b) (f.cmp k a b).2) ∧
    ∀ k ∈ [FCmp.lt, .le], Flagged (¬(¬IsNan f a ∧ ¬IsNan f b)) (f.cmp k a b).2 := by
  have hsig := sigFlag_two f a b
  have hnan := flagged_flagIf (unordered_iff f a b)
  simp only [List.forall_mem_cons, List.not_mem_nil, false_imp_iff, implies_true, and_true]
  exact ⟨⟨hsig, hsig⟩, hnan, hnan⟩

end Sys2Proof.Rounding
end

section
/-!
SUPPORT. Special operands of the words of one operand and of the conversions (08 R184, R185; 12 R305, R306, R309, R320).
-/

namespace Sys2Proof.Rounding

open Sys2Proof Sys2Proof.Machine

variable {f g : FpFormat} {mode : Rm} {a b m : ℕ} {e : ℤ}

/-! ## Words of one operand -/

/-- What a word of one operand gives at a NaN. -/
def QuietResult (f : FpFormat) (a : ℕ) (r : ℕ × Flg) : Prop := r.1 = f.quiet a ∧ Flagged (IsSig f a) r.2

theorem quietResult {r : ℕ × Flg} (h : r = (f.quiet a, f.sigFlag [a])) : QuietResult f a r := h ▸ ⟨rfl, sigFlag_one f a⟩

theorem rint_nan (h : IsNan f a) (mode : Rm) : QuietResult f a (f.rint mode a) := quietResult (by rw [FpFormat.rint, decode_nan h])
theorem func_nan (h : IsNan f a) (fn : Fn) (mode : Rm) : QuietResult f a (f.func fn mode a) := quietResult (by rw [FpFormat.func, decode_nan h])
theorem scalb_nan (h : IsNan f a) (mode : Rm) (n : ℤ) : QuietResult f a (f.scalb mode a n) := quietResult (by rw [FpFormat.scalb, decode_nan h])

theorem rint_inf (h : IsInf f a) (mode : Rm) : f.rint mode a = (a, 0) := by rw [FpFormat.rint, decode_inf h]
theorem scalb_inf (h : IsInf f a) (mode : Rm) (n : ℤ) : f.scalb mode a n = (a, 0) := by rw [FpFormat.scalb, decode_inf h]
theorem func_inf (h : IsInf f a) (fn : Fn) (mode : Rm) : f.func fn mode a = f.atInf fn (Claims.negative f a) := by
  rw [FpFormat.func, decode_inf h]

theorem func_zero (hf : Regular f) (h : IsZero f a) (fn : Fn) (mode : Rm) : f.func fn mode a = f.atZero fn (Claims.negative f a) := by
  obtain ⟨m, e, hd, hm⟩ := decode_num (finite_of_zero hf h)
  rw [FpFormat.func, hd]
  exact if_pos (hm.2 h)

/-- A row of the table of R320: the results at −inf, −0, +0 and +inf. -/
def TableRow (f : FpFormat) (q : Fn × (ℕ × Flg) × (ℕ × Flg) × (ℕ × Flg) × (ℕ × Flg)) : Prop :=
  q.2 = (f.atInf q.1 true, f.atZero q.1 true, f.atZero q.1 false, f.atInf q.1 false)

theorem func_tableRow (hf : Regular f) {q : Fn × (ℕ × Flg) × (ℕ × Flg) × (ℕ × Flg) × (ℕ × Flg)} (hq : TableRow f q) (mode : Rm) (a : ℕ) :
    (IsInf f a → f.func q.1 mode a = if Claims.negative f a then q.2.1 else q.2.2.2.2) ∧
    (IsZero f a → f.func q.1 mode a = if Claims.negative f a then q.2.2.1 else q.2.2.2.1) := by
  rw [hq]
  refine ⟨fun h => ?_, fun h => ?_⟩
  · rw [func_inf h]
    cases Claims.negative f a <;> rfl
  · rw [func_zero hf h]
    cases Claims.negative f a <;> rfl

/-! ## Domains of the functions -/

theorem value_one (hf : Regular f) : value f f.one = 1 := by
  have hb : 1 ≤ f.bias := by
    have : 2 ^ 1 ≤ 2 ^ (f.ebits - 1) := Nat.pow_le_pow_right two_pos (by have := hf.exp; omega)
    rw [FpFormat.bias]
    omega
  have hle : 2 ^ f.fbits ≤ 2 ^ f.prec := Nat.pow_le_pow_right two_pos (Nat.le_succ _)
  rw [FpFormat.one, show f.bias * 2 ^ f.fbits = (f.bias - 1) * 2 ^ f.fbits + 2 ^ f.fbits by
      rw [← Nat.succ_mul, Nat.succ_eq_add_one, Nat.sub_add_cancel hb],
    value_binade (.inr le_rfl) hle, Nat.cast_pow, Nat.cast_ofNat, ← zpow_natCast, ← zpow_add₀ two_ne_zero, FpFormat.qmin, Nat.cast_sub hb]
  exact (congrArg _ (by push_cast; ring)).trans (zpow_zero _)

theorem one_lt_infBits (hf : Regular f) : f.one < f.infBits := by
  have h2 : 2 ≤ 2 ^ (f.ebits - 1) := Nat.pow_le_pow_right (n := 2) (i := 1) two_pos (by have := hf.exp; omega)
  have hsplit : 2 ^ f.ebits = 2 ^ (f.ebits - 1) + 2 ^ (f.ebits - 1) := by
    rw [← Nat.two_mul, ← Nat.pow_succ', Nat.succ_eq_add_one, Nat.sub_add_cancel (by have := hf.exp; omega)]
  rw [FpFormat.one, FpFormat.infBits, FpFormat.bias]
  exact Nat.mul_lt_mul_of_pos_right (by omega) (Nat.two_pow_pos _)

theorem infBits_lt (f : FpFormat) : f.infBits < 2 ^ (f.ebits + f.fbits) := by
  rw [FpFormat.infBits, Nat.pow_add]
  exact Nat.mul_lt_mul_of_pos_right (Nat.sub_lt (Nat.two_pow_pos _) one_pos) (Nat.two_pow_pos _)

/-- A magnitude under a sign is a pattern of that sign and magnitude. -/
theorem signed_pattern (neg : Bool) (h : m < 2 ^ (f.ebits + f.fbits)) :
    IsPattern f (f.signBits neg + m) ∧ Claims.negative f (f.signBits neg + m) = neg ∧ magOf f (f.signBits neg + m) = m := by
  have hp : IsPattern f (f.signBits neg + m) := by
    rw [IsPattern, signBits_eq, Nat.pow_succ]
    split <;> omega
  exact ⟨hp, negative_signed neg h, magOf_signed neg h⟩

/-- ±1. -/
theorem signed_one (hf : Regular f) (neg : Bool) : IsPattern f (f.signBits neg + f.one) ∧ ¬IsZero f (f.signBits neg + f.one) ∧
    (Claims.real f (f.signBits neg + f.one) : ℝ) = sgn neg := by
  obtain ⟨hp, hneg, hmag⟩ := signed_pattern neg ((one_lt_infBits hf).trans (infBits_lt f))
  refine ⟨hp, fun hz => ?_, by rw [real_cast, hneg, hmag, value_one hf, mul_one]⟩
  rw [IsZero, hmag] at hz
  have := value_one hf
  rw [hz, value_zero] at this
  exact zero_ne_one this

theorem eq_signed_one (hf : Regular f) (hp : IsPattern f a) (neg : Bool) (h : (Claims.real f a : ℝ) = sgn neg) : a = f.signBits neg + f.one := by
  obtain ⟨hone, hnz, hval⟩ := signed_one hf neg
  exact (eq_of_real_eq hone hp (Rat.cast_injective (α := ℝ) (hval.trans h.symm)) hnz).symm

/-- A negative number: its sign is set and its significand is not zero. -/
theorem decode_negative (h : Claims.finite f a) (hlt : Claims.real f a < 0) : Claims.negative f a = true ∧ ∃ m e, m ≠ 0 ∧ f.decode a = .num true m e := by
  obtain ⟨m, e, hd, -, hv⟩ := decode_real h
  have hlt' : (Claims.real f a : ℝ) < 0 := by exact_mod_cast hlt
  have hneg : Claims.negative f a = true := by
    by_contra hne
    rw [real_cast, Bool.eq_false_iff.2 hne, sgn, if_neg Bool.false_ne_true, one_mul] at hlt'
    exact absurd (value_nonneg f (magOf f a)) (not_le.2 hlt')
  refine ⟨hneg, m, e, fun hm => ?_, hneg ▸ hd⟩
  rw [hv, (signed_eq_zero_iff _ _ _).2 hm] at hlt'
  exact lt_irrefl _ hlt'

theorem func_negative (h : Claims.finite f a) (hlt : Claims.real f a < 0) (mode : Rm) :
    ∀ fn ∈ [Fn.log, .log2, .sqrt, .rsqrt], f.func fn mode a = (f.canonical, fNV) := by
  obtain ⟨-, m, e, hm, hd⟩ := decode_negative h hlt
  simp [FpFormat.func, hd, hm]

/-- LOG1P below −1 and at −1. -/
theorem log1p_below (hf : Regular f) (h : Claims.finite f a) (hlt : Claims.real f a < -1) (mode : Rm) :
    f.func .log1p mode a = (f.canonical, fNV) := by
  obtain ⟨-, m, e, hm, hd⟩ := decode_negative h (hlt.trans (by norm_num))
  obtain ⟨-, -, hval⟩ := signed_one hf true
  have hone : Claims.real f (f.signBits true + f.one) = -1 :=
    Rat.cast_injective (α := ℝ) (hval.trans (by simp [sgn]))
  have hkey := ((real_lt_iff f a (f.signBits true + f.one)).1 (by rwa [hone])).1
  have hne : a ≠ f.signBits true + f.one := fun heq => by rw [← heq] at hkey; exact lt_irrefl _ hkey
  simp [FpFormat.func, hd, hm, hkey, hne]

theorem log1p_minus_one (hf : Regular f) (hp : IsPattern f a) (h : Claims.finite f a) (heq : Claims.real f a = -1) (mode : Rm) :
    f.func .log1p mode a = (f.signBits true + f.infBits, fDZ) := by
  obtain ⟨-, m, e, hm, hd⟩ := decode_negative h (by rw [heq]; norm_num)
  have ha := eq_signed_one hf hp true (by rw [heq]; simp [sgn])
  rw [FpFormat.func, hd]
  simp [hm, ← ha]

theorem logs_one (hf : Regular f) (hp : IsPattern f a) (h : Claims.finite f a) (heq : Claims.real f a = 1) (mode : Rm) :
    f.func .log mode a = (0, 0) ∧ f.func .log2 mode a = (0, 0) := by
  obtain ⟨m, e, hd, -, hv⟩ := decode_real h
  have ha : a = f.one := by rw [eq_signed_one hf hp false (by rw [heq]; simp [sgn])]; simp [signBits_eq]
  have hneg : Claims.negative f a = false := by
    have := (signed_pattern (f := f) false ((one_lt_infBits hf).trans (infBits_lt f))).2.1
    rwa [signBits_eq, if_neg Bool.false_ne_true, Nat.zero_add, ← ha] at this
  have hm : m ≠ 0 := by
    intro h0
    rw [heq, (signed_eq_zero_iff _ _ _).2 h0] at hv
    norm_num at hv
  rw [FpFormat.func, FpFormat.func, hd, hneg]
  simp [hm, ← ha]

/-! ## Conversions -/

theorem convert_inf (h : IsInf g a) (mode : Rm) : f.convert g mode a = (f.signBits (Claims.negative g a) + f.infBits, 0) := by
  rw [FpFormat.convert, decode_inf h]

/-- The payload of a converted NaN, narrowed or widened. -/
theorem payload_eq (p q r : ℕ) : (if p ≤ q then r / 2 ^ (q - p) else r * 2 ^ (p - q)) = r * 2 ^ p / 2 ^ q := by
  split
  · next h =>
    conv_rhs => rw [← Nat.sub_add_cancel h, Nat.pow_add]
    rw [Nat.mul_div_mul_right _ _ (Nat.two_pow_pos _)]
  · next h =>
    conv_rhs => rw [← Nat.sub_add_cancel (le_of_not_ge h), Nat.pow_add, ← Nat.mul_assoc]
    rw [Nat.mul_div_cancel _ (Nat.two_pow_pos _)]

theorem quiet_payload (hf : 1 ≤ f.fbits) {r : ℕ} (h : r < 2 ^ f.fbits) : f.quiet (f.infBits + r) = f.infBits + (r ||| 2 ^ (f.fbits - 1)) := by
  have hq : 2 ^ (f.fbits - 1) < 2 ^ f.fbits := Nat.pow_lt_pow_right one_lt_two (by omega)
  rw [FpFormat.quiet, FpFormat.quietBit, FpFormat.infBits, Nat.mul_comm, Nat.two_pow_add_eq_or_of_lt h, Nat.or_assoc,
    ← Nat.two_pow_add_eq_or_of_lt (Nat.or_lt_two_pow h hq)]

/-- A converted NaN keeps its sign and payload, quieted (08 R184). -/
theorem convert_nan (hf : 1 ≤ f.fbits) (h : IsNan g a) (mode : Rm) : Flagged (IsSig g a) (f.convert g mode a).2 ∧
    (f.convert g mode a).1 = f.signBits (Claims.negative g a) + f.infBits + ((a % 2 ^ g.fbits * 2 ^ f.fbits / 2 ^ g.fbits) ||| 2 ^ (f.fbits - 1)) := by
  have hlt : a % 2 ^ g.fbits * 2 ^ f.fbits / 2 ^ g.fbits < 2 ^ f.fbits :=
    Nat.div_lt_of_lt_mul (Nat.mul_lt_mul_of_pos_right (frac_lt g a) (Nat.two_pow_pos _))
  rw [FpFormat.convert, decode_nan h]
  dsimp only
  rw [payload_eq, quiet_payload hf hlt, Nat.add_assoc]
  exact ⟨sigFlag_one g a, rfl⟩

theorem fp32ToInt_nan (h : IsNan fp32F a) (mode : Rm) : fp32ToInt mode a = (0, fNV) := by rw [fp32ToInt, decode_nan h]
theorem fp32ToInt_inf (h : IsInf fp32F a) (mode : Rm) :
    fp32ToInt mode a = (if Claims.negative fp32F a then 0x80000000 else 0x7FFFFFFF, fNV) := by rw [fp32ToInt, decode_inf h]

/-! ## FP8 -/

/-- The sign bit of an FP8 byte. -/
def lowSign (neg : Bool) : ℕ := if neg then 0x80 else 0

/-- The FP8 form of an FP32 NaN. -/
def fp8OfNan (e5 : Bool) (x : ℕ) : ℕ := lowSign (Claims.negative fp32F x) + if e5 then 0x7C + (x % 2 ^ 23 / 2 ^ 21 ||| 2) else 0x7F

theorem fp8Nan_eq (h : IsNan fp32F a) (e5 : Bool) : fp8Nan e5 a = fp8OfNan e5 a := by
  cases e5
  · rfl
  · have hpay : a % 2 ^ 23 * 2 ^ 2 / 2 ^ 23 = a % 2 ^ 23 / 2 ^ 21 := by omega
    have hc := (convert_nan (f := e5m2F) (g := fp32F) (by decide) h .rne).2
    rw [show a % 2 ^ fp32F.fbits * 2 ^ e5m2F.fbits / 2 ^ fp32F.fbits = a % 2 ^ 23 / 2 ^ 21 from hpay] at hc
    rw [fp8Nan, if_pos rfl, hc, fp8OfNan, if_pos rfl, Nat.add_assoc]
    rfl

/-- A quieted pattern keeps its sign; its fraction gains the quiet bit. -/
theorem quiet_fp32 (a : ℕ) : Claims.negative fp32F (fp32F.quiet a) = Claims.negative fp32F a ∧
    fp32F.quiet a % 2 ^ 23 / 2 ^ 21 = (a % 2 ^ 23 / 2 ^ 21) ||| 2 := by
  refine ⟨?_, ?_⟩
  · show (a ||| 2 ^ 22).testBit 31 = a.testBit 31
    rw [Nat.testBit_or, Nat.testBit_two_pow_of_ne (by decide), Bool.or_false]
  · show (a ||| 2 ^ 22) % 2 ^ 23 / 2 ^ 21 = (a % 2 ^ 23 / 2 ^ 21) ||| 2
    rw [Nat.or_mod_two_pow, Nat.or_div_two_pow]
    rfl

theorem isNan_quiet (h : IsNan fp32F a) : IsNan fp32F (fp32F.quiet a) := by
  have hle : magOf fp32F a ≤ magOf fp32F (fp32F.quiet a) := by
    show a % 2 ^ 31 ≤ (a ||| 2 ^ 22) % 2 ^ 31
    rw [Nat.or_mod_two_pow]
    exact Nat.left_le_or
  exact lt_of_lt_of_le h hle

theorem fp8Nan_quiet (h : IsNan fp32F a) (e5 : Bool) : fp8Nan e5 (fp32F.quiet a) = fp8OfNan e5 a := by
  rw [fp8Nan_eq (isNan_quiet h), fp8OfNan, fp8OfNan, (quiet_fp32 a).1, (quiet_fp32 a).2, Nat.or_assoc, Nat.or_self]

/-- The FP8 form of an infinity. -/
def fp8OfInf (e5 sat neg : Bool) : ℕ × Flg := if sat then (lowSign neg + (if e5 then 0x7B else 0x7E), fSAT)
  else if e5 then (lowSign neg + 0x7C, 0) else (lowSign neg + 0x7F, fNV)

theorem fp8Number_zero (e5 sat neg : Bool) (e : ℤ) : fp8Number e5 sat neg 0 e = (lowSign neg, 0) := by cases e5 <;> rfl

theorem fp32ToFp8_nan (h : IsNan fp32F a) (e5 sat : Bool) :
    (fp32ToFp8 e5 sat a).1 = fp8OfNan e5 a ∧ Flagged (IsSig fp32F a) (fp32ToFp8 e5 sat a).2 := by
  rw [fp32ToFp8, decode_nan h]
  exact ⟨fp8Nan_eq h e5, sigFlag_one fp32F a⟩

theorem fp32ToFp8_inf (h : IsInf fp32F a) (e5 sat : Bool) : fp32ToFp8 e5 sat a = fp8OfInf e5 sat (Claims.negative fp32F a) := by
  rw [fp32ToFp8, decode_inf h]
  rfl

theorem fp32ToFp8_zero (h : IsZero fp32F a) (e5 sat : Bool) : fp32ToFp8 e5 sat a = (lowSign (Claims.negative fp32F a), 0) := by
  obtain ⟨m, e, hd, hm⟩ := decode_num (finite_of_zero regular_fp32F h)
  rw [fp32ToFp8, hd, hm.2 h]
  exact fp8Number_zero e5 sat _ e

theorem mulToFp8_nan (e5 sat : Bool) (a b : ℕ) : (IsNan fp32F a → (mulToFp8 e5 sat a b).1 = fp8OfNan e5 a) ∧
    (¬IsNan fp32F a → IsNan fp32F b → (mulToFp8 e5 sat a b).1 = fp8OfNan e5 b) ∧
    (IsNan fp32F a ∨ IsNan fp32F b → Flagged (IsSig fp32F a ∨ IsSig fp32F b) (mulToFp8 e5 sat a b).2) := by
  have hsome {r : ℕ} (h : fp32F.firstNan [a, b] = some r) : mulToFp8 e5 sat a b = (fp8Nan e5 r, fp32F.sigFlag [a, b]) := by
    rw [mulToFp8, h]
  refine ⟨fun ha => ?_, fun ha hb => ?_, fun h => ?_⟩
  · rw [hsome (firstNan_first _ ha), fp8Nan_quiet ha]
  · rw [hsome (firstNan_second _ ha hb), fp8Nan_quiet hb]
  · by_cases ha : IsNan fp32F a
    · rw [hsome (firstNan_first _ ha)]
      exact sigFlag_two fp32F a b
    · rw [hsome (firstNan_second _ ha (h.resolve_left ha))]
      exact sigFlag_two fp32F a b

theorem fp8Nan_canonical (e5 : Bool) : fp8Nan e5 fp32F.canonical = if e5 then 0x7E else 0x7F := by cases e5 <;> decide

/-- The products with an infinity. -/
theorem mulToFp8_inf (ha : ¬IsNan fp32F a) (hb : ¬IsNan fp32F b) (h : IsInf fp32F a ∨ IsInf fp32F b) (e5 sat : Bool) [Decidable (Fails fp32F a b)] :
    mulToFp8 e5 sat a b = if Fails fp32F a b then (if e5 then 0x7E else 0x7F, fNV)
      else fp8OfInf e5 sat (Claims.negative fp32F a ^^ Claims.negative fp32F b) := by
  rw [mulToFp8, firstNan_two ha hb, fp8Nan_canonical]
  rcases finite_or_inf ha with ha | ha <;> rcases finite_or_inf hb with hb | hb
  · exact absurd h (by simp [not_inf_of_finite ha, not_inf_of_finite hb])
  · obtain ⟨m, e, hd, hz⟩ := decode_num ha
    rw [hd, decode_inf hb]
    exact if_congr (hz.trans (fails_second regular_fp32F hb).symm) rfl rfl
  · obtain ⟨m, e, hd, hz⟩ := decode_num hb
    rw [hd, decode_inf ha]
    exact if_congr (hz.trans (fails_first regular_fp32F ha).symm) rfl rfl
  · rw [decode_inf ha, decode_inf hb, if_neg (not_fails_of_infs regular_fp32F ha hb)]
    rfl

theorem mulToFp8_zero (ha : Claims.finite fp32F a) (hb : Claims.finite fp32F b) (h : IsZero fp32F a ∨ IsZero fp32F b) (e5 sat : Bool) :
    mulToFp8 e5 sat a b = (lowSign (Claims.negative fp32F a ^^ Claims.negative fp32F b), 0) := by
  obtain ⟨ma, ea, hda, hma⟩ := decode_num ha
  obtain ⟨mb, eb, hdb, hmb⟩ := decode_num hb
  have hm : ma * mb = 0 := Nat.mul_eq_zero.2 (h.imp hma.2 hmb.2)
  rw [mulToFp8, firstNan_two (not_nan_of_finite ha) (not_nan_of_finite hb), hda, hdb]
  dsimp only
  rw [hm]
  exact fp8Number_zero e5 sat _ _

end Sys2Proof.Rounding
end

section
/-!
SUPPORT. Every float result is the exact value rounded once, or that of the table of its special operands (08 R182-R185; 12 R297-R320).
The proof that settles O60.
-/

namespace Sys2Proof.Rounding

open Sys2Proof Sys2Proof.Machine

variable {f g : FpFormat} {mode : Rm} {a b c : ℕ}

/-- The fused sums at NaNs: the quiet form of the first, and NV for a signalling one or an invalid product. -/
theorem fma_nans (hf : Regular f) (mode : Rm) (np nc : Bool) (a b c : ℕ) :
    (IsNan f a → (f.fma mode np nc a b c).1 = f.quiet a) ∧ (¬IsNan f a → IsNan f b → (f.fma mode np nc a b c).1 = f.quiet b) ∧
    (¬IsNan f a ∧ ¬IsNan f b → IsNan f c → (f.fma mode np nc a b c).1 = f.quiet c) ∧
    (IsNan f a ∨ IsNan f b ∨ IsNan f c →
      Flagged (IsSig f a ∨ IsSig f b ∨ IsSig f c ∨ Fails f a b) (f.fma mode np nc a b c).2) := by
  have hthird (hn : ¬IsNan f a ∧ ¬IsNan f b) (hc : IsNan f c) : f.firstNan [a, b, c] = some (f.quiet c) :=
    firstNan_some (l := [a, b]) (by simpa using hn) hc
  have hflag {r : ℕ} (h : f.firstNan [a, b, c] = some r) :
      Flagged (IsSig f a ∨ IsSig f b ∨ IsSig f c ∨ Fails f a b) (f.fma mode np nc a b c).2 := by
    rw [fma_nan h]
    exact fmaFlag_flagged hf a b c
  refine ⟨fun ha => by rw [fma_nan (firstNan_first _ ha)], fun ha hb => by rw [fma_nan (firstNan_second _ ha hb)],
    fun hn hc => by rw [fma_nan (hthird hn hc)], fun h => ?_⟩
  by_cases ha : IsNan f a
  · exact hflag (firstNan_first _ ha)
  · by_cases hb : IsNan f b
    · exact hflag (firstNan_second _ ha hb)
    · exact hflag (hthird ⟨ha, hb⟩ ((h.resolve_left ha).resolve_left hb))

/-- The formats of the conversions. -/
theorem regular_of_mem (h : f ∈ [fp16F, bf16F, fp32F, fp64F]) : Regular f := by
  simp only [List.mem_cons, List.not_mem_nil, or_false] at h
  rcases h with rfl | rfl | rfl | rfl
  · exact regular_fp16F
  · exact regular_bf16F
  · exact regular_fp32F
  · exact regular_fp64F

theorem finite_of_others (hn : ¬IsNan f a) (hi : ¬IsInf f a) : Claims.finite f a := (finite_or_inf hn).resolve_right hi

theorem specialOperandsAndOrders : Claims.SpecialOperandsAndOrders := by
  unfold Claims.SpecialOperandsAndOrders
  refine ⟨fun f mode hf hmode => ?_, fun f g mode a hf hg hmode => ⟨fun h => convert_inf h mode, fun h => convert_nan (regular_of_mem hf).frac h mode⟩,
    fun mode a _ => ⟨fun h => fp32ToInt_nan h mode, fun h => fp32ToInt_inf h mode⟩, fun e5 sat a b _ _ => ?_⟩
  · have hreg : Regular f := by
      rcases hf with rfl | rfl
      · exact regular_fp32F
      · exact regular_fp64F
    refine ⟨fun a b c hpa hpb hpc => ⟨?_, fun np nc => ?_, fun hn => ?_, fun most => minmaxNum_nan f most a b, ?_⟩, fun a hpa => ?_⟩
    · have hres {r : ℕ × Flg} (h : NanResult f a b r) := And.intro h.first (And.intro h.second h.flag)
      simp only [List.forall_mem_cons, List.not_mem_nil, false_imp_iff, implies_true, and_true]
      exact ⟨hres (add_nan f mode false a b), hres (add_nan f mode true a b), hres (mul_nan f mode a b), hres (div_nan f mode a b),
        hres (minmax_nan f false a b), hres (minmax_nan f true a b)⟩
    · obtain ⟨h1, h2, h3, h4⟩ := fma_nans hreg mode np nc a b c
      refine ⟨h1, h2, h3, h4, fun ⟨ha, hb⟩ hc => ⟨fun hfails => ?_, fun hfails h => ?_, fun h hinf => ?_⟩⟩
      · exact fma_fails hreg (firstNan_none (by simpa using ⟨ha, hb, hc⟩)) hfails mode np nc
      · exact (fma_inf_product hreg ha hb hc hfails h mode np nc).trans (infPlus_eq hc _ nc)
      · rw [not_or] at h
        exact fma_inf_addend (finite_of_others ha h.1) (finite_of_others hb h.2) hinf mode np nc
    · obtain ⟨ha, hb⟩ := hn
      obtain ⟨hd1, hd2, hd3, hd4⟩ := div_special hreg ha hb mode
      refine ⟨fun sub => ⟨fun h => add_inf_first hb h mode sub, fun h hinf => add_inf_second (finite_of_others ha h) hinf mode sub⟩,
        fun h => mul_inf hreg ha hb h mode, hd1, hd2, hd3, hd4, ?_⟩
      simp only [List.forall_mem_cons, List.not_mem_nil, false_imp_iff, implies_true, and_true]
      exact ⟨pick_orders hreg hpa hpb ha hb (minmax_pick ha hb), pick_orders hreg hpa hpb ha hb (minmaxNum_pick ha hb)⟩
    · obtain ⟨h1, h2, h3, h4⟩ := cmp_orders hreg hpa hpb
      exact ⟨h1, h2, h3, h4, cmp_flags f a b⟩
    · refine ⟨?_, fun n h => scalb_nan h mode n, fun h => ⟨rint_inf h mode, scalb_inf h mode⟩, fun q hq => func_tableRow hreg ?_ mode a,
        fun h hlt => func_negative h hlt mode, fun h => ⟨fun hlt => log1p_below hreg h hlt mode, fun heq => log1p_minus_one hreg hpa h heq mode,
          fun heq => logs_one hreg hpa h heq mode⟩⟩
      · simp only [List.forall_mem_cons, List.not_mem_nil, false_imp_iff, implies_true, and_true]
        have hfn (fn : Fn) := fun h : IsNan f a => func_nan h fn mode
        exact ⟨fun h => rint_nan h mode, hfn _, hfn _, hfn _, hfn _, hfn _, hfn _, hfn _, hfn _, hfn _, hfn _, hfn _, hfn _, hfn _⟩
      · simp only [List.mem_cons, List.not_mem_nil, or_false] at hq
        rcases hq with rfl | rfl | rfl | rfl | rfl | rfl | rfl | rfl | rfl | rfl | rfl | rfl | rfl <;>
          simp [TableRow, FpFormat.atInf, FpFormat.atZero, signBits_eq, FpFormat.one, FpFormat.two, FpFormat.half, FpFormat.canonical,
            FpFormat.quietBit]
  · obtain ⟨h1, h2, h3⟩ := mulToFp8_nan e5 sat a b
    refine ⟨fun h => fp32ToFp8_nan h e5 sat, fun h => fp32ToFp8_inf h e5 sat, fun h => fp32ToFp8_zero h e5 sat, h1, h2, h3,
      fun ha hb => ⟨fun hfails => ?_, fun hfails h => ?_, fun h hz => ?_⟩⟩
    · classical
      have hinf : IsInf fp32F a ∨ IsInf fp32F b := hfails.imp And.left And.right
      exact (mulToFp8_inf ha hb hinf e5 sat).trans (if_pos hfails)
    · classical
      exact (mulToFp8_inf ha hb h e5 sat).trans (if_neg hfails)
    · rw [not_or] at h
      exact mulToFp8_zero (finite_of_others ha h.1) (finite_of_others hb h.2) hz e5 sat

/-- Settles O60: each word's exact result is a significand and an exponent, or a quotient or root cut off with a sticky bit, that one
rounding takes to the nearest pattern; special operands follow the kinds of the patterns, and orders their keys. -/
theorem floatResultsRoundTheExactValueOnce : Obligations.FloatResultsRoundTheExactValueOnce := by
  unfold Obligations.FloatResultsRoundTheExactValueOnce
  exact ⟨finiteResultsRoundOnce, specialOperandsAndOrders⟩

end Sys2Proof.Rounding
end

section
/-!
SUPPORT. Sums of the matrix unit: exact products, two numbers added, blocks and trees (08 R177, R192-R194).
-/

namespace Sys2Proof.Rounding

open Sys2Proof Sys2Proof.Machine

variable {f : FpFormat} {neg : Bool} {a b k m : ℕ} {e : ℤ}

/-! ## Words of a sum -/

/-- The value of a finite pattern rounds to itself. -/
theorem roundsTo_value {r : ℕ × Flg} (h0 : k ≠ 0) (hk : k < f.infBits) (h : Claims.RoundsTo f f.infBits .rne (sgn neg * value f k) r) :
    r.1 = f.signBits neg + k := by
  have hpos : 0 < value f k := lt_of_le_of_ne (value_nonneg f k) fun h => h0 (value_eq_zero_iff.1 h.symm)
  obtain ⟨k', -, hr, -, -, hnear, -⟩ := h
  rw [abs_sgn_mul neg hpos.le] at hnear
  have hsame : k = k' := by
    by_contra hne
    rcases hnear (.inl rfl) k hk.le hne with hlt | ⟨heq, -, -⟩
    · rw [show value f k = (Claims.magnitude f k : ℝ) from rfl, sub_self, abs_zero] at hlt
      exact absurd (abs_nonneg _) (not_le.2 hlt)
    · rw [show value f k = (Claims.magnitude f k : ℝ) from rfl, sub_self, abs_zero, abs_eq_zero, sub_eq_zero] at heq
      exact hne ((value_strictMono f).injective heq)
  have hlt : sgn neg * value f k < 0 ↔ neg = true := decide_eq_true_iff.symm.trans (by rw [← neg_eq_decide neg hpos])
  rw [hr, ← hsame, signBits_eq]
  simp only [hlt]

/-- A number's pattern, decoded and written again. -/
theorem fp32Bits_decode (hp : IsPattern fp32F a) (hn : ¬IsNan fp32F a) : fp32Bits (fp32F.decode a) = a := by
  conv_rhs => rw [pattern_eq hp]
  rcases finite_or_inf hn with h | h
  · obtain ⟨m, e, hd, -, hv⟩ := decode_finite h
    rw [hd, fp32Bits]
    by_cases hm : m = 0
    · rw [hm, Nat.cast_zero, zero_mul] at hv
      rw [hm, round_zero, value_eq_zero_iff.1 hv.symm]
      rfl
    · have hr := round_whole regular_fp32F (mode := .rne) nofun hm (Claims.negative fp32F a) e
      rw [hv] at hr
      refine roundsTo_value (fun h0 => hm ?_) h hr
      rw [h0, value_zero] at hv
      exact_mod_cast (mul_eq_zero.1 hv).resolve_right (two_zpow_pos e).ne'
  · rw [decode_inf h, h, fp32Bits]

/-- What rounding gives is a number's pattern. -/
theorem roundsTo_pattern {x : ℝ} {r : ℕ × Flg} (h : Claims.RoundsTo f f.infBits .rne x r) : IsPattern f r.1 ∧ ¬IsNan f r.1 := by
  obtain ⟨k, hk, hr, -⟩ := h
  have hsigned : r.1 = f.signBits (decide (x < 0)) + k := by rw [hr, signBits_eq]; simp
  obtain ⟨hp, -, hm⟩ := signed_pattern (decide (x < 0)) (hk.trans_lt (infBits_lt f))
  rw [hsigned, IsNan, hm]
  exact ⟨hp, not_lt.2 hk⟩

theorem zeroSign_rne (n1 n2 : Bool) : zeroSign .rne n1 n2 = (n1 && n2) := by cases n1 <;> cases n2 <;> rfl

/-- An exact sum as the word that decoding its rounding gives. -/
theorem roundSum_fp32 (n1 n2 : Bool) (x : Machine.Dyadic) : let r := fp32F.roundSum .rne n1 n2 x
    (worth x ≠ 0 → Claims.RoundsTo fp32F fp32F.infBits .rne (worth x) (fp32Bits (fp32F.decode r.1), r.2)) ∧
    (worth x = 0 → r.2 = 0 ∧ fp32Bits (fp32F.decode r.1) = fp32F.signBits (n1 && n2)) := by
  have hmode : Rm.rne ≠ .dyn := nofun
  have h := roundSum_spec regular_fp32F hmode n1 n2 x
  refine ⟨fun hx => ?_, fun hx => ?_⟩
  · obtain ⟨hp, hn⟩ := roundsTo_pattern (h.1 hx)
    rw [fp32Bits_decode hp hn]
    exact h.1 hx
  · rw [h.2 hx, zeroSign_rne]
    refine ⟨rfl, ?_⟩
    cases n1 && n2 <;> decide

/-! ## Kinds of operands -/

def IsNum (x : Fp) : Prop := ∃ s m e, x = .num s m e

/-- A NaN among elements, and one that signals. -/
def NanFp (x : Fp) : Prop := ∃ s fr, x = .nan s fr
def SignalFp (x : Fp) : Prop := ∃ s fr, x = .nan s fr ∧ fr < 0x400000

theorem fpIsNan_iff (x : Fp) : fpIsNan x = true ↔ NanFp x := by cases x <;> simp [fpIsNan, NanFp]

theorem fpSignals_iff (x : Fp) : fpSignals x = true ↔ SignalFp x := by cases x <;> simp [fpSignals, SignalFp]

/-- NV for a signalling one of two elements. -/
theorem signals_flagged (a b : Fp) : Flagged (SignalFp a ∨ SignalFp b) (flagIf (fpSignals a || fpSignals b) fNV) :=
  flagged_flagIf (by rw [Bool.or_eq_true, fpSignals_iff, fpSignals_iff])

theorem worth_num (s : Bool) (m : ℕ) (e : ℤ) : ((Claims.worth (.num s m e) : ℚ) : ℝ) = sgn s * (m * 2 ^ e) := by
  rw [Claims.worth, sgn]
  push_cast
  split <;> ring

/-! ## Products and scales -/

/-- The product of numbers and their scales is exact (08 R192). -/
theorem product_exact (s r : Bool) (m n ma mb : ℕ) (e g ea eb : ℤ) :
    Claims.worth (product (.num s m e) (.value ma ea) (.num r n g) (.value mb eb)).1 =
      Claims.worth (.num s m e) * Claims.worth (.num r n g) * (ma * 2 ^ ea) * (mb * 2 ^ eb) := by
  have hpow : (2 : ℚ) ^ (e + g + ea + eb) = 2 ^ e * 2 ^ g * 2 ^ ea * 2 ^ eb := by simp [zpow_add₀]
  show (if (s != r && ma != 0 && mb != 0) = true then (-1 : ℚ) else 1) * (m * n * ma * mb : ℕ) * 2 ^ (e + g + ea + eb) = _
  rw [hpow]
  by_cases hma : ma = 0
  · simp [hma]
  · by_cases hmb : mb = 0
    · simp [hmb]
    · have ha : (ma != 0) = true := by simpa using hma
      have hb : (mb != 0) = true := by simpa using hmb
      rw [ha, hb, Bool.and_true, Bool.and_true]
      cases s <;> cases r <;> simp [Claims.worth] <;> ring

theorem product_sign (s r : Bool) (m n ma mb : ℕ) (e g ea eb : ℤ) :
    ∃ k q, (product (.num s m e) (.value ma ea) (.num r n g) (.value mb eb)).1 = .num ((s ^^ r) && (ma * mb != 0)) k q := by
  refine ⟨m * n * ma * mb, e + g + ea + eb, ?_⟩
  have hmul : (ma * mb != 0) = (ma != 0 && mb != 0) := by
    rw [Bool.eq_iff_iff]
    simp
  rw [hmul, ← Bool.and_assoc]
  rfl

/-- A bad scale makes the product the canonical NaN. -/
theorem product_bad (a b : Fp) (x : Scale) : product a .bad b x = (fpCanon, flagIf (fpSignals a || fpSignals b) fNV) ∧
    product a x b .bad = (fpCanon, flagIf (fpSignals a || fpSignals b) fNV) := by
  cases x <;> exact ⟨rfl, rfl⟩

/-- A scale below 127 is the value of its E4M3 pattern. -/
theorem scaleOf_value (hb : b < 127) : ∃ m e, scaleOf b = .value m e ∧ (m * 2 ^ e : ℚ) = Claims.magnitude e4m3F b := by
  have hpow : 2 ^ e4m3F.fbits = 8 := rfl
  have hbias : (e4m3F.bias : ℤ) = 7 := rfl
  have hfrac : (e4m3F.fbits : ℤ) = 3 := rfl
  have hnan : ¬b % 128 = 127 := by omega
  have hexp : b / 8 % 16 = b / 8 := by omega
  unfold scaleOf decodeE4m3 Claims.magnitude
  rw [hpow, hbias, hfrac, hexp, if_neg (not_le.2 hb), if_neg hnan]
  by_cases h0 : b / 8 = 0
  · rw [if_pos h0, if_pos h0, show b % 8 = b by omega]
    exact ⟨b, -9, rfl, by norm_num⟩
  · rw [if_neg h0, if_neg h0]
    refine ⟨b % 8 + 8, (b / 8 : ℕ) - 10, rfl, ?_⟩
    rw [Nat.add_comm, sub_sub]
    norm_num

theorem scaleOf_bad (hb : 127 ≤ b) : scaleOf b = .bad := if_pos hb

/-! ## Sums -/

/-- Two numbers added: their exact sum rounded once; −0 only from two zeros of that sign (08 R194). -/
theorem addRn_rounds (s r : Bool) (m n : ℕ) (e g : ℤ) : let z := Claims.worth (.num s m e) + Claims.worth (.num r n g)
    let v := addRn (.num s m e) (.num r n g)
    (z ≠ 0 → Claims.RoundsTo fp32F fp32F.infBits .rne (z : ℚ) (fp32Bits v.1, v.2)) ∧
    (z = 0 → v.2 = 0 ∧ fp32Bits v.1 = fp32F.signBits (s && r)) := by
  have h := roundSum_fp32 s r (Machine.Dyadic.add ⟨signed s m, e⟩ ⟨signed r n, g⟩)
  rw [worth_add, worth_signed, worth_signed, ← worth_num, ← worth_num, ← Rat.cast_add] at h
  exact ⟨fun hz => h.1 (Rat.cast_ne_zero.2 hz), fun hz => h.2 (Rat.cast_eq_zero.2 hz)⟩

/-- A term of an exact sum, and its sign. -/
def addTerm (x : Machine.Dyadic) : Fp → Machine.Dyadic
  | .num s m e => Machine.Dyadic.add x ⟨signed s m, e⟩
  | _ => x

def negTerm : Fp → Bool
  | .num s _ _ => s
  | _ => false

theorem exactSum_eq (ps : List Fp) : exactSum ps = (ps.all negTerm, ps.foldl addTerm ⟨0, 0⟩) := by
  have hadd : addTerm = fun x p => match p with
      | .num s m e => Machine.Dyadic.add x ⟨signed s m, e⟩
      | _ => x := by
    funext x p
    cases p <;> rfl
  have hneg : negTerm = fun p => match p with
      | .num s _ _ => s
      | _ => false := by
    funext p
    cases p <;> rfl
  rw [hadd, hneg]
  rfl

theorem worth_foldl {ps : List Fp} (h : ∀ x ∈ ps, IsNum x) (x : Machine.Dyadic) :
    worth (ps.foldl addTerm x) = worth x + ((ps.map Claims.worth).sum : ℚ) := by
  induction ps generalizing x with
  | nil => simp
  | cons p ps ih =>
    obtain ⟨s, m, e, rfl⟩ := h p List.mem_cons_self
    rw [List.foldl_cons, ih (fun y hy => h y (List.mem_cons_of_mem _ hy)), addTerm, worth_add, worth_signed, ← worth_num, List.map_cons,
      List.sum_cons, Rat.cast_add, add_assoc]

/-- A block: the exact sum of its numbers rounded once (08 R194). -/
theorem blockSum_rounds {ps : List Fp} (h : ∀ x ∈ ps, IsNum x) : let z := (ps.map Claims.worth).sum
    (z ≠ 0 → Claims.RoundsTo fp32F fp32F.infBits .rne (z : ℚ) (fp32Bits (blockSum ps).1, (blockSum ps).2)) ∧
    (z = 0 → (blockSum ps).2 = 0 ∧ fp32Bits (blockSum ps).1 = fp32F.signBits (ps.all negTerm)) := by
  have hs := roundSum_fp32 (ps.all negTerm) (ps.all negTerm) (ps.foldl addTerm ⟨0, 0⟩)
  have hzero : worth ⟨0, 0⟩ = 0 := (worth_eq_zero_iff _).2 rfl
  rw [worth_foldl h, hzero, zero_add, Bool.and_self] at hs
  unfold blockSum
  rw [exactSum_eq]
  exact ⟨fun hz => hs.1 (Rat.cast_ne_zero.2 hz), fun hz => hs.2 (Rat.cast_eq_zero.2 hz)⟩

/-! ## Pieces and trees -/

theorem ceil_sub {n l : ℕ} (hn : 0 < n) (hl : 0 < l) : (l + n - 1) / n = (l - n + n - 1) / n + 1 := by
  rcases le_total n l with h | h
  · rw [show l + n - 1 = l - n + n - 1 + n by omega, Nat.add_div_right _ hn]
  · rw [Nat.sub_eq_zero_of_le h, show l + n - 1 = l - 1 + n by omega, Nat.add_div_right _ hn, Nat.div_eq_of_lt (by omega : l - 1 < n),
      Nat.div_eq_of_lt (by omega : 0 + n - 1 < n)]

/-- The consecutive pieces of a list. -/
theorem piecesOf_eq {α : Type} {n : ℕ} (hn : 0 < n) (fuel : ℕ) (l : List α) (h : l.length ≤ fuel) :
    piecesOf n fuel l = (List.range ((l.length + n - 1) / n)).map (fun q => (l.drop (n * q)).take n) := by
  induction fuel generalizing l with
  | zero =>
    obtain rfl := List.length_eq_zero_iff.1 (Nat.le_zero.1 h)
    rw [List.length_nil, Nat.div_eq_of_lt (by omega)]
    rfl
  | succ fuel ih =>
    rw [piecesOf]
    cases l with
    | nil =>
      rw [List.length_nil, Nat.div_eq_of_lt (by omega)]
      rfl
    | cons x l =>
      have hlen : ((x :: l).drop n).length ≤ fuel := by
        rw [List.length_drop]
        omega
      rw [List.isEmpty_cons, if_neg Bool.false_ne_true, ih _ hlen, ceil_sub hn (by simp : 0 < (x :: l).length), List.length_drop,
        List.range_succ_eq_map, List.map_cons, List.map_map, Nat.mul_zero, List.drop_zero]
      refine congrArg _ (List.map_congr_left fun q _ => ?_)
      rw [Function.comp_apply, List.drop_drop, Nat.mul_succ, Nat.add_comm]

theorem treePairs_append {l1 : List (Fp × Flg)} (n : ℕ) (h : l1.length = 2 * n) (l2 : List (Fp × Flg)) :
    treePairs (l1 ++ l2) = treePairs l1 ++ treePairs l2 := by
  induction n generalizing l1 with
  | zero =>
    obtain rfl := List.length_eq_zero_iff.1 h
    rfl
  | succ n ih =>
    match l1, h with
    | x :: y :: r, h =>
      have hr : r.length = 2 * n := by
        simp only [List.length_cons] at h
        omega
      exact congrArg (accStep x y :: ·) (ih hr)

theorem length_treePairs (l : List (Fp × Flg)) : (treePairs l).length = (l.length + 1) / 2 := by
  induction l using treePairs.induct with
  | case1 x y r ih =>
    rw [treePairs, List.length_cons, ih, List.length_cons, List.length_cons]
    omega
  | case2 l h =>
    match l, h with
    | [], _ => rfl
    | [_], _ => simp [treePairs]
    | x :: y :: r, h => exact absurd rfl (h x y r)

/-- A lone half passes unchanged. -/
theorem treeSum_lone (n : ℕ) {l : List (Fp × Flg)} (h0 : 0 < l.length) (h : l.length ≤ 2 ^ n) : treeSum (n + 1) l = treeSum n l := by
  induction n generalizing l with
  | zero =>
    match l, h0, h with
    | [x], _, _ => rfl
  | succ n ih =>
    rw [treeSum, ih (by rw [length_treePairs]; omega) (by rw [length_treePairs]; omega), treeSum]

/-- Two halves are added. -/
theorem treeSum_halves (n : ℕ) {l1 l2 : List (Fp × Flg)} (h1 : l1.length = 2 ^ n) (h0 : 0 < l2.length) (h2 : l2.length ≤ 2 ^ n) :
    treeSum (n + 1) (l1 ++ l2) = accStep (treeSum n l1) (treeSum n l2) := by
  induction n generalizing l1 l2 with
  | zero =>
    match l1, l2, h1, h0, h2 with
    | [x], [y], _, _, _ => rfl
  | succ n ih =>
    rw [treeSum, treePairs_append (2 ^ n) (by rw [h1, Nat.pow_succ']), ih (by rw [length_treePairs]; omega)
      (by rw [length_treePairs]; omega) (by rw [length_treePairs]; omega), treeSum, treeSum]

/-- TREE64 by levels is the tree of halves. -/
theorem treeSum_eq_tree (n : ℕ) {l : List Fp} (h0 : 0 < l.length) (h : l.length ≤ 2 ^ n) :
    treeSum n (l.map (fun p => (p, 0))) = Claims.tree n l := by
  induction n generalizing l with
  | zero =>
    match l, h0, h with
    | [x], _, _ => rfl
  | succ n ih =>
    have hmap (l : List Fp) : (l.map (fun p => (p, (0 : Flg)))).length = l.length := List.length_map _
    rw [Claims.tree]
    split
    · next hle => rw [treeSum_lone n (by rwa [hmap]) (by rwa [hmap]), ih h0 hle]
    · next hgt =>
      have ht : (l.take (2 ^ n)).length = 2 ^ n := by
        rw [List.length_take]
        omega
      have hd : (l.drop (2 ^ n)).length = l.length - 2 ^ n := List.length_drop
      conv_lhs => rw [← List.take_append_drop (2 ^ n) l, List.map_append]
      rw [treeSum_halves n (by rw [hmap, ht]) (by rw [hmap, hd]; omega) (by rw [hmap, hd]; omega),
        ih (by rw [ht]; exact Nat.two_pow_pos n) ht.le, ih (by omega) (by omega)]
      rfl

end Sys2Proof.Rounding
end

section
/-!
SUPPORT. An output element of a matrix record: its special values, then the shape of its SUM code (08 R192-R194).
-/

namespace Sys2Proof.Rounding

open Sys2Proof Sys2Proof.Machine

variable {inits ps : List Fp} {code : ℕ}

/-! ## Special values -/

theorem canon_bits : fp32Bits fpCanon = 0x7FC00000 := by decide

/-- The first NaN of the products, then of the initial words. -/
theorem matrixElement_nan {pre post : List Fp} {x : Fp} (h : ps ++ inits = pre ++ x :: post) (hpre : ∀ y ∈ pre, ¬NanFp y) (hx : NanFp x) :
    matrixElement code inits ps = (fp32Bits (fpQuiet x), 0, flagIf (inits.any fpSignals) fNV) := by
  have hfind : (ps ++ inits).find? fpIsNan = some x := by
    rw [h, List.find?_append, List.find?_eq_none.2 fun y hy hn => hpre y hy ((fpIsNan_iff y).1 hn), List.find?_cons_of_pos ((fpIsNan_iff x).2 hx)]
    rfl
  rw [matrixElement, hfind]

/-- Whether products or initial words hold an infinity of a sign. -/
def holdsInf (neg : Bool) (l : List Fp) : Bool := l.any (fun x => x == .inf neg)

theorem holdsInf_iff (neg : Bool) (l : List Fp) : holdsInf neg l = true ↔ .inf neg ∈ l := by simp [holdsInf]

/-- Without NaNs. -/
theorem matrixElement_no_nan (h : ∀ x ∈ ps ++ inits, ¬NanFp x) : matrixElement code inits ps =
    if holdsInf false (ps ++ inits) && holdsInf true (ps ++ inits) then (0x7FC00000, 0, fNV)
    else if holdsInf false (ps ++ inits) || holdsInf true (ps ++ inits) then (fp32Bits (.inf (holdsInf true (ps ++ inits))), 0, 0)
    else let r := applyShape code (inits.headD fpZero) (inits.getD 1 fpZero) ps
      (fp32Bits r.1, (if code = 3 then fp32Bits r.2.1 else 0), r.2.2) := by
  have hfind : (ps ++ inits).find? fpIsNan = none := List.find?_eq_none.2 fun x hx hn => h x hx ((fpIsNan_iff x).1 hn)
  rw [matrixElement, hfind, canon_bits]
  rfl

theorem matrixElement_infs (h : ∀ x ∈ ps ++ inits, ¬NanFp x) :
    (.inf false ∈ ps ++ inits → .inf true ∈ ps ++ inits → matrixElement code inits ps = (0x7FC00000, 0, fNV)) ∧
    (.inf false ∈ ps ++ inits → .inf true ∉ ps ++ inits → matrixElement code inits ps = (0x7F800000, 0, 0)) ∧
    (.inf true ∈ ps ++ inits → .inf false ∉ ps ++ inits → matrixElement code inits ps = (0xFF800000, 0, 0)) := by
  have hbits : fp32Bits (.inf false) = 0x7F800000 ∧ fp32Bits (.inf true) = 0xFF800000 := by decide
  have hiff := fun neg => holdsInf_iff neg (ps ++ inits)
  rw [matrixElement_no_nan h, ← hiff, ← hiff]
  cases holdsInf false (ps ++ inits) <;> cases holdsInf true (ps ++ inits) <;> simp [hbits]

/-- Numbers go through the shape. -/
theorem matrixElement_nums (h : ∀ x ∈ ps ++ inits, IsNum x) : matrixElement code inits ps =
    let r := applyShape code (inits.headD fpZero) (inits.getD 1 fpZero) ps
    (fp32Bits r.1, (if code = 3 then fp32Bits r.2.1 else 0), r.2.2) := by
  have hnan : ∀ x ∈ ps ++ inits, ¬NanFp x := by
    intro x hx
    obtain ⟨s, m, e, rfl⟩ := h x hx
    simp [NanFp]
  have hinf (neg : Bool) : holdsInf neg (ps ++ inits) = false := by
    rw [← Bool.not_eq_true, holdsInf_iff]
    intro hmem
    obtain ⟨s, m, e, heq⟩ := h _ hmem
    exact Fp.noConfusion heq
  rw [matrixElement_no_nan hnan, hinf, hinf]
  rfl

/-! ## Shapes -/

/-- The running sum of terms. -/
def runningSum (s : Fp) (l : List (Fp × Flg)) : ℕ × ℕ × Flg := (fp32Bits (l.foldl accStep (s, 0)).1, 0, (l.foldl accStep (s, 0)).2)

theorem nums_with {s : Fp} (hs : IsNum s) (hps : ∀ x ∈ ps, IsNum x) : ∀ x ∈ ps ++ [s], IsNum x := by simpa [or_imp, forall_and] using ⟨hps, hs⟩

theorem matrixElement_ord {s : Fp} (hs : IsNum s) (hps : ∀ x ∈ ps, IsNum x) :
    matrixElement 0 [s] ps = runningSum s (ps.map (fun p => (p, 0))) := matrixElement_nums (nums_with hs hps)

theorem matrixElement_blk {s : Fp} (hs : IsNum s) (hps : ∀ x ∈ ps, IsNum x) :
    matrixElement 1 [s] ps = runningSum s ((piecesOf 32 ps.length ps).map blockSum) := matrixElement_nums (nums_with hs hps)

theorem matrixElement_tree {s : Fp} (hs : IsNum s) (hps : ∀ x ∈ ps, IsNum x) : matrixElement 2 [s] ps =
    runningSum s ((piecesOf 64 ps.length ps).map (fun c => treeSum 6 (c.map (fun p => (p, 0))))) := matrixElement_nums (nums_with hs hps)

theorem matrixElement_comp {s e : Fp} (hs : IsNum s) (he : IsNum e) (hps : ∀ x ∈ ps, IsNum x) : matrixElement 3 [s, e] ps =
    let r := ps.foldl compStep (s, e, 0)
    (fp32Bits r.1, fp32Bits r.2.1, r.2.2) :=
  matrixElement_nums (by simpa [or_imp, forall_and] using ⟨hps, hs, he⟩)

/-- The pieces of n of the products. -/
def pieces (n : ℕ) (ps : List Fp) : List (List Fp) := (List.range ((ps.length + n - 1) / n)).map (fun q => (ps.drop (n * q)).take n)

theorem mem_pieces {n : ℕ} (hn : 0 < n) {l : List Fp} (h : l ∈ pieces n ps) : 0 < l.length ∧ l.length ≤ n ∧ ∀ x ∈ l, x ∈ ps := by
  obtain ⟨q, hq, rfl⟩ := List.mem_map.1 h
  rw [List.mem_range, Nat.lt_div_iff_mul_lt hn] at hq
  rw [List.length_take, List.length_drop, Nat.mul_comm]
  exact ⟨by omega, by omega, fun x hx => List.mem_of_mem_drop (List.mem_of_mem_take hx)⟩

theorem tree_pieces (ps : List Fp) : (piecesOf 64 ps.length ps).map (fun c => treeSum 6 (c.map (fun p => (p, 0)))) = (pieces 64 ps).map (Claims.tree 6) := by
  rw [piecesOf_eq (by decide) _ _ le_rfl]
  refine List.map_congr_left fun c hc => ?_
  obtain ⟨h0, hle, -⟩ := mem_pieces (by decide) hc
  exact treeSum_eq_tree 6 h0 hle

/-- What a block of numbers comes to. -/
theorem blockSum_signs {l : List Fp} (hl : ∀ x ∈ l, IsNum x) : let z := (l.map Claims.worth).sum
    (z ≠ 0 → Claims.RoundsTo fp32F fp32F.infBits .rne (z : ℚ) (fp32Bits (blockSum l).1, (blockSum l).2)) ∧
    (z = 0 → (blockSum l).2 = 0 ∧ ((∀ x ∈ l, ∃ m f, x = .num true m f) → fp32Bits (blockSum l).1 = 0x80000000) ∧
      ((∃ m f, .num false m f ∈ l) → fp32Bits (blockSum l).1 = 0)) := by
  have h := blockSum_rounds hl
  refine ⟨h.1, fun hz => ?_⟩
  obtain ⟨hfl, hbits⟩ := h.2 hz
  refine ⟨hfl, fun hall => ?_, fun ⟨m, f, hmem⟩ => ?_⟩
  · rw [hbits, List.all_eq_true.2 fun x hx => by obtain ⟨m, f, rfl⟩ := hall x hx; rfl]
    rfl
  · rw [hbits, List.all_eq_false.2 ⟨_, hmem, Bool.false_ne_true⟩]
    rfl

/-- COMP's step without its flags (08 R194). -/
def compWords (x : Fp × Fp) (p : Fp) : Fp × Fp :=
  let s1 := (addRn x.1 p).1
  let bp := (addRn s1 (fpNeg x.1)).1
  let ap := (addRn s1 (fpNeg bp)).1
  (s1, (addRn x.2 (addRn (addRn x.1 (fpNeg ap)).1 (addRn p (fpNeg bp)).1).1).1)

theorem foldl_compStep (ps : List Fp) (st : Fp × Fp × Flg) :
    ((ps.foldl compStep st).1, (ps.foldl compStep st).2.1) = ps.foldl compWords (st.1, st.2.1) := by
  induction ps generalizing st with
  | nil => rfl
  | cons p ps ih => exact ih (compStep st p)

/-! ## The statement -/

theorem fpNeg_eq : fpNeg = fun x => match x with
    | .num s m e => .num (!s) m e
    | .inf s => .inf (!s)
    | y => y := by
  funext x
  cases x <;> rfl

theorem fpQuiet_eq (x : Fp) : fpQuiet x = match x with
    | .nan s fr => .nan s (fr ||| 0x400000)
    | y => y := by cases x <;> rfl

/-- A product with a NaN element, and with an infinity (08 R193). -/
theorem product_nan_first {a : Fp} (ha : NanFp a) (b : Fp) (ma mb : ℕ) (ea eb : ℤ) :
    product a (.value ma ea) b (.value mb eb) = (fpQuiet a, flagIf (fpSignals a || fpSignals b) fNV) := by
  obtain ⟨s, fr, rfl⟩ := ha
  rfl

theorem product_nan_second {a b : Fp} (ha : ¬NanFp a) (hb : NanFp b) (ma mb : ℕ) (ea eb : ℤ) :
    product a (.value ma ea) b (.value mb eb) = (fpQuiet b, flagIf (fpSignals b) fNV) := by
  obtain ⟨s, fr, rfl⟩ := hb
  cases a with
  | nan s fr => exact absurd ⟨s, fr, rfl⟩ ha
  | inf s => rfl
  | num s m e => rfl

theorem addRn_zero (s r : Bool) (m n : ℕ) (e g : ℤ) : fp32F.signBits (s && r) = match Fp.num s m e, Fp.num r n g with
    | .num true _ _, .num true _ _ => 0x80000000
    | _, _ => 0 := by cases s <;> cases r <;> rfl

theorem matrixElementsFollowTheirShape : Claims.MatrixElementsFollowTheirShape := by
  unfold Claims.MatrixElementsFollowTheirShape
  refine ⟨fun a b ma mb ea eb => ⟨?_, fun ha => ?_, fun ha hb => ?_, ?_, ?_, fun x => ?_⟩, fun b _ => ⟨scaleOf_bad, scaleOf_value⟩, ?_,
    fun code inits ps => ⟨fun pre x post h hpre hx => ?_, matrixElement_infs⟩, fun s e ps hs he hps => ⟨?_, ?_, ?_, ?_⟩, fun code s e _ _ _ => ⟨?_, ?_⟩⟩
  · rintro s m e r n g rfl rfl
    exact ⟨rfl, ⟨_, _, _, rfl⟩, product_exact .., product_sign ..⟩
  · rw [product_nan_first ha, fpQuiet_eq]
    exact ⟨rfl, signals_flagged a b⟩
  · rw [product_nan_second ha hb, fpQuiet_eq]
    exact ⟨rfl, flagged_flagIf (fpSignals_iff b)⟩
  · rintro s rfl
    exact ⟨by rintro r n g rfl; rfl, by rintro r rfl; rfl⟩
  · rintro s m e r rfl rfl
    rfl
  · rw [(product_bad a b x).1, (product_bad a b x).2]
    exact ⟨rfl, rfl, signals_flagged a b, signals_flagged a b⟩
  · rintro _ _ ⟨s, m, e, rfl⟩ ⟨r, n, g, rfl⟩
    have h := addRn_rounds s r m n e g
    rw [addRn_zero s r m n e g] at h
    exact h
  · rw [matrixElement_nan h hpre hx, fpQuiet_eq]
    exact ⟨rfl, rfl⟩
  · exact matrixElement_ord hs hps
  · have hpieces : piecesOf 32 ps.length ps = pieces 32 ps := piecesOf_eq (by decide) _ _ le_rfl
    refine ⟨(pieces 32 ps).map blockSum, hpieces ▸ matrixElement_blk hs hps, List.length_map _, fun q b l hb hpiece => ?_⟩
    have hl : (pieces 32 ps)[q]? = some l := hpiece
    rw [List.getElem?_map, hl, Option.map_some, Option.some_inj] at hb
    rw [← hb]
    exact blockSum_signs fun x hx => hps x ((mem_pieces (by decide) (List.mem_of_getElem? hl)).2.2 x hx)
  · rw [matrixElement_tree hs hps, tree_pieces]
    rfl
  · have hcomp := foldl_compStep ps (s, e, 0)
    unfold compWords at hcomp
    rw [fpNeg_eq] at hcomp
    exact ⟨(ps.foldl compStep (s, e, 0)).2.2, (matrixElement_comp hs he hps).trans
      (congrArg (fun w : Fp × Fp => (fp32Bits w.1, fp32Bits w.2, (ps.foldl compStep (s, e, 0)).2.2)) hcomp)⟩
  · by_cases h3 : code = 3 <;> simp [initialWords, h3, fpZero]
  · by_cases h3 : code = 3 <;> simp [initialWords, h3]

end Sys2Proof.Rounding
end

section
/-!
SUPPORT. A matrix record's step: it stops at its start, reads what is flawed, counts, or writes its accumulator (13 R346-R351; 15 R385).
-/

namespace Sys2Proof.Matrix

open Sys2Proof Sys2Proof.Machine Sys2Proof.Laws Sys2Proof.Access Sys2Proof.Translation Sys2Proof.Chorus

variable {s s₁ : State} {d : Domain} {t : Tile} {r : Rec} {k m n a : ℕ} {w : State → Domain → Tile → Rec → Work}

/-! ## The run of a step -/

/-- Taking the record changes no more than the domains. -/
theorem begun_domains (s : State) (d : Domain) (t : Tile) (r : Rec) : ∃ ds, begun s d t r = { s with domains := ds } := by
  unfold begun
  split
  · exact ⟨s.domains, rfl⟩
  · exact ⟨_, rfl⟩

/-- What a step of a work without holds comes to. -/
theorem step_ran {q : Instr} (hq : exec q s = runRecord s k w) (h : Claims.Heads s d t r k) (hw : ∀ s, Steady (w s d t r)) {s₂ : State}
    {fl : Flg} {bad : Option Bad} (hrun : (w (begun s d t r) d t r).run r.progress (begun s d t r) = (s₂, fl, bad)) {P : State → Prop}
    (hP : ∀ s', s'.mem = s₂.mem → Claims.Ran s' d t r (stageOf d (w (begun s d t r) d t r).steps r.progress bad)
      (if bad.isSome then r.progress else r.progress + 1) fl bad → P s') : Completes (exec q s) P := by
  rw [hq, runRecord_eq h]
  dsimp only
  have hkeeps := hw (begun s d t r) r.progress (begun s d t r)
  rw [hrun] at hkeeps ⊢
  obtain ⟨d₁, u, hat, hcauses, hu, hcur⟩ := begun_at h
  obtain ⟨h0, hlt, -, hcurrent, -, -, -, -⟩ := h
  rw [At.seq h0, ← hcur, ← hkeeps.cur]
  rw [← hcur, ← hkeeps.cur] at hlt
  exact ⟨_, rfl, hP _ rfl (stepped_ran (current_stands hcurrent).1 (hkeeps.at_ hat) hlt hcauses hu)⟩

/-! ## The steps of a matrix work -/

variable {kpt : ℕ} {fits : State → Bool} {misfit : State → W64} {last : State → Ran}

/-- The K steps of a record, so many elements a step. -/
def kSteps (r : Rec) (kpt : ℕ) : ℕ := ceilDiv (fieldAt r.bits 105 14 + 1) kpt

theorem matrixWork_misfit (h0 : r.progress = 0) (hfits : fits s = false) :
    (matrixWork t r kpt fits misfit last).run r.progress s = (s, 0, some (cFormat, 0, misfit s)) := by
  simp [matrixWork, h0, hfits]

theorem matrixWork_goes_on (hfits : r.progress = 0 → fits s = true) (hsound : s.sound r.reads = true) :
    (matrixWork t r kpt fits misfit last).run r.progress s = if r.progress + 1 < kSteps r kpt then (s, 0, none) else last s := by
  have hstart : ¬(decide (r.progress = 0) && !fits s) = true := by
    rw [Bool.and_eq_true, decide_eq_true_eq, Bool.not_eq_true', not_and, Bool.not_eq_false]
    exact hfits
  simp only [matrixWork, soundly, hsound, if_true]
  exact (if_neg hstart).trans rfl

theorem stageOf_going {steps i : ℕ} (h : i + 1 < steps) (d : Domain) : stageOf d steps i none = .queued := if_neg (by omega)
theorem stageOf_last {steps i : ℕ} (h : steps ≤ i + 1) (d : Domain) : stageOf d steps i none = .written := if_pos h

/-! ## Writing an accumulator -/

/-- The writes of a block of elements of accumulator a: the words of element (i, j) are those of v. -/
def gridWrites (t : Tile) (a m n : ℕ) (v : ℕ → ℕ → ℕ × ℕ) : List (ℕ × List Byte) :=
  (List.range m).flatMap (fun i => (List.range n).map (fun j => accCell t a i j (v i j).1 (v i j).2))

/-- The bytes of the block. -/
def gridCells (t : Tile) (a m n : ℕ) : List (ℕ × ℕ) := (List.range m).flatMap (fun i => (List.range n).map (fun j => (Claims.acc t a i j, 8)))

theorem length_accCell (t : Tile) (a i j x y : ℕ) : (accCell t a i j x y).2.length = 8 := by
  show (toLE 4 x ++ toLE 4 y).length = 8
  rw [List.length_append, length_toLE, length_toLE]

theorem ranges_gridWrites (t : Tile) (a m n : ℕ) (v : ℕ → ℕ → ℕ × ℕ) :
    (gridWrites t a m n v).map (fun w => (w.1, w.2.length)) = gridCells t a m n := by
  unfold gridWrites gridCells
  rw [List.map_flatMap]
  refine congrArg (List.flatMap · _) (funext fun i => ?_)
  rw [List.map_map]
  refine congrArg (List.map · _) (funext fun j => ?_)
  exact congrArg (Prod.mk _) (length_accCell ..)

theorem mem_gridWrites {v : ℕ → ℕ → ℕ × ℕ} {x : ℕ × List Byte} :
    x ∈ gridWrites t a m n v ↔ ∃ i < m, ∃ j < n, accCell t a i j (v i j).1 (v i j).2 = x := by
  simp [gridWrites]

theorem mem_gridCells {i j : ℕ} (hi : i < m) (hj : j < n) : (Claims.acc t a i j, 8) ∈ gridCells t a m n :=
  List.mem_flatMap.2 ⟨i, List.mem_range.2 hi, List.mem_map.2 ⟨j, List.mem_range.2 hj, rfl⟩⟩

theorem readByte_storeAll (s : State) (cl : ℕ) (ws : List (ℕ × List Byte)) (z : ℕ) :
    (s.storeAll cl ws).readByte z = (stored (ws.map (fun w => (cl, w))) s).readByte z := by
  unfold stored
  rw [List.foldl_map]
  rfl

/-- Bytes outside the block read as before. -/
theorem readByte_grid_other {v : ℕ → ℕ → ℕ × ℕ} {z : ℕ} (hz : ∀ q ∈ gridCells t a m n, z < q.1 ∨ q.1 + q.2 ≤ z) (s : State) (cl : ℕ) :
    (s.storeAll cl (gridWrites t a m n v)).readByte z = s.readByte z := by
  rw [readByte_storeAll]
  refine readByte_stored_other fun w hw => ?_
  obtain ⟨x, hx, rfl⟩ := List.mem_map.1 hw
  obtain ⟨i, hi, j, hj, rfl⟩ := mem_gridWrites.1 hx
  have := hz _ (mem_gridCells hi hj)
  rwa [Avoids, length_accCell]

theorem acc_eq (t : Tile) (a i j : ℕ) : Claims.acc t a i j = Claims.acc t a 0 0 + (i * 512 + 8 * j) := by
  unfold Claims.acc locAcc
  ring

/-- A byte of an element of the block is that of its words. -/
theorem readByte_grid_in {v : ℕ → ℕ → ℕ × ℕ} (hm : s.memOk) (hn : n ≤ 64) {i j b : ℕ} (hi : i < m) (hj : j < n) (hb : b < 8) (cl : ℕ) :
    (s.storeAll cl (gridWrites t a m n v)).readByte (Claims.acc t a i j + b) = (toLE 4 (v i j).1 ++ toLE 4 (v i j).2).getD b 0 := by
  have hlen := length_accCell t a i j (v i j).1 (v i j).2
  refine (readByte_storeAll _ _ _ _).trans ((readByte_stored_in (w := (cl, accCell t a i j (v i j).1 (v i j).2)) (Nat.le_add_right _ _)
    (by rw [hlen]; exact Nat.add_lt_add_left hb _) hm (List.mem_map_of_mem (mem_gridWrites.2 ⟨i, hi, j, hj, rfl⟩)) fun y hy => ?_).trans ?_)
  · obtain ⟨x, hx, rfl⟩ := List.mem_map.1 hy
    obtain ⟨p, -, q, hq, rfl⟩ := mem_gridWrites.1 hx
    by_cases hsame : p = i ∧ q = j
    · obtain ⟨rfl, rfl⟩ := hsame
      exact .inl rfl
    · right
      rw [Avoids, length_accCell]
      show Claims.acc t a i j + b < Claims.acc t a p q ∨ Claims.acc t a p q + 8 ≤ Claims.acc t a i j + b
      rw [acc_eq t a p q, acc_eq t a i j]
      omega
  · exact congrArg (List.getD _ · 0) (Nat.add_sub_cancel_left _ _)

theorem getD_words {x y b : ℕ} (hb : b < 4) : (toLE 4 x ++ toLE 4 y).getD b 0 = (toLE 4 x).getD b 0 ∧
    (toLE 4 x ++ toLE 4 y).getD (4 + b) 0 = (toLE 4 y).getD b 0 := by
  have hx := length_toLE 4 x
  constructor
  · rw [List.getD_append _ _ _ _ (by omega)]
  · rw [List.getD_append_right _ _ _ _ (by omega), hx, Nat.add_sub_cancel_left]

/-- The words of an element of the block. -/
theorem number_grid {v : ℕ → ℕ → ℕ × ℕ} (hm : s.memOk) (hn : n ≤ 64) {i j : ℕ} (hi : i < m) (hj : j < n) (cl : ℕ) :
    let s' := s.storeAll cl (gridWrites t a m n v)
    Claims.number s' (Claims.acc t a i j) 4 = (v i j).1 % 2 ^ 32 ∧ Claims.number s' (Claims.acc t a i j + 4) 4 = (v i j).2 % 2 ^ 32 := by
  refine ⟨number_of_bytes fun b hb => ?_, number_of_bytes fun b hb => ?_⟩
  · rw [readByte_grid_in hm hn hi hj (by omega), (getD_words hb).1]
  · rw [Nat.add_assoc, readByte_grid_in hm hn hi hj (by omega), (getD_words hb).2]

/-- Storage alone gives the bytes. -/
theorem number_of_mem {s s' : State} (h : s'.mem = s.mem) (loc n : ℕ) : Claims.number s' loc n = Claims.number s loc n := by
  have hbyte (x : ℕ) : s'.readByte x = s.readByte x := congrArg (readCells · x) h
  simp only [Claims.number, hbyte]

/-- What storage holds once the block is written. -/
theorem grid_written {v : ℕ → ℕ → ℕ × ℕ} (hs : s₁.mem = s.mem) (hm : s.memOk) (hn : n ≤ 64) {cl : ℕ} {s' : State}
    (h : s'.mem = (s₁.storeAll cl (gridWrites t a m n v)).mem) : Claims.Only s s' (gridCells t a m n) ∧
    ∀ i < m, ∀ j < n, Claims.number s' (Claims.acc t a i j) 4 = (v i j).1 % 2 ^ 32 ∧
      Claims.number s' (Claims.acc t a i j + 4) 4 = (v i j).2 % 2 ^ 32 := by
  refine ⟨fun x hx => ?_, fun i hi j hj => ?_⟩
  · have hold : s₁.readByte x = s.readByte x := congrArg (readCells · x) hs
    exact ((congrArg (readCells · x) h).trans (readByte_grid_other hx s₁ cl)).trans hold
  · rw [number_of_mem h, number_of_mem h]
    exact number_grid (memOk_of_mem hm hs) hn hi hj cl

theorem storeStep_grid {v : ℕ → ℕ → ℕ × ℕ} {fl : Flg} (h : s.mergesSound (gridCells t a m n) = true) :
    storeStep t (gridWrites t a m n v) fl s = (s.storeAll t.cluster (gridWrites t a m n v), fl, none) := by
  unfold storeStep
  rw [ranges_gridWrites]
  exact if_pos h

theorem fieldAt_lt (b : RecordBits) (lo w : ℕ) : fieldAt b lo w < 2 ^ w := BitVec.isLt _

end Sys2Proof.Matrix
end

section
/-!
SUPPORT. The matrix records step by step, and the elements that they compute (13 R346-R351; 08 R192-R196). The proof that settles O38.
-/

namespace Sys2Proof.Matrix

open Sys2Proof Sys2Proof.Machine Sys2Proof.Laws Sys2Proof.Access Sys2Proof.Translation Sys2Proof.Waits

variable {s : State} {d : Domain} {t : Tile} {r : Rec} {k m n a : ℕ} {w : State → Domain → Tile → Rec → Work}

/-! ## Steps of a matrix record -/

section
variable {q : Instr} {kpt : ℕ} {fits : State → Bool} {misfit : State → W64} {last : State → Ran}

theorem matrix_misfit (hq : exec q s = runRecord s k w) (h : Claims.Heads s d t r k) (hw : ∀ s, Steady (w s d t r))
    (hwork : w (begun s d t r) d t r = matrixWork t r kpt fits misfit last) (h0 : r.progress = 0) (hfits : fits (begun s d t r) = false) :
    Completes (exec q s) (fun s' => s'.mem = s.mem ∧ Claims.Ran s' d t r .written 0 0 (some (5, 0, misfit (begun s d t r)))) := by
  obtain ⟨ds, hb⟩ := begun_domains s d t r
  refine step_ran hq h hw (hwork ▸ matrixWork_misfit h0 hfits) fun s' hmem hran => ⟨hmem.trans (by rw [hb]), ?_⟩
  have hstage : stageOf d (w (begun s d t r) d t r).steps r.progress (some (cFormat, 0, misfit (begun s d t r))) = .written :=
    if_neg fun hc => absurd hc.2 (show ¬(5 : ℕ) = 7 by decide)
  rwa [hstage, Option.isSome_some, if_pos rfl, h0] at hran

theorem matrix_counts (hq : exec q s = runRecord s k w) (h : Claims.Heads s d t r k) (hw : ∀ s, Steady (w s d t r))
    (hwork : w (begun s d t r) d t r = matrixWork t r kpt fits misfit last) (hfits : r.progress = 0 → fits (begun s d t r) = true)
    (hsound : s.sound r.reads = true) (hgoes : r.progress + 1 < kSteps r kpt) :
    Completes (exec q s) (fun s' => s'.mem = s.mem ∧ Claims.Ran s' d t r .queued (r.progress + 1) 0 none) := by
  obtain ⟨ds, hb⟩ := begun_domains s d t r
  have hrun := matrixWork_goes_on (t := t) (kpt := kpt) (misfit := misfit) (last := last) hfits (by rw [hb]; exact hsound)
  rw [if_pos hgoes, ← hwork] at hrun
  refine step_ran hq h hw hrun fun s' hmem hran => ⟨hmem.trans (by rw [hb]), ?_⟩
  have hstage : stageOf d (w (begun s d t r) d t r).steps r.progress none = .queued := by
    rw [hwork]
    exact stageOf_going hgoes d
  rwa [hstage, Option.isSome_none, if_neg Bool.false_ne_true] at hran

theorem matrix_writes (hq : exec q s = runRecord s k w) (h : Claims.Heads s d t r k) (hw : ∀ s, Steady (w s d t r))
    (hwork : w (begun s d t r) d t r = matrixWork t r kpt fits misfit last) (hfits : r.progress = 0 → fits (begun s d t r) = true)
    (hsound : s.sound r.reads = true) (hlast : kSteps r kpt ≤ r.progress + 1) {v : ℕ → ℕ → ℕ × ℕ} {fl : Flg} (hn : n ≤ 64)
    (hmerges : s.mergesSound (gridCells t a m n) = true)
    (hstep : last (begun s d t r) = storeStep t (gridWrites t a m n v) fl (begun s d t r)) :
    Completes (exec q s) (fun s' => Claims.Only s s' (gridCells t a m n) ∧ Claims.Ran s' d t r .written (r.progress + 1) fl none ∧
      ∀ i < m, ∀ j < n, Claims.number s' (Claims.acc t a i j) 4 = (v i j).1 % 2 ^ 32 ∧
        Claims.number s' (Claims.acc t a i j + 4) 4 = (v i j).2 % 2 ^ 32) := by
  obtain ⟨ds, hb⟩ := begun_domains s d t r
  have hmem₁ : (begun s d t r).mem = s.mem := by rw [hb]
  have hok : s.memOk := by
    obtain ⟨-, -, -, -, -, -, hok, -⟩ := h
    exact hok
  have hrun := matrixWork_goes_on (t := t) (kpt := kpt) (misfit := misfit) (last := last) hfits (by rw [hb]; exact hsound)
  rw [if_neg (not_lt.2 hlast), ← hwork, hstep, storeStep_grid (by rw [hb]; exact hmerges)] at hrun
  refine step_ran hq h hw hrun fun s' hmem hran => ?_
  obtain ⟨honly, hwords⟩ := grid_written hmem₁ hok hn hmem
  have hstage : stageOf d (w (begun s d t r) d t r).steps r.progress none = .written := by
    rw [hwork]
    exact stageOf_last hlast d
  rw [hstage, Option.isSome_none, if_neg Bool.false_ne_true] at hran
  exact ⟨honly, hran, hwords⟩
end

/-! ## MZERO -/

theorem mzero_clears (h : Claims.Heads s d t r 0x12) : Completes (exec .mzero s) (fun s' =>
    Claims.Ran s' d t r .written (r.progress + 1) 0 none ∧ let z := Claims.acc t (fieldAt r.bits 64 2) 0 0
    ∀ x, s'.readByte x = if z ≤ x ∧ x < z + 32768 then 0 else s.readByte x) := by
  obtain ⟨ds, hb⟩ := begun_domains s d t r
  refine step_ran (mzero_eq s) h (fun _ => mzeroWork_steady _ _ _ _) rfl fun s' hmem hran => ⟨?_, fun x => ?_⟩
  · have hstage : stageOf d (mzeroWork (begun s d t r) d t r).steps r.progress none = .written := stageOf_last (Nat.le_add_left 1 _) d
    rwa [hstage, Option.isSome_none, if_neg Bool.false_ne_true] at hran
  · refine ((congrArg (readCells · x) hmem).trans (Shadow.readByte_clearRange (begun s d t r) _ _ x)).trans ?_
    rw [hb]
    exact (if_congr (show x < accLoc t (fieldAt r.bits 64 2) 0 0 ∨ accLoc t (fieldAt r.bits 64 2) 0 0 + 32768 ≤ x ↔
      ¬(accLoc t (fieldAt r.bits 64 2) 0 0 ≤ x ∧ x < accLoc t (fieldAt r.bits 64 2) 0 0 + 32768) by omega) rfl rfl).trans (ite_not ..)

/-! ## MMS -/

/-- The INT8 element q of row i of A, and the TERN5 byte with trit q of column j of B. -/
def int8At (s : State) (t : Tile) (r : Rec) (i q : ℕ) : ℤ := (BitVec.ofNat 8 (s.bankLE t (fieldAt r.bits 64 3)
  (layAddr r.lay1 (i * (fieldAt r.bits 105 14 + 1) + q)).toNat 1)).toInt
def ternAt (s : State) (t : Tile) (r : Rec) (j q : ℕ) : ℕ := s.sliceLE t j (fieldAt r.bits 77 14 + q / 5) 1

/-- The sum of an element of MMS. -/
def mmsSum (s : State) (t : Tile) (r : Rec) (i j : ℕ) : ℤ :=
  (if r.bits.getLsbD 127 then (BitVec.ofNat 32 (s.readLE (accLoc t (fieldAt r.bits 91 2) i j) 4)).toInt else 0) +
    ((List.range (fieldAt r.bits 105 14 + 1)).map (fun q => tritOf (ternAt s t r j q) (q % 5) * int8At s t r i q)).sum

theorem foldl_add_eq_sum (l : List ℕ) (f : ℕ → ℤ) (x : ℤ) : l.foldl (fun a q => a + f q) x = x + (l.map f).sum := by
  induction l generalizing x with
  | nil => simp
  | cons q l ih => rw [List.foldl_cons, ih, List.map_cons, List.sum_cons, add_assoc]

/-- Some sum leaves 32 signed bits; some byte is 243 or more. -/
def mmsOverflows (s : State) (t : Tile) (r : Rec) : Prop := ∃ i < fieldAt r.bits 93 6 + 1, ∃ j < fieldAt r.bits 99 6 + 1,
  mmsSum s t r i j < -2147483648 ∨ 2147483647 < mmsSum s t r i j
def mmsIllegal (s : State) (t : Tile) (r : Rec) : Prop := ∃ j < fieldAt r.bits 99 6 + 1, ∃ q < fieldAt r.bits 105 14 + 1, 243 ≤ ternAt s t r j q

theorem mms_flags (iov iwt : Bool) : (flagIf iov fIOV ||| flagIf iwt fIWT) &&& ~~~(fIOV ||| fIWT) = 0 ∧
    ((flagIf iov fIOV ||| flagIf iwt fIWT) &&& fIOV ≠ 0 ↔ iov = true) ∧ ((flagIf iov fIOV ||| flagIf iwt fIWT) &&& fIWT ≠ 0 ↔ iwt = true) := by
  cases iov <;> cases iwt <;> decide

theorem gridWrites_of_cells {β : Type} (t : Tile) (a m n : ℕ) (f : ℕ → ℕ → β) (g : β → ℕ × List Byte) (v : ℕ → ℕ → ℕ × ℕ)
    (h : ∀ i < m, ∀ j < n, g (f i j) = accCell t a i j (v i j).1 (v i j).2) :
    ((List.range m).flatMap (fun i => (List.range n).map (fun j => f i j))).map g = gridWrites t a m n v := by
  rw [List.map_flatMap, gridWrites]
  refine List.flatMap_congr fun i hi => ?_
  rw [List.map_map]
  exact List.map_congr_left fun j hj => h i (List.mem_range.1 hi) j (List.mem_range.1 hj)

/-- The last step of MMS writes its sums. -/
theorem runMms_eq (s : State) (t : Tile) (r : Rec) : ∃ fl, runMms t r s = storeStep t (gridWrites t (fieldAt r.bits 91 2)
      (fieldAt r.bits 93 6 + 1) (fieldAt r.bits 99 6 + 1) (fun i j => ((BitVec.ofInt 32 (mmsSum s t r i j)).toNat, 0))) fl s ∧
    fl &&& ~~~(fIOV ||| fIWT) = 0 ∧ (fl &&& fIOV ≠ 0 ↔ mmsOverflows s t r) ∧ (fl &&& fIWT ≠ 0 ↔ mmsIllegal s t r) := by
  unfold runMms
  dsimp only
  simp only [foldl_add_eq_sum]
  rw [gridWrites_of_cells t (fieldAt r.bits 91 2) _ _ _ _ (fun i j => ((BitVec.ofInt 32 (mmsSum s t r i j)).toNat, 0))
    (fun i _ j _ => rfl)]
  obtain ⟨h1, h2, h3⟩ := mms_flags _ _
  refine ⟨_, rfl, h1, h2.trans ?_, h3.trans ?_⟩
  · simp [mmsOverflows, mmsSum, ternAt, int8At]
  · simp [mmsIllegal, ternAt]

/-! ## MMA -/

/-- The products of element (i, j), in ascending k. -/
def mmaProducts (s : State) (t : Tile) (r : Rec) (i j : ℕ) : List Fp := (List.range (fieldAt r.bits 105 14 + 1)).map (fun q =>
  let x := aOperand s t r (s.winTag t (fieldAt r.bits 64 3)) (fieldAt r.bits 105 14 + 1) i q
  let y := bOperand s t r (s.sliceTag t j) (fieldAt r.bits 105 14 + 1) j q
  (product x.1 x.2.1 y.1 y.2.1).1)

/-- The words of element (i, j). -/
def mmaWords (s : State) (t : Tile) (r : Rec) (i j : ℕ) : ℕ × ℕ × Flg :=
  let loc := accLoc t (fieldAt r.bits 91 2) i j
  matrixElement (fieldAt r.bits 128 2) (initialWords (r.bits.getLsbD 127) (fieldAt r.bits 128 2) (s.readLE loc 4) (s.readLE (loc + 4) 4)).1
    (mmaProducts s t r i j)

theorem getD_map_range {α : Type} {f : ℕ → α} {i m : ℕ} (h : i < m) (y : α) : ((List.range m).map f).getD i y = f i := by
  rw [List.getD_eq_getElem?_getD, List.getElem?_map, List.getElem?_range h]
  rfl

theorem masked (x y : Flg) : (x &&& y) &&& ~~~y = 0 := by
  rw [BitVec.and_assoc, BitVec.and_not_self]
  exact BitVec.and_zero

/-- The last step of MMA writes its elements. -/
theorem runMma_eq (s : State) (t : Tile) (r : Rec) : ∃ fl, runMma t r s = storeStep t (gridWrites t (fieldAt r.bits 91 2)
      (fieldAt r.bits 93 6 + 1) (fieldAt r.bits 99 6 + 1) (fun i j => ((mmaWords s t r i j).1, (mmaWords s t r i j).2.1))) fl s ∧
    fl &&& ~~~(fNV ||| fOF ||| fISC) = 0 := by
  unfold runMma
  dsimp only
  rw [gridWrites_of_cells t (fieldAt r.bits 91 2) _ _ _ _ (fun i j => ((mmaWords s t r i j).1, (mmaWords s t r i j).2.1))
    (fun i hi j hj => ?_)]
  · exact ⟨_, rfl, masked _ _⟩
  · rw [getD_map_range hi, getD_map_range hj, List.zipWith_map, List.zipWith_self, List.map_map]
    rfl

/-! ## The statement -/

theorem isFp8_iff (fmt : ℕ) : isFp8 fmt = true ↔ fmt = 5 ∨ fmt = 6 := by simp [isFp8]

theorem kSteps_mma (r : Rec) : kSteps r (if isFp8 (fieldAt r.bits 119 4) then 2 else 1) =
    if fieldAt r.bits 119 4 = 5 ∨ fieldAt r.bits 119 4 = 6 then (fieldAt r.bits 105 14 + 1 + 1) / 2 else fieldAt r.bits 105 14 + 1 := by
  simp only [isFp8_iff]
  split
  · rfl
  · exact Nat.div_one _

theorem plain_iff (g : Tag) {fmt : BitVec 4} : g.plain fmt.toNat = true ↔ g.fmt = fmt ∧ g.blk = 0 := by
  rw [Tag.plain, Bool.and_eq_true, beq_iff_eq, beq_iff_eq, BitVec.toNat_inj]

theorem mmsFits_iff (s : State) (t : Tile) (r : Rec) : mmsFits s t r = true ↔
    ((s.winTag t (fieldAt r.bits 64 3)).fmt = 7 ∧ (s.winTag t (fieldAt r.bits 64 3)).blk = 0) ∧
      ∀ j < fieldAt r.bits 99 6 + 1, (s.sliceTag t j).fmt = 10 ∧ (s.sliceTag t j).blk = 0 := by
  have hb (j : ℕ) := plain_iff (s.sliceTag t j) (fmt := 10)
  have ha := plain_iff (s.winTag t (fieldAt r.bits 64 3)) (fmt := 7)
  simp only [← hb, ← ha, mmsFits, Bool.and_eq_true, List.all_eq_true, List.mem_range]
  rfl

/-- What MMS does at its start, at a step and at its last (13 R350). -/
theorem mms_steps (h : Claims.Heads s d t r 0x11) :
    (r.progress = 0 → mmsFits s t r = false → Completes (exec .mms s) (fun s' => s'.mem = s.mem ∧
      Claims.Ran s' d t r .written 0 0 (some (5, 0, misfitAddr r (mmsFitsA s t r) (mmsFitsB s t))))) ∧
    ((r.progress = 0 → mmsFits s t r = true) → s.sound r.reads = true →
      s.mergesSound (gridCells t (fieldAt r.bits 91 2) (fieldAt r.bits 93 6 + 1) (fieldAt r.bits 99 6 + 1)) = true →
      (r.progress + 1 < kSteps r 4 → Completes (exec .mms s) (fun s' => s'.mem = s.mem ∧
        Claims.Ran s' d t r .queued (r.progress + 1) 0 none)) ∧
      (kSteps r 4 ≤ r.progress + 1 → Completes (exec .mms s) (fun s' =>
        Claims.Only s s' (gridCells t (fieldAt r.bits 91 2) (fieldAt r.bits 93 6 + 1) (fieldAt r.bits 99 6 + 1)) ∧
        (∀ i < fieldAt r.bits 93 6 + 1, ∀ j < fieldAt r.bits 99 6 + 1,
          BitVec.ofNat 32 (Claims.number s' (Claims.acc t (fieldAt r.bits 91 2) i j) 4) = BitVec.ofInt 32 (mmsSum s t r i j) ∧
          Claims.number s' (Claims.acc t (fieldAt r.bits 91 2) i j + 4) 4 = 0) ∧
        ∃ fl, Claims.Ran s' d t r .written (r.progress + 1) fl none ∧ fl &&& ~~~(fIOV ||| fIWT) = 0 ∧
          (fl &&& fIOV ≠ 0 ↔ mmsOverflows s t r) ∧ (fl &&& fIWT ≠ 0 ↔ mmsIllegal s t r)))) := by
  obtain ⟨ds, hb⟩ := begun_domains s d t r
  have hsteady : ∀ s, Steady (mmsWork s d t r) := fun _ => mmsWork_steady _ _ _ _
  have hn : fieldAt r.bits 99 6 + 1 ≤ 64 := fieldAt_lt r.bits 99 6
  have hfits : mmsFits (begun s d t r) t r = mmsFits s t r := by rw [hb]; rfl
  refine ⟨fun h0 hmis => ?_, fun hfit hsound hmerges => ⟨fun hgoes => ?_, fun hlast => ?_⟩⟩
  · have hrun := matrix_misfit (mms_eq s) h hsteady rfl h0 (hfits.trans hmis)
    rw [hb] at hrun
    exact hrun
  · exact matrix_counts (mms_eq s) h hsteady rfl (fun h0 => hfits.trans (hfit h0)) hsound hgoes
  · obtain ⟨fl, hstep, hfl, hiov, hiwt⟩ := runMms_eq (begun s d t r) t r
    obtain ⟨s', hexec, honly, hran, hwords⟩ := matrix_writes (mms_eq s) h hsteady rfl (fun h0 => hfits.trans (hfit h0)) hsound hlast hn hmerges hstep
    rw [hb] at hwords hiov hiwt
    refine ⟨s', hexec, honly, fun i hi j hj => ?_, fl, hran, hfl, hiov, hiwt⟩
    obtain ⟨hsum, herr⟩ := hwords i hi j hj
    refine ⟨?_, herr⟩
    rw [hsum, Nat.mod_eq_of_lt (BitVec.isLt _), BitVec.ofNat_toNat, BitVec.setWidth_eq]
    rfl

/-- What MMA does at its start, at a step and at its last (13 R349). -/
theorem mma_steps (h : Claims.Heads s d t r 0x10) :
    (r.progress = 0 → mmaFits s t r = false → Completes (exec .mma s) (fun s' => s'.mem = s.mem ∧
      Claims.Ran s' d t r .written 0 0 (some (5, 0, misfitAddr r (mmaFitsA s t r) (mmaFitsB s t r))))) ∧
    ((r.progress = 0 → mmaFits s t r = true) → s.sound r.reads = true →
      s.mergesSound (gridCells t (fieldAt r.bits 91 2) (fieldAt r.bits 93 6 + 1) (fieldAt r.bits 99 6 + 1)) = true →
      (r.progress + 1 < kSteps r (if isFp8 (fieldAt r.bits 119 4) then 2 else 1) → Completes (exec .mma s) (fun s' => s'.mem = s.mem ∧
        Claims.Ran s' d t r .queued (r.progress + 1) 0 none)) ∧
      (kSteps r (if isFp8 (fieldAt r.bits 119 4) then 2 else 1) ≤ r.progress + 1 → Completes (exec .mma s) (fun s' =>
        Claims.Only s s' (gridCells t (fieldAt r.bits 91 2) (fieldAt r.bits 93 6 + 1) (fieldAt r.bits 99 6 + 1)) ∧
        (∃ fl, Claims.Ran s' d t r .written (r.progress + 1) fl none ∧ fl &&& ~~~(fNV ||| fOF ||| fISC) = 0) ∧
        ∀ i < fieldAt r.bits 93 6 + 1, ∀ j < fieldAt r.bits 99 6 + 1,
          Claims.number s' (Claims.acc t (fieldAt r.bits 91 2) i j) 4 = (mmaWords s t r i j).1 % 2 ^ 32 ∧
          Claims.number s' (Claims.acc t (fieldAt r.bits 91 2) i j + 4) 4 = (mmaWords s t r i j).2.1 % 2 ^ 32))) := by
  obtain ⟨ds, hb⟩ := begun_domains s d t r
  have hsteady : ∀ s, Steady (mmaWork s d t r) := fun _ => mmaWork_steady _ _ _ _
  have hn : fieldAt r.bits 99 6 + 1 ≤ 64 := fieldAt_lt r.bits 99 6
  have hfits : mmaFits (begun s d t r) t r = mmaFits s t r := by rw [hb]; rfl
  refine ⟨fun h0 hmis => ?_, fun hfit hsound hmerges => ⟨fun hgoes => ?_, fun hlast => ?_⟩⟩
  · have hrun := matrix_misfit (mma_eq s) h hsteady rfl h0 (hfits.trans hmis)
    rw [hb] at hrun
    exact hrun
  · exact matrix_counts (mma_eq s) h hsteady rfl (fun h0 => hfits.trans (hfit h0)) hsound hgoes
  · obtain ⟨fl, hstep, hfl⟩ := runMma_eq (begun s d t r) t r
    obtain ⟨s', hexec, honly, hran, hwords⟩ := matrix_writes (mma_eq s) h hsteady rfl (fun h0 => hfits.trans (hfit h0)) hsound hlast hn hmerges hstep
    rw [hb] at hwords
    exact ⟨s', hexec, honly, ⟨fl, hran, hfl⟩, hwords⟩

theorem matrixRecordSteps : Claims.MatrixRecordSteps := by
  unfold Claims.MatrixRecordSteps
  intro s d t r
  refine ⟨mzero_clears, fun h => ?_, fun h => ?_⟩
  · have hbyte (a : ℕ) : s.readLE a 1 = (s.readByte a).toNat := by rw [readLE_eq_number]; simp [Claims.number]
    have hsteps := mms_steps h
    rw [mmsOverflows, mmsIllegal] at hsteps
    simp only [mmsSum, ternAt, int8At, State.sliceLE, hbyte, readLE_eq_number s 4] at hsteps
    rw [← Bool.not_eq_true, mmsFits_iff] at hsteps
    exact hsteps
  · have hsteps := mma_steps h
    rw [kSteps_mma] at hsteps
    simp only [mmaWords, mmaProducts, readLE_eq_number s 4] at hsteps
    exact hsteps

/-- Settles O38: the engine's step writes the accumulator with the last K step alone, each cell apart from the others; its elements are
special values, else sums of exact products in the shape of the SUM code. -/
theorem matrixRecordsComputeElements : Obligations.MatrixRecordsComputeElements := by
  unfold Obligations.MatrixRecordsComputeElements
  exact ⟨matrixRecordSteps, Rounding.matrixElementsFollowTheirShape⟩

end Sys2Proof.Matrix
end
